-- ==== Sys2Proof/Word.lean ====
section
/-! DEFINITION. The words of the package: bytes, 64-bit words, vector registers, and the numbers that name
cores, registers, dies and ports (spec 00_scope, 02_cores). -/
namespace Sys2Proof

/-- One byte. -/
abbrev Byte := BitVec 8

/-- A 64-bit general register, special register or register word (R72). -/
abbrev Word := BitVec 64

/-- A 512-bit vector register (R72, R84). -/
abbrev VWord := BitVec 512

/-- A logical core index 0-1023 (R14). -/
abbrev CoreId := BitVec 10

/-- A register number 0-31 (R78). -/
abbrev Reg := BitVec 5

/-- ASCII characters by their codes. -/
def ascii (l : List Nat) : List Byte := l.map (BitVec.ofNat 8)

/-- The two fabric I/O dies (R23). -/
inductive Die where
  | west
  | east
deriving DecidableEq, Repr

/-- SRC_DIE of Table 9.3: 0 West, 1 East. -/
def Die.code : Die → Nat
  | .west => 0
  | .east => 1

/-- The two MGMT ports (R1). -/
inductive MgmtPort where
  | a
  | b
deriving DecidableEq, Repr

/-- The dictionary roles of Table 0.1. -/
inductive Role where
  | rack
  | owner
  | host
  | observer
deriving DecidableEq, Repr

/-- The two Rind controllers (R626). -/
inductive Rind where
  | a
  | b
deriving DecidableEq, Repr

/-- The other controller. -/
def Rind.other : Rind → Rind
  | .a => .b
  | .b => .a

end Sys2Proof
end

