-- ==== Sys2Proof/Syntax.lean ====
section
/-! DEFINITION. The commands of the package, one constructor for each row of spec/opcode_table.json, and the
data that their operands carry. A core instruction names its logical core and the register and immediate
fields of its format (R78); an event names the unit at which it happens and the values that reach the
package from outside (a sensor reading, a packet, the body of a request). -/
namespace Sys2Proof

/-- The .S and .D forms of the scalar floating-point instructions (R792, R793). -/
inductive FForm where
  | s
  | d
deriving DecidableEq, Repr

/-- Lane width of a vector integer instruction, VFUNC[1:0] (R794). -/
inductive LaneW where
  | b8
  | b16
  | b32
  | b64
deriving DecidableEq, Repr

/-- Lane format of a vector floating-point instruction, VFUNC[1:0] (R795). -/
inductive LaneF where
  | s
  | d
  | bf
  | h
deriving DecidableEq, Repr

/-- Size of an integer atomic, FUNC[2:0] (R791). -/
inductive AmoSize where
  | w
  | d
deriving DecidableEq, Repr

/-- Element format of VCVT.MX, VFUNC 0x30-0x34 (Table 2.18). -/
inductive MxFmt where
  | e2m1
  | e3m2
  | e2m3
  | e4m3
  | e5m2
deriving DecidableEq, Repr

/-- Who performs a register write: the Rind controller, or the store of a core (R77, R94, R309). -/
inductive Writer where
  | rind
  | core (c : CoreId)
deriving DecidableEq, Repr

/-- What reaches a home in HOME_ACCESS (R248): one part of an access in flight, the read of a line fill,
the write-back of a dirty line by replacement (R255), or one line of a running Press command's D (R178). -/
inductive HomeReq where
  | access (c : CoreId) (id part : Nat)
  | fill (c : CoreId) (line : Nat)
  | writeBack (c : CoreId) (line : Nat)
  | pressLine (c : CoreId) (sub : BitVec 16) (k : Nat) (mask : BitVec 64)
  | ladleRead (c : CoreId) (id line : Nat)
  | ladleAhead (c : CoreId) (sub : BitVec 16) (line : Nat)
  | ladleWrite (c : CoreId) (id : Nat) (mask : BitVec 64)
  | packetWrite (n line : Nat) (mask : BitVec 64)
  | packetRead (n line : Nat)
deriving DecidableEq, Repr

/-- CLASS of Table 9.3, the four traffic classes. -/
inductive TClass where
  | service
  | adaptive
  | scheduled
  | signal
deriving DecidableEq, Repr

/-- KIND of Table 9.4. `reserved` holds any other code. -/
inductive PKind where
  | write
  | readReq
  | readResp
  | message
  | tinc
  | tallyWrite
  | ack
  | nak
  | barrierArrive
  | barrierRelease
  | abort
  | beacon
  | audit
  | pieceReq
  | piece
  | reserved (k : Nat)
deriving DecidableEq, Repr

/-- A packet: the header of Table 9.3 with its kind-specific ARGS words, and the payload bytes with the poison
mark of each 8-byte word of its data flits. -/
structure Packet where
  dstChip : BitVec 16
  dstOff : BitVec 48
  srcChip : BitVec 16
  srcCore : BitVec 10
  cls : TClass
  kind : PKind
  vl : BitVec 4
  hops : BitVec 3
  nonmin : Bool
  ackNow : Bool
  last : Bool
  offSched : Bool
  srcDie : Die
  flow : BitVec 14
  epoch : BitVec 8
  seq : BitVec 32
  schedId : BitVec 16
  injectTime : BitVec 48
  args : List Word
  data : List Byte
  poison : List Bool
deriving DecidableEq, Repr

/-- One flit as it leaves a port's lanes (Table 9.1, R401): the tag, its 64 bytes, the symbol errors of each codeword that it touches
and no earlier flit touched, and whether it touches a codeword of an earlier flit that could not be corrected. Sequence numbers
are not carried (R403): `resend` tells that it begins the replay that a NAK asked for. -/
structure Flit where
  tag : BitVec 48
  body : List Byte
  errors : List Nat
  badBefore : Bool
  resend : Bool
deriving DecidableEq, Repr

/-- A link-control flit (R403, R446, R448; link sequences have 20 bits, on a site link 24, 10 R464): the sequence of the last flit accepted, a NAK naming a header flit's sequence, the
XOFF state of every lane, whether a failed codeword pauses every lane (R447), the credits returned since the last one
(per lane reserved, and pool), and the cumulative counts of flits received and drained per lane (R449). For the replay that a NAK
makes a site port send, the packets whose header the Cave could not give back corrected, and the words of others that it could
not (10 R472), by link sequence. -/
structure LinkCtl where
  ackSeq : Nat
  nak : Option (Nat)
  xoff : BitVec 10
  creditsLane : List Nat
  creditsPool : Nat
  allXoff : Bool
  received : List Nat
  drained : List Nat
  caveLost : List (Nat)
  caveBad : List (Nat × List Bool)
deriving DecidableEq, Repr

/-- The eight words of an identity frame (08 Table 8.4). -/
structure IdFrame where
  w0 : Word
  w1 : Word
  w2 : Word
  w3 : Word
  w4 : Word
  w5 : Word
  w6 : Word
  w7 : Word
deriving DecidableEq, Repr

/-- What a beacon brings (R431, R475): the receipt of our last beacon at the peer, 0 before there was one, and the peer's send time,
both in the peer's time; the peer's stratum, bound, validity and ASYMMETRY_NS. -/
structure BeaconData where
  t2 : Int
  t3 : Int
  stratum : Nat
  bound : Nat
  valid : Bool
  acrossSite : Bool
  reachesPrimary : Bool
  asymmetry : Int
deriving DecidableEq, Repr

/-- What one Ripener step measures (R522, R526, R527), in mW: the draw of each region, of HBM, of the fabric, of the
auxiliary entry and of the regions without a present core; each region's draw at the lowest operating state, and the
package's draws there and parked. -/
structure Telemetry where
  regions : List Nat
  hbm : Nat
  fabric : Nat
  aux : Nat
  absentRegions : Nat
  lowest : List Nat
  lowestTotal : Nat
  parked : Nat
deriving DecidableEq, Repr

/-- How the main entry has left its range (R487): 36-40 V for more than 10 us, below 36 V for 50 us or above 63 V, 60-63
V, or back within 40-60 V. -/
inductive EntryRange where
  | low
  | off
  | high
  | back
deriving DecidableEq, Repr

/-- A PTP event or general message (R667): an announce, or a sync or delay exchange with the offset it gives. -/
inductive PtpMsg where
  | announce
  | offset (ns : Int)
  | lost
deriving DecidableEq, Repr

/-- One die sensor's sample (R547): its reading in 1/16 degrees C and whether its self-check passes. -/
structure SensorRead where
  value : Int
  checkOk : Bool
deriving DecidableEq, Repr

/-- The tray registers of Table 13.5 that a sideband read returns. -/
structure TrayRegs where
  formatMajor : Nat
  formatMinor : Nat
  seq : BitVec 16
  inlet : Int
  outlet : Int
  flow : Nat
  tValid : Bool
  fValid : Bool
  mainState : Nat
  isoCause : Nat
  modules : List Nat
  stageId : Nat
  stageState : Nat
  noticeAck : Nat
  ackWritten : Bool
  pieceStatus : Nat
  pieceEcho : Nat
  busErrors : Nat
deriving DecidableEq, Repr

/-- How each Starter's checks end at AUX power-up or at a restart (R615, R631, R727, R738, R760); `bootOk`: a copy of the boot
record in its flash verifies (17 R728). -/
structure StarterResult where
  starterOk : Bool
  rindOk : Bool
  selfTest : Bool
  keysMatch : Bool
  bootOk : Bool
deriving DecidableEq, Repr

/-- The two reference clocks (R589). -/
inductive RefClk where
  | fab
  | sys
deriving DecidableEq, Repr

/-- How a start-up step in progress ends (Table 14.1): it ends as planned, or it cannot end; step 0x02 may end with the
TYPEs of running images that fail R738, step 0x07 with the ports of which a lane failed its calibration. -/
inductive StepEnd where
  | ok
  | failed
  | images (bad : List Nat)
  | lanes (ports : List Nat)
deriving DecidableEq, Repr

/-- What training found of one stack (R351, R352): whether its PHY and controller pass, which channels fail, and how
many marked rows were repaired. -/
structure StackTraining where
  pass : Bool
  failedChannels : BitVec 32
  rowsRepaired : Nat
deriving DecidableEq, Repr

/-- Kinds of self-diagnosed failure of a Rind controller (R630). -/
inductive RindFault where
  | lockstep
  | memory
  | deadline
deriving DecidableEq, Repr

/-- What a port measures as its link trains: the flight in ns (08 R386), and of a site port the round trips of the identity frames that
it times, in ns (10 R465). -/
structure TrainTimes where
  flight : Nat
  trips : List Nat
deriving DecidableEq, Repr

/-- What a region governor reads: the 10 us estimate of the region's power in mW (11 R508), and whether its rail stands at the voltage last
set (11 R506). -/
structure GovernorReading where
  power : Nat
  settled : Bool
deriving DecidableEq, Repr

/-- Results of the standby's tests over one second (R638). -/
structure StandbyTests where
  memoryPass : Bool
  memoryErrors : Nat
  lockstepDetected : Bool
  loopbackOk : Bool
  mirrorLag : Nat
deriving DecidableEq, Repr

/-- What the client certificate of an OAP handshake gives (R650, R653): whether both signatures verify, the role it
names, and the anchor it chains to (as its bytes). -/
structure ClientCert where
  ed25519Ok : Bool
  mldsaOk : Bool
  role : Option Role
  chainsTo : List Byte
deriving DecidableEq, Repr

/-- A frame on a MGMT port by its kind (R666). -/
inductive MgmtFrame where
  | icmpV6
  | oap
  | roce
  | ptp
  | recovery
  | other
deriving DecidableEq, Repr

/-- The source of image blocks (Table 17.5). -/
inductive BlockSource where
  | tray
  | peerFlash
  | neighbours
  | server
deriving DecidableEq, Repr

/-- One image block as it arrives (R735, R736): its index, the 4,096 bytes, and the stored bytes as read back. -/
structure ImageBlock where
  index : Nat
  source : BlockSource
  bytes : List Byte
  noSuchBlock : Bool
deriving DecidableEq, Repr

/-- A unit that a hang check may declare hung (Table 16.5). -/
inductive HangUnit where
  | core (c : CoreId)
  | press (c : CoreId)
  | ladle (c : CoreId)
  | queue (c : CoreId) (q : Nat)
  | hbm (stack : Nat)
  | port (p : Nat)
deriving DecidableEq, Repr

/-- An item of READ_MULTI (Table 15.8). -/
structure ReadItem where
  index : Nat
  sub : Nat
deriving DecidableEq, Repr

/-- Where a message waits to be admitted: in a sender's outbound slots on this chip, or in a receiving I/O die (06
R293). -/
inductive MsgSrc where
  | core (c : CoreId)
  | die (d : Die)
deriving DecidableEq, Repr

/-- What a rail's regulator feeds (Table 1.8). -/
inductive RailDomain where
  | transit
  | compute
  | region (r : BitVec 4)
  | stack (n : BitVec 3)
deriving DecidableEq, Repr

/-- Whose counter overflows (R772, R784). -/
inductive CountUnit where
  | core (c : CoreId)
  | port (p : BitVec 6)
  | hbm (n : BitVec 3)
deriving DecidableEq, Repr

/-- The commands, one constructor for each row of spec/opcode_table.json, in the table's order. -/
inductive Instr where
  /-- ADD, R790: Writes rs1 + rs2 modulo 2^64 to rd. -/
  | add (c : CoreId) (rd rs1 rs2 : Reg)
  /-- SUB, R790: Writes rs1 − rs2 modulo 2^64 to rd. -/
  | sub (c : CoreId) (rd rs1 rs2 : Reg)
  /-- AND, R790: Writes the bitwise AND of rs1 and rs2 to rd. -/
  | and (c : CoreId) (rd rs1 rs2 : Reg)
  /-- OR, R790: Writes the bitwise OR of rs1 and rs2 to rd. -/
  | or (c : CoreId) (rd rs1 rs2 : Reg)
  /-- XOR, R790: Writes the bitwise exclusive OR of rs1 and rs2 to rd. -/
  | xor (c : CoreId) (rd rs1 rs2 : Reg)
  /-- SLL, R790: Shifts rs1 left by rs2[5:0], with zeros entering. -/
  | sll (c : CoreId) (rd rs1 rs2 : Reg)
  /-- SRL, R790: Shifts rs1 right by rs2[5:0], with zeros entering. -/
  | srl (c : CoreId) (rd rs1 rs2 : Reg)
  /-- SRA, R790: Shifts rs1 right by rs2[5:0], with copies of bit 63 entering. -/
  | sra (c : CoreId) (rd rs1 rs2 : Reg)
  /-- SLT, R790: Writes 1 to rd when rs1 < rs2 as signed integers, otherwise 0. -/
  | slt (c : CoreId) (rd rs1 rs2 : Reg)
  /-- SLTU, R790: Writes 1 to rd when rs1 < rs2 as unsigned integers, otherwise 0. -/
  | sltu (c : CoreId) (rd rs1 rs2 : Reg)
  /-- MUL, R790: Writes bits 63:0 of the product to rd. -/
  | mul (c : CoreId) (rd rs1 rs2 : Reg)
  /-- MULH, R790: Writes bits 127:64 of the signed product to rd. -/
  | mulh (c : CoreId) (rd rs1 rs2 : Reg)
  /-- MULHU, R790: Writes bits 127:64 of the unsigned product to rd. -/
  | mulhu (c : CoreId) (rd rs1 rs2 : Reg)
  /-- DIV, R790: Writes the signed quotient rounded toward zero; division by zero gives all ones. -/
  | div (c : CoreId) (rd rs1 rs2 : Reg)
  /-- DIVU, R790: Writes the unsigned quotient; division by zero gives all ones. -/
  | divu (c : CoreId) (rd rs1 rs2 : Reg)
  /-- REM, R790: Writes the signed remainder; REM by zero gives rs1. -/
  | rem (c : CoreId) (rd rs1 rs2 : Reg)
  /-- REMU, R790: Writes the unsigned remainder; REMU by zero gives rs1. -/
  | remu (c : CoreId) (rd rs1 rs2 : Reg)
  /-- ADDI, R81: Adds the sign-extended IMM16 to rs1 and writes the result to rd. -/
  | addi (c : CoreId) (rd rs1 : Reg) (imm : BitVec 16)
  /-- ANDI, R81: Writes the AND of rs1 and the sign-extended IMM16 to rd. -/
  | andi (c : CoreId) (rd rs1 : Reg) (imm : BitVec 16)
  /-- ORI, R81: Writes the OR of rs1 and the sign-extended IMM16 to rd. -/
  | ori (c : CoreId) (rd rs1 : Reg) (imm : BitVec 16)
  /-- XORI, R81: Writes the exclusive OR of rs1 and the sign-extended IMM16 to rd. -/
  | xori (c : CoreId) (rd rs1 : Reg) (imm : BitVec 16)
  /-- SLTI, R81: Writes 1 to rd when rs1 is below the immediate as signed integers, otherwise 0. -/
  | slti (c : CoreId) (rd rs1 : Reg) (imm : BitVec 16)
  /-- SLLI, R798: Shifts rs1 left by IMM16[5:0]. -/
  | slli (c : CoreId) (rd rs1 : Reg) (amt : BitVec 6)
  /-- SRLI, R798: Shifts rs1 right logically by IMM16[5:0]. -/
  | srli (c : CoreId) (rd rs1 : Reg) (amt : BitVec 6)
  /-- SRAI, R798: Shifts rs1 right arithmetically by IMM16[5:0]. -/
  | srai (c : CoreId) (rd rs1 : Reg) (amt : BitVec 6)
  /-- LUI, R81: Writes IMM21 × 2^16 to rd. -/
  | lui (c : CoreId) (rd : Reg) (imm : BitVec 21)
  /-- AUIPC, R81: Writes pc + IMM21 × 2^12 to rd. -/
  | auipc (c : CoreId) (rd : Reg) (imm : BitVec 21)
  /-- FADD, R792: Writes the IEEE sum of rs1 and rs2 in the .S or .D form. -/
  | fadd (c : CoreId) (f : FForm) (rd rs1 rs2 : Reg)
  /-- FSUB, R792: Writes the IEEE difference rs1 − rs2. -/
  | fsub (c : CoreId) (f : FForm) (rd rs1 rs2 : Reg)
  /-- FMUL, R792: Writes the IEEE product of rs1 and rs2. -/
  | fmul (c : CoreId) (f : FForm) (rd rs1 rs2 : Reg)
  /-- FDIV, R792: Writes the correctly rounded quotient rs1 ÷ rs2. -/
  | fdiv (c : CoreId) (f : FForm) (rd rs1 rs2 : Reg)
  /-- FSQRT, R792: Writes the correctly rounded square root of rs1. -/
  | fsqrt (c : CoreId) (f : FForm) (rd rs1 rs2 : Reg)
  /-- FMIN, R240: Writes the minimum of rs1 and rs2, returning the number when one operand is NaN. -/
  | fmin (c : CoreId) (f : FForm) (rd rs1 rs2 : Reg)
  /-- FMAX, R240: Writes the maximum of rs1 and rs2, returning the number when one operand is NaN. -/
  | fmax (c : CoreId) (f : FForm) (rd rs1 rs2 : Reg)
  /-- FCMP_EQ, R792: Writes 1 to rd when rs1 equals rs2; a NaN operand gives 0. -/
  | fcmpEq (c : CoreId) (f : FForm) (rd rs1 rs2 : Reg)
  /-- FCMP_LT, R792: Writes 1 to rd when rs1 < rs2; a NaN operand gives 0. -/
  | fcmpLt (c : CoreId) (f : FForm) (rd rs1 rs2 : Reg)
  /-- FCMP_LE, R792: Writes 1 to rd when rs1 ≤ rs2; a NaN operand gives 0. -/
  | fcmpLe (c : CoreId) (f : FForm) (rd rs1 rs2 : Reg)
  /-- FCMP_UN, R792: Writes 1 to rd when either operand is NaN. -/
  | fcmpUn (c : CoreId) (f : FForm) (rd rs1 rs2 : Reg)
  /-- FCVT_TO_SIGNED, R792: Converts rs1 to a signed 64-bit integer toward zero, saturating; NaN gives 0. -/
  | fcvtToSigned (c : CoreId) (f : FForm) (rd rs1 rs2 : Reg)
  /-- FCVT_FROM_SIGNED, R792: Converts the signed integer in rs1 to the form's format, to nearest even. -/
  | fcvtFromSigned (c : CoreId) (f : FForm) (rd rs1 rs2 : Reg)
  /-- FCVT_TO_UNSIGNED, R792: Converts rs1 to an unsigned 64-bit integer toward zero, saturating. -/
  | fcvtToUnsigned (c : CoreId) (f : FForm) (rd rs1 rs2 : Reg)
  /-- FCVT_FROM_UNSIGNED, R792: Converts the unsigned integer in rs1 to the form's format, to nearest even. -/
  | fcvtFromUnsigned (c : CoreId) (f : FForm) (rd rs1 rs2 : Reg)
  /-- FCVT_BETWEEN_FORMATS, R792: Converts between binary64 and binary32. -/
  | fcvtBetweenFormats (c : CoreId) (f : FForm) (rd rs1 rs2 : Reg)
  /-- FMV_SGN, R792: Writes the magnitude of rs1 with the sign of rs2. -/
  | fmvSgn (c : CoreId) (f : FForm) (rd rs1 rs2 : Reg)
  /-- FMV_NEG, R792: Writes the magnitude of rs1 with the sign opposite to that of rs2. -/
  | fmvNeg (c : CoreId) (f : FForm) (rd rs1 rs2 : Reg)
  /-- FMV_XOR, R792: Writes the magnitude of rs1 with the XOR of the two signs. -/
  | fmvXor (c : CoreId) (f : FForm) (rd rs1 rs2 : Reg)
  /-- FMADD, R793: Writes rs1 × rs2 + rs3, rounded once. -/
  | fmadd (c : CoreId) (f : FForm) (rd rs1 rs2 rs3 : Reg)
  /-- FMSUB, R793: Writes rs1 × rs2 − rs3, rounded once. -/
  | fmsub (c : CoreId) (f : FForm) (rd rs1 rs2 rs3 : Reg)
  /-- LB, R82: Loads a sign-extended byte from rs1 + IMM16. -/
  | lb (c : CoreId) (rd rs1 : Reg) (imm : BitVec 16)
  /-- LBU, R82: Loads a zero-extended byte. -/
  | lbu (c : CoreId) (rd rs1 : Reg) (imm : BitVec 16)
  /-- LH, R82: Loads a sign-extended 2-byte value. -/
  | lh (c : CoreId) (rd rs1 : Reg) (imm : BitVec 16)
  /-- LHU, R82: Loads a zero-extended 2-byte value. -/
  | lhu (c : CoreId) (rd rs1 : Reg) (imm : BitVec 16)
  /-- LW, R82: Loads a sign-extended 4-byte value. -/
  | lw (c : CoreId) (rd rs1 : Reg) (imm : BitVec 16)
  /-- LWU, R82: Loads a zero-extended 4-byte value. -/
  | lwu (c : CoreId) (rd rs1 : Reg) (imm : BitVec 16)
  /-- LD, R82: Loads an 8-byte value. -/
  | ld (c : CoreId) (rd rs1 : Reg) (imm : BitVec 16)
  /-- SB, R82: Stores the low byte of rs2 at rs1 + IMM16. -/
  | sb (c : CoreId) (rs2 rs1 : Reg) (imm : BitVec 16)
  /-- SH, R82: Stores 2 bytes of rs2. -/
  | sh (c : CoreId) (rs2 rs1 : Reg) (imm : BitVec 16)
  /-- SW, R82: Stores 4 bytes of rs2. -/
  | sw (c : CoreId) (rs2 rs1 : Reg) (imm : BitVec 16)
  /-- SD, R82: Stores 8 bytes of rs2. -/
  | sd (c : CoreId) (rs2 rs1 : Reg) (imm : BitVec 16)
  /-- AMOADD, R279: Adds rs2 to memory atomically at the home and returns the old value. -/
  | amoadd (c : CoreId) (sz : AmoSize) (rd rs1 rs2 : Reg)
  /-- AMOMIN, R279: Writes the signed minimum of old value and rs2 atomically. -/
  | amomin (c : CoreId) (sz : AmoSize) (rd rs1 rs2 : Reg)
  /-- AMOMAX, R279: Writes the signed maximum of old value and rs2 atomically. -/
  | amomax (c : CoreId) (sz : AmoSize) (rd rs1 rs2 : Reg)
  /-- AMOMINU, R279: Writes the unsigned minimum of old value and rs2 atomically. -/
  | amominu (c : CoreId) (sz : AmoSize) (rd rs1 rs2 : Reg)
  /-- AMOMAXU, R279: Writes the unsigned maximum of old value and rs2 atomically. -/
  | amomaxu (c : CoreId) (sz : AmoSize) (rd rs1 rs2 : Reg)
  /-- AMOSWAP, R279: Writes rs2 and returns the old value atomically. -/
  | amoswap (c : CoreId) (sz : AmoSize) (rd rs1 rs2 : Reg)
  /-- AMOCAS, R279: Writes rs2 if the old value equals rd's value, and always returns the old value. -/
  | amocas (c : CoreId) (sz : AmoSize) (rd rs1 rs2 : Reg)
  /-- AMOFADD_S, R280: Adds rs2 to a binary32 value atomically, rounding to nearest even. -/
  | amofaddS (c : CoreId) (rd rs1 rs2 : Reg)
  /-- AMOFADD_BF, R280: Adds rs2 to a BF16 value atomically, rounding once. -/
  | amofaddBf (c : CoreId) (rd rs1 rs2 : Reg)
  /-- BEQ, R79: Branches by OFF16 words when rs1 equals rs2. -/
  | beq (c : CoreId) (rs1 rs2 : Reg) (off : BitVec 16)
  /-- BNE, R79: Branches when rs1 differs from rs2. -/
  | bne (c : CoreId) (rs1 rs2 : Reg) (off : BitVec 16)
  /-- BLT, R79: Branches when rs1 < rs2 as signed integers. -/
  | blt (c : CoreId) (rs1 rs2 : Reg) (off : BitVec 16)
  /-- BGE, R79: Branches when rs1 ≥ rs2 as signed integers. -/
  | bge (c : CoreId) (rs1 rs2 : Reg) (off : BitVec 16)
  /-- BLTU, R79: Branches when rs1 < rs2 as unsigned integers. -/
  | bltu (c : CoreId) (rs1 rs2 : Reg) (off : BitVec 16)
  /-- BGEU, R79: Branches when rs1 ≥ rs2 as unsigned integers. -/
  | bgeu (c : CoreId) (rs1 rs2 : Reg) (off : BitVec 16)
  /-- JAL, R79: Jumps by IMM21 words and writes the link address to rd. -/
  | jal (c : CoreId) (rd : Reg) (imm : BitVec 21)
  /-- JALR, R81: Jumps to rs1 + IMM16 with the low two bits cleared and writes the link address to rd. -/
  | jalr (c : CoreId) (rd rs1 : Reg) (imm : BitVec 16)
  /-- VADD, R794: Adds each lane of VS1 and VS2 modulo the lane width. -/
  | vadd (c : CoreId) (w : LaneW) (vd vs1 vs2 : Reg)
  /-- VSUB, R794: Subtracts each lane modulo the lane width. -/
  | vsub (c : CoreId) (w : LaneW) (vd vs1 vs2 : Reg)
  /-- VMUL, R794: Writes the low half of each lane product. -/
  | vmul (c : CoreId) (w : LaneW) (vd vs1 vs2 : Reg)
  /-- VMIN, R794: Writes the signed minimum of each lane. -/
  | vmin (c : CoreId) (w : LaneW) (vd vs1 vs2 : Reg)
  /-- VMAX, R794: Writes the signed maximum of each lane. -/
  | vmax (c : CoreId) (w : LaneW) (vd vs1 vs2 : Reg)
  /-- VMINU, R794: Writes the unsigned minimum of each lane. -/
  | vminu (c : CoreId) (w : LaneW) (vd vs1 vs2 : Reg)
  /-- VMAXU, R794: Writes the unsigned maximum of each lane. -/
  | vmaxu (c : CoreId) (w : LaneW) (vd vs1 vs2 : Reg)
  /-- VAND, R794: Writes the bitwise AND of VS1 and VS2. -/
  | vand (c : CoreId) (w : LaneW) (vd vs1 vs2 : Reg)
  /-- VOR, R794: Writes the bitwise OR of VS1 and VS2. -/
  | vor (c : CoreId) (w : LaneW) (vd vs1 vs2 : Reg)
  /-- VXOR, R794: Writes the bitwise exclusive OR of VS1 and VS2. -/
  | vxor (c : CoreId) (w : LaneW) (vd vs1 vs2 : Reg)
  /-- VSLL, R794: Shifts each lane left by the low log2(w) bits of the VS2 lane. -/
  | vsll (c : CoreId) (w : LaneW) (vd vs1 vs2 : Reg)
  /-- VSRL, R794: Shifts each lane right logically. -/
  | vsrl (c : CoreId) (w : LaneW) (vd vs1 vs2 : Reg)
  /-- VSRA, R794: Shifts each lane right arithmetically. -/
  | vsra (c : CoreId) (w : LaneW) (vd vs1 vs2 : Reg)
  /-- VMLA, R794: Writes the low half of VS1 × VS2 plus VS3 in each lane. -/
  | vmla (c : CoreId) (w : LaneW) (vd vs1 vs2 vs3 : Reg)
  /-- VCMPEQ, R794: Sets each lane to all ones when the lanes are equal, otherwise to 0. -/
  | vcmpeq (c : CoreId) (w : LaneW) (vd vs1 vs2 : Reg)
  /-- VCMPLT, R794: Sets each lane to all ones when VS1 < VS2 as signed integers. -/
  | vcmplt (c : CoreId) (w : LaneW) (vd vs1 vs2 : Reg)
  /-- VFADD, R795: Adds floating-point lanes. -/
  | vfadd (c : CoreId) (f : LaneF) (vd vs1 vs2 : Reg)
  /-- VFSUB, R795: Subtracts floating-point lanes. -/
  | vfsub (c : CoreId) (f : LaneF) (vd vs1 vs2 : Reg)
  /-- VFMUL, R795: Multiplies floating-point lanes. -/
  | vfmul (c : CoreId) (f : LaneF) (vd vs1 vs2 : Reg)
  /-- VFDIV, R795: Divides floating-point lanes. -/
  | vfdiv (c : CoreId) (f : LaneF) (vd vs1 vs2 : Reg)
  /-- VFSQRT, R795: Takes the square root of each lane of VS1. -/
  | vfsqrt (c : CoreId) (f : LaneF) (vd vs1 : Reg)
  /-- VFMIN, R795: Writes the minimum of each pair of floating-point lanes under R240. -/
  | vfmin (c : CoreId) (f : LaneF) (vd vs1 vs2 : Reg)
  /-- VFMAX, R795: Writes the maximum of each pair of floating-point lanes under R240. -/
  | vfmax (c : CoreId) (f : LaneF) (vd vs1 vs2 : Reg)
  /-- VFCMPEQ, R795: Sets each floating-point lane to all ones when equal. -/
  | vfcmpeq (c : CoreId) (f : LaneF) (vd vs1 vs2 : Reg)
  /-- VFCMPLT, R795: Sets each floating-point lane to all ones when VS1 < VS2. -/
  | vfcmplt (c : CoreId) (f : LaneF) (vd vs1 vs2 : Reg)
  /-- VFCMPLE, R795: Sets each floating-point lane to all ones when VS1 ≤ VS2. -/
  | vfcmple (c : CoreId) (f : LaneF) (vd vs1 vs2 : Reg)
  /-- VFMA, R796: Computes VS1 × VS2 + VS3 per lane as one fused operation. -/
  | vfma (c : CoreId) (f : LaneF) (vd vs1 vs2 vs3 : Reg)
  /-- VFMS, R796: Computes VS1 × VS2 − VS3 per lane as one fused operation. -/
  | vfms (c : CoreId) (f : LaneF) (vd vs1 vs2 vs3 : Reg)
  /-- VFNMA, R796: Computes VS3 − VS1 × VS2 per lane as one fused operation. -/
  | vfnma (c : CoreId) (f : LaneF) (vd vs1 vs2 vs3 : Reg)
  /-- VLD, R84: Loads 64 aligned bytes from a Vat or HBM into a vector register. -/
  | vld (c : CoreId) (vd rs1 : Reg)
  /-- VST, R84: Stores 64 aligned bytes from a vector register to a Vat or HBM. -/
  | vst (c : CoreId) (vd rs1 : Reg)
  /-- VRSUM_S, R797: Sums the 16 FP32 lanes by the fixed pairwise tree. -/
  | vrsumS (c : CoreId) (vd vs1 : Reg)
  /-- VRSUM_D, R797: Sums the 8 FP64 lanes by the fixed pairwise tree. -/
  | vrsumD (c : CoreId) (vd vs1 : Reg)
  /-- VRMAX_S, R797: Writes the maximum of the FP32 lanes. -/
  | vrmaxS (c : CoreId) (vd vs1 : Reg)
  /-- VRMIN_S, R797: Writes the minimum of the FP32 lanes. -/
  | vrminS (c : CoreId) (vd vs1 : Reg)
  /-- VRMAX_D, R797: Writes the maximum of the FP64 lanes. -/
  | vrmaxD (c : CoreId) (vd vs1 : Reg)
  /-- VRMIN_D, R797: Writes the minimum of the FP64 lanes. -/
  | vrminD (c : CoreId) (vd vs1 : Reg)
  /-- VRSUM_W, R797: Sums the 32-bit integer lanes modulo 2^32. -/
  | vrsumW (c : CoreId) (vd vs1 : Reg)
  /-- VRSUM_L, R797: Sums the 64-bit integer lanes modulo 2^64. -/
  | vrsumL (c : CoreId) (vd vs1 : Reg)
  /-- VPERM_B, R797: Permutes the bytes of VS1 by the indices in VS2. -/
  | vpermB (c : CoreId) (vd vs1 vs2 : Reg)
  /-- VINS_D, R797: Inserts a general register into one 64-bit lane of VD. -/
  | vinsD (c : CoreId) (vd rs1 vs3 : Reg)
  /-- VEXT_D, R797: Extracts one 64-bit lane of VS2 into a general register. -/
  | vextD (c : CoreId) (rd vs2 vs3 : Reg)
  /-- VBCAST_D, R797: Broadcasts a general register to every 64-bit lane. -/
  | vbcastD (c : CoreId) (vd rs1 : Reg)
  /-- VBCAST_W, R797: Broadcasts bits 31:0 of a general register to every 32-bit lane. -/
  | vbcastW (c : CoreId) (vd rs1 : Reg)
  /-- VCVT_BF_S, R797: Converts FP32 lanes to BF16. -/
  | vcvtBfS (c : CoreId) (tz : Bool) (vd vs1 : Reg)
  /-- VCVT_H_S, R797: Converts FP32 lanes to FP16. -/
  | vcvtHS (c : CoreId) (tz : Bool) (vd vs1 : Reg)
  /-- VCVT_E4_S, R797: Converts FP32 lanes to FP8 E4M3. -/
  | vcvtE4S (c : CoreId) (tz : Bool) (vd vs1 : Reg)
  /-- VCVT_E5_S, R797: Converts FP32 lanes to FP8 E5M2. -/
  | vcvtE5S (c : CoreId) (tz : Bool) (vd vs1 : Reg)
  /-- VCVT_W_S, R242: Converts FP32 lanes to 32-bit signed integers, toward zero and saturating. -/
  | vcvtWS (c : CoreId) (vd vs1 : Reg)
  /-- VCVT_L_D, R242: Converts FP64 lanes to 64-bit signed integers, toward zero and saturating. -/
  | vcvtLD (c : CoreId) (vd vs1 : Reg)
  /-- VCVT_S_W, R797: Converts 32-bit integer lanes to FP32. -/
  | vcvtSW (c : CoreId) (vd vs1 : Reg)
  /-- VCVT_D_L, R797: Converts 64-bit integer lanes to FP64. -/
  | vcvtDL (c : CoreId) (vd vs1 : Reg)
  /-- VCVT_S_BF, R797: Widens BF16 values to FP32 exactly. -/
  | vcvtSBf (c : CoreId) (vd vs1 : Reg)
  /-- VCVT_S_H, R797: Widens FP16 values to FP32 exactly. -/
  | vcvtSH (c : CoreId) (vd vs1 : Reg)
  /-- VCVT_D_S, R797: Widens FP32 values to FP64 exactly. -/
  | vcvtDS (c : CoreId) (vd vs1 : Reg)
  /-- VCVT_S_D, R797: Narrows FP64 lanes to FP32, to nearest even. -/
  | vcvtSD (c : CoreId) (vd vs1 : Reg)
  /-- VCVT_MX, R245: Packs 32 FP32 values into one MX block with an E8M0 scale. -/
  | vcvtMx (c : CoreId) (fmt : MxFmt) (vd vs1 : Reg)
  /-- FENCE_LOCAL, R110: Retires once older local accesses are performed, and orders younger accesses after it. -/
  | fenceLocal (c : CoreId)
  /-- FENCE_CHIP, R111: Retires once older uncached writes, local TINCs and on-chip messages are visible. -/
  | fenceChip (c : CoreId)
  /-- FENCE_FABRIC, R113: Retires once every older remote write of the core has been acknowledged. -/
  | fenceFabric (c : CoreId)
  /-- CFLUSH_RANGE, R116: Writes back dirty cached lines of the range and leaves them valid. -/
  | cflushRange (c : CoreId) (rs1 rs2 : Reg)
  /-- CINV_RANGE, R117: Writes back and invalidates cached lines of the range. -/
  | cinvRange (c : CoreId) (rs1 rs2 : Reg)
  /-- ACQINV, R118: Acts as CINV.RANGE and as a speculation barrier that drops fills in flight. -/
  | acqinv (c : CoreId) (rs1 rs2 : Reg)
  /-- MSEND, R136: Sends 1–256 own-Vat words as one message to a queue doorbell. -/
  | msend (c : CoreId) (rs1 rs2 : Reg) (imm : BitVec 8)
  /-- MRECV, R138: Returns the next word of a queue with its tags, without blocking. -/
  | mrecv (c : CoreId) (rd : Reg) (imm : BitVec 8)
  /-- PSUB, R121: Copies a Press descriptor into the Press queue and returns a submission number. -/
  | psub (c : CoreId) (rd rs1 : Reg)
  /-- LSUB, R122: Copies a Ladle descriptor into the Ladle queue and returns a submission number. -/
  | lsub (c : CoreId) (rd rs1 : Reg)
  /-- TINC, R139: Adds rs2 to the tally at a global tally address. -/
  | tinc (c : CoreId) (rs1 rs2 : Reg)
  /-- TINC_L, R139: Adds rs2 to one of the core's own tallies. -/
  | tincL (c : CoreId) (rs2 : Reg) (imm : BitVec 8)
  /-- TWAIT, R140: Stalls until an own tally reaches rs1 or a timeout passes, then returns the tally. -/
  | twait (c : CoreId) (rd rs1 rs2 : Reg) (imm : BitVec 8)
  /-- TWAIT_TIMEOUT, R140: A TWAIT's rs2 µs pass, and it returns the tally value unmet. -/
  | twaitTimeout (c : CoreId)
  /-- TREAD, R142: Returns an own tally zero-extended. -/
  | tread (c : CoreId) (rd : Reg) (imm : BitVec 8)
  /-- BARRIER, R143: Arrives at a barrier context and stalls until its region is released. -/
  | barrier (c : CoreId) (rs1 : Reg)
  /-- PHASE, R145: Passes a phase value to the region governor when PHASE_EN is set. -/
  | phase (c : CoreId) (rs1 : Reg)
  /-- RDSR, R85: Reads a special register into rd. -/
  | rdsr (c : CoreId) (rd : Reg) (imm : BitVec 8)
  /-- WRSR, R85: Writes rs1 to a special register. -/
  | wrsr (c : CoreId) (rs1 : Reg) (imm : BitVec 8)
  /-- LADLE_ERR_REC_RETIRE, R803: A WRSR of LADLE_ERR_REC with bit 0 set retires the oldest Ladle error record and shows the next. -/
  | ladleErrRecRetire (c : CoreId) (rs1 : Reg)
  /-- RDCNT, R776: Returns a counter-page register at its issue. -/
  | rdcnt (c : CoreId) (rd : Reg) (imm : BitVec 8)
  /-- WRCNT, R768: Writes a counter-page register, subject to mode and JOB_WRITE. -/
  | wrcnt (c : CoreId) (rs1 : Reg) (imm : BitVec 8)
  /-- WFI, R147: Stalls until an enabled interrupt is pending. -/
  | wfi (c : CoreId)
  /-- TRAP, R153: Raises the TRAP instruction trap with IMM8 in TRAP_ADDR. -/
  | trap (c : CoreId) (imm : BitVec 8)
  /-- TRET, R152: Returns to TRAP_PC in the saved mode and clears NEST. -/
  | tret (c : CoreId)
  /-- INTERRUPT_TAKE, R153: A pending enabled interrupt is taken between instructions while NEST is clear. -/
  | interruptTake (c : CoreId)
  /-- TIMER_INTERRUPT, R800: FTIME reaches TIMER_CMP and the timer interrupt becomes pending. -/
  | timerInterrupt (c : CoreId)
  /-- POISON_CONSUMED, R802: Poisoned data reaches the core, and the imprecise poison-consumed trap is taken. -/
  | poisonConsumed (c : CoreId)
  /-- CORE_RUN_SET, R77: A write that sets RUN starts the core at START_PC. -/
  | coreRunSet (w : Writer) (c : CoreId)
  /-- CORE_RUN_CLEAR, R801: A write that clears RUN halts the core at its next instruction boundary. -/
  | coreRunClear (w : Writer) (c : CoreId)
  /-- MEMORY_RESPONSE, R250: Data for an outstanding load returns from its home, and the load retires. -/
  | memoryResponse (c : CoreId) (id : Nat)
  /-- CACHE_FILL_LAND, R789: A data-cache fill in flight completes and is installed unless ACQINV dropped it. -/
  | cacheFillLand (c : CoreId) (line : Nat)
  /-- HOME_ACCESS, R249: A read, write or atomic reaches a Vat bank or HBM controller and is applied in coherence order. -/
  | homeAccess (h : HomeReq) (e0 e1 : Nat)
  /-- PRESS_NOP, R165: A NOP command starts and writes only its completion record and tally. -/
  | pressNop (c : CoreId)
  /-- PRESS_MATMUL, R184: A MATMUL command starts at the head of the Press queue and computes its tiles. -/
  | pressMatmul (c : CoreId)
  /-- PRESS_CONVERT, R165: A CONVERT command starts and converts C to D in OUT_FMT. -/
  | pressConvert (c : CoreId)
  /-- PRESS_COMPLETE, R188: A Press command completes, making D visible, then its record, then its tally increment. -/
  | pressComplete (c : CoreId) (sub : BitVec 16)
  /-- PRESS_LEVEL_STEP, R194: Each 512 array cycles the governor raises or lowers a Press activity level by one. -/
  | pressLevelStep (c : CoreId)
  /-- LADLE_COPY, R126: A COPY descriptor reaches the head of the Ladle queue, is checked, and issues its transactions. -/
  | ladleCopy (c : CoreId)
  /-- LADLE_FILL, R805: A FILL descriptor reaches the head and writes the fill pattern to its destination. -/
  | ladleFill (c : CoreId)
  /-- LADLE_LIST, R127: A LIST descriptor reaches the head and performs its transfer once per list entry. -/
  | ladleList (c : CoreId)
  /-- LADLE_LIST_ENTRY, R804: The Ladle reads and checks the next list entry after the earlier entries' transfers have been issued. -/
  | ladleListEntry (c : CoreId)
  /-- LADLE_TRANSACTION_DONE, R131: A Ladle transaction is performed or acknowledged, and the last one increments the tallies. -/
  | ladleTransactionDone (c : CoreId) (id : Nat)
  /-- MESSAGE_ADMIT, R292: A waiting message is admitted to a queue once FREE holds all its words. -/
  | messageAdmit (c : CoreId) (q : BitVec 2) (src : MsgSrc)
  /-- MESSAGE_WORD_ARRIVE, R294: A word of an admitted message arrives and may make the message readable. -/
  | messageWordArrive (c : CoreId) (q : BitVec 2) (late : Bool) (i : Nat) (fabricEnd : Bool)
  /-- MESSAGE_TRUNCATE, R295: A word 100 µs overdue ends the message with a terminating word. -/
  | messageTruncate (c : CoreId) (q : BitVec 2) (i : Nat)
  /-- TALLY_WRITE_RESEND, R305: A refused tally write is sent again after 2 µs. -/
  | tallyWriteResend (i : Nat)
  /-- TALLY_TIMEOUT, R306: A tally write held or unapplied for 10 ms raises a tally timeout. -/
  | tallyTimeout (d : Die) (held : Bool) (i : Nat)
  /-- BARRIER_ENGINE_SEND, R317: The barrier engine sends the next single-flit arrival or release, one every 2 ns. -/
  | barrierEngineSend
  /-- REGION_RELEASE, R321: The next named region is released from its BARRIER stalls in its 250 ns slot. -/
  | regionRelease
  /-- BARRIER_CONFIG_WRITE, R310: A write to a barrier context's configuration takes effect or is ignored with CONFIG_BUSY. -/
  | barrierConfigWrite (w : Writer) (n : BitVec 8) (second : Bool) (v : Word)
  /-- BARRIER_CONTEXT_RESET, R312: A write of 1 to RESET returns a barrier context to its reset counts. -/
  | barrierContextReset (w : Writer) (n : BitVec 8)
  /-- HBM_STACK_POWER, R355: The next fitted stack is powered, 10 ms after the previous one. -/
  | hbmStackPower
  /-- HBM_TRAINING, R356: Training starts on every fitted stack. -/
  | hbmTraining
  /-- HBM_TRAINING_DONE, R330: Training completes, retirements apply, the layout is chosen and reserved areas cleared. -/
  | hbmTrainingDone (ts : List StackTraining)
  /-- HBM_SCRUB, R346: The controller reads and scrubs the next codeword of its 24 h pass. -/
  | hbmScrub (stack : BitVec 3) (err : Nat)
  /-- CHANNEL_TIMEOUT, R347: A channel that does not answer within 10 µs fails and poisons its reads. -/
  | channelTimeout (stack : BitVec 3) (ch : BitVec 5)
  /-- HBM_TEMP_READ, R353: Every 10 ms the controller reads its stack temperature and sets the refresh rate. -/
  | hbmTempRead (stack : BitVec 3) (dev : Option Int) (pkg : Int)
  /-- HBM_TEMP_LOST, R354: No valid stack reading for 100 ms forces doubled refresh. -/
  | hbmTempLost (stack : BitVec 3)
  /-- IDENTITY_FRAME_SEND, R379: A port sends an identity frame every 1 ms or every 100 ms. -/
  | identityFrameSend (p : BitVec 6)
  /-- IDENTITY_FRAME, R386: A valid identity frame is received and checked, evaluating a quarantined port or detecting a change. -/
  | identityFrame (p : BitVec 6) (f : IdFrame)
  /-- IDENTITY_TIMEOUT, R380: A port in service without a valid frame for 350 ms leaves service and retrains. -/
  | identityTimeout (p : BitVec 6)
  /-- LINK_TRAINED, R386: Link training completes and the port is evaluated against the discovery outcomes. -/
  | linkTrained (p : BitVec 6) (f : IdFrame) (times : TrainTimes)
  /-- TRAINING_RETRY, R388: A port not trained retries training every 1 s. -/
  | trainingRetry (p : BitVec 6)
  /-- PORT_MISSING, R388: A used port still not trained after 5 s or 12 s becomes DOWN with cause MISSING. -/
  | portMissing (p : BitVec 6)
  /-- PLAN_WRITE, R383: A written cabling plan is checked and becomes the plan in force or is refused. -/
  | planWrite (role : Role) (v : List Byte)
  /-- SIGNER_WRITE, R382: A write to SIGNER sets the certificate for later plans. -/
  | signerWrite (role : Role) (v : List Byte)
  /-- ACCEPT_SWAP, R390: A write of a swapped pair to ACCEPT_SWAP exchanges the two ports' logical names. -/
  | acceptSwap (role : Role) (v : BitVec 16)
  /-- ROUTE_BLOCK_WRITE, R375: A route block write goes to the shadow bank in both dies. -/
  | routeBlockWrite (role : Role) (b : BitVec 6) (v : List Byte)
  /-- ROUTE_COMMIT, R376: A write of 1 to COMMIT makes the shadow bank active or is refused. -/
  | routeCommit (role : Role) (v : BitVec 8)
  /-- FLIT_RECEIVE, R402: A port receives a flit, checks it in sequence and buffers or forwards it. -/
  | flitReceive (p : BitVec 6) (f : Flit)
  /-- LINK_CONTROL, R403: A link-control flit delivers acknowledgement, NAK, lane state or credits. -/
  | linkControl (p : BitVec 6) (l : LinkCtl)
  /-- LINK_ACK_SEND, R403: The receiver returns the last accepted link sequence at least every 100 ns. -/
  | linkAckSend (p : BitVec 6)
  /-- LANE_LOCK_LOSS, R405: A port loses lock on a lane and leaves service. -/
  | laneLockLoss (p : BitVec 6)
  /-- FAILOVER_RESEND, R455: Packets held for a failed port are sent in original order on other ports. -/
  | failoverResend (p : BitVec 6)
  /-- PACKET_ROUTE, R374: A packet entering a die is routed once by the active route bank. -/
  | packetRoute (d : Die)
  /-- PACKET_DEPART, R414: After a packet's last flit leaves, the output port chooses the next packet by class. -/
  | packetDepart (p : BitVec 6)
  /-- WRITE_PACKET, R409: A WRITE packet arrives and its lines are performed at their homes. -/
  | writePacket (k : Packet)
  /-- READ_REQ, R427: A READ_REQ arrives and the serving die returns READ_RESP packets. -/
  | readReq (k : Packet)
  /-- READ_RESP, R427: A READ_RESP arrives and the requesting die writes its data. -/
  | readResp (k : Packet)
  /-- MESSAGE_PACKET, R293: A MESSAGE packet arrives at the destination die for a queue. -/
  | messagePacket (k : Packet)
  /-- TINC_PACKET, R425: A remote TINC arrives and is applied in stream order. -/
  | tincPacket (k : Packet)
  /-- TALLY_WRITE, R303: A tally write arrives and is applied, held or refused. -/
  | tallyWrite (k : Packet)
  /-- ACK, R423: An ACK arrives and advances ACK_SEQ and RETURNED at the source. -/
  | ack (k : Packet)
  /-- NAK, R428: A NAK arrives, carrying a flow error or HOLD_FULL refusal. -/
  | nak (k : Packet)
  /-- BARRIER_ARRIVE, R318: A barrier arrival packet reaches a context and is counted or raises an error. -/
  | barrierArrive (k : Packet)
  /-- BARRIER_RELEASE, R813: A barrier release reaches a member context and completes its generation. -/
  | barrierRelease (k : Packet)
  /-- ABORT_PACKET, R700: An ABORT arrives, is performed and forwarded, or is discarded. -/
  | abortPacket (k : Packet)
  /-- BEACON, R431: A BEACON arrives and the neighbour's time offset is computed. -/
  | beacon (p : BitVec 6) (b : BeaconData)
  /-- AUDIT, R449: An AUDIT arrives and the sink checks the flow's conserved quantities. -/
  | audit (k : Packet)
  /-- PIECE_REQ, R740: A PIECE_REQ arrives and is served from a complete slot or discarded. -/
  | pieceReq (k : Packet)
  /-- PIECE, R740: A PIECE arrives carrying one 4 KiB image block. -/
  | piece (k : Packet)
  /-- GAP_TIMEOUT, R422: A missing sequence holding back a packet for 100 µs or 5 ms ends the flow. -/
  | gapTimeout (flow : BitVec 14)
  /-- ACK_TIMEOUT, R424: An unacknowledged sequence waiting 10 ms or 25 ms ends the flow. -/
  | ackTimeout (flow : BitVec 14)
  /-- ACK_COALESCE, R423: The sink sends a coalesced ACK every 1 µs or after 64 KiB. -/
  | ackCoalesce (flow : BitVec 14)
  /-- UNFLOWED_RESEND, R426: An unacknowledged unflowed packet is resent with a doubled wait. -/
  | unflowedResend (d : Die) (i : Nat)
  /-- BEACON_SEND, R431: Each port in service sends a BEACON every 10 µs. -/
  | beaconSend (p : BitVec 6)
  /-- AUDIT_SEND, R449: A window flow sends an AUDIT once per schedule period. -/
  | auditSend (flow : BitVec 14)
  /-- CREDIT_RETURN, R448: The receiver returns window-mode credits every 1 µs, or 8 µs on site links. -/
  | creditReturn (p : BitVec 6)
  /-- LONG_LINK_CHECK, R449: Cumulative credit counts are checked every 100 µs. -/
  | longLinkCheck (p : BitVec 6)
  /-- BACKUP_PRIMARY_CLAIM, R434: A backup primary without a parent reaching the primary for 1 ms takes stratum 0. -/
  | backupPrimaryClaim
  /-- TIME_NO_PARENT, R433: Without a parent the error bound grows until time becomes invalid. -/
  | timeNoParent
  /-- SCHEDULE_COMMIT, R442: A write of 1 to COMMIT arms the shadow schedule tables or is refused. -/
  | scheduleCommit (role : Role) (v : BitVec 8)
  /-- SCHEDULE_ACTIVATE, R442: At fabric time START the armed schedule becomes active on every port. -/
  | scheduleActivate
  /-- CONGESTION_SAMPLE, R452: Each Hoop samples each port every 10 µs into a congestion record. -/
  | congestionSample (p : BitVec 6)
  /-- SITE_LINE_LOST, R480: A site port loses line lock or its module faults, leaves service and retrains. -/
  | siteLineLost (p : BitVec 6) (fault : Bool)
  /-- RIPENER_STEP, R521: Every 100 µs the Ripener computes the budget and sends region grants. -/
  | ripenerStep (t : Telemetry)
  /-- GOVERNOR_STEP, R508: Every 10 µs a region governor compares its power estimate with its grant and adjusts clock or ceiling. -/
  | governorStep (r : BitVec 4) (reading : GovernorReading)
  /-- LIMITER_SAMPLE, R497: Every 1 µs the hardware limiter samples input power and acts or releases. -/
  | limiterSample (us100 ms1 : Nat)
  /-- SUPPLY_ALERT_ASSERT, R515: SUPPLY_ALERT_N is asserted and hardware forces the lowest operating state. -/
  | supplyAlertAssert
  /-- SUPPLY_ALERT_DEASSERT, R516: SUPPLY_ALERT_N is deasserted and the 10 ms hold starts. -/
  | supplyAlertDeassert
  /-- SUPPLY_ALERT_HOLD_END, R516: 10 ms after deassertion the lowest-state hold is released. -/
  | supplyAlertHoldEnd
  /-- MAIN_ENTRY_FAULT, R487: The main entry leaves its range and the regulators alert or switch off. -/
  | mainEntryFault (e : EntryRange)
  /-- DROOP_DETECT, R514: A region rail falls 5 % below setpoint and the clock is stretched. -/
  | droopDetect (r : BitVec 4)
  /-- DROOP_RECOVER, R514: After at least 32 cycles with the rail back within 3 %, the stretch ends. -/
  | droopRecover (r : BitVec 4)
  /-- RISE_END, R518: A region's rise ends and a waiting region enters its rise. -/
  | riseEnd (r : BitVec 4)
  /-- NEXT_EXPIRE, R520: NEXT is cleared 100 ms after NEXT_DUE. -/
  | nextExpire (r : BitVec 4)
  /-- PARK_SLICE, R530: At each 10 ms boundary the package runs or parks the next slice. -/
  | parkSlice (energy lowest : Nat)
  /-- UNPARK, R532: The package releases its regions 250 ns apart from the rotation pointer. -/
  | unpark
  /-- THROTTLE_TICK, R512: At each 1 ms tick a throttled interval is extended or closed and recorded. -/
  | throttleTick
  /-- WINDOW_AVG_UPDATE, R495: WINDOW_AVG is updated every 100 ms. -/
  | windowAvgUpdate (avg main aux : Nat)
  /-- CAP_WRITE, R493: A Rack or Host cap write takes effect at the next Ripener step and may log a power order. -/
  | capWrite (role : Role) (v : BitVec 32)
  /-- CAP_WINDOW_WRITE, R492: A WINDOW write is accepted for 1–30 s or refused. -/
  | capWindowWrite (role : Role) (v : BitVec 8)
  /-- RACK_ORDER_WRITE, R504: A RACK_ORDER write changes the effective power state. -/
  | rackOrderWrite (role : Role) (v : BitVec 8)
  /-- HOST_ORDER_WRITE, R504: A HOST_ORDER write changes the effective power state. -/
  | hostOrderWrite (role : Role) (v : BitVec 8)
  /-- HOLD_WRITE, R503: A HOLD write sets or clears the refusal of host job starts and resets. -/
  | holdWrite (role : Role) (v : BitVec 8)
  /-- FREQUENCY_MODE_WRITE, R513: A MODE or FIXED_MHZ write takes effect or is held until the job ends. -/
  | frequencyModeWrite (role : Role) (mhz : Bool) (v : BitVec 16)
  /-- RELEASE_OFFSET_WRITE, R323: A write sets the release offset 0–31 µs or is refused. -/
  | releaseOffsetWrite (role : Role) (v : BitVec 8)
  /-- GATE_WRITE, R542: A power-gate write switches cores on or off or is refused. -/
  | gateWrite (w : Writer) (r : BitVec 4) (hi : Bool) (v : Word)
  /-- DIE_SENSOR_SAMPLE, R547: Every 1 ms die sensors are read, judged, and the governing readings formed. -/
  | dieSensorSample (rs : List SensorRead)
  /-- LEAK_SAMPLE, R551: Every 10 ms the leak loop is measured and classed. -/
  | leakSample (ohm : Nat)
  /-- FLOW_CHECK, R554: Every 100 ms the implied flow is computed and compared with the reported flow. -/
  | flowCheck (power : Nat) (dt : Int)
  /-- ALLOWANCE_UPDATE, R558: The cooling allowance is recomputed every 100 ms. -/
  | allowanceUpdate
  /-- COOLANT_DATA_LOST, R559: No valid tray report for 2 s sets data lost and A_flow to 1,050 W. -/
  | coolantDataLost
  /-- JUNCTION_STEP, R567: Every 10 ms the junction allowance is lowered, held or raised. -/
  | junctionStep (power : Nat)
  /-- SUSTAINED_LIMIT, R566: The junction above 95 °C for 60 s raises a sustained-limit event. -/
  | sustainedLimit
  /-- COOLANT_FAULT_ASSERT, R562: COOLANT_FAULT_N is asserted and a fast stop begins in hardware. -/
  | coolantFaultAssert
  /-- COOLANT_FAULT_DEASSERT, R565: COOLANT_FAULT_N is deasserted, a condition of restored flow. -/
  | coolantFaultDeassert
  /-- COOLANT_STOP_TIMEOUT, R564: The coolant stop timer reaches 5 s and asserts HEAT_TRIP_N. -/
  | coolantStopTimeout
  /-- FLOW_RESTORED, R565: Restore conditions held for 1 s unpark the package and reset the stop timer. -/
  | flowRestored
  /-- COMPARATOR_TRIP, R569: A sensor above 115 °C for 100 µs asserts HEAT_TRIP_N. -/
  | comparatorTrip (i : BitVec 7)
  /-- MAIN_RAILS_OFF, R570: 1 ms after HEAT_TRIP_N the main-fed rails switch off. -/
  | mainRailsOff
  /-- TRIP_CLEAR, R572: An Owner write to TRIP_CLEAR clears HEAT_TRIP_N or is refused. -/
  | tripClear (role : Role) (v : BitVec 8)
  /-- CLEAR_FAULTS, R550: A write to CLEAR_FAULTS clears every sensor mark. -/
  | clearFaults (role : Role) (v : BitVec 8)
  /-- CYCLE_SAMPLE, R574: Every 100 ms the junction is sampled and reversals counted into bins. -/
  | cycleSample
  /-- CYCLE_SAVE, R577: The bins and residue are written to flash hourly. -/
  | cycleSave
  /-- LIFE_EVALUATE, R578: LIFE_USED is evaluated hourly and may raise events. -/
  | lifeEvaluate
  /-- AUX_POWER_UP, R615: AUX_PG is asserted and both Starters run and elect the active controller. -/
  | auxPowerUp (straps : BitVec 2) (a b : StarterResult)
  /-- AUX_RESET, R592: AUX_PG deasserted or PKG_RESET_N asserted for 1 µs resets the AUX domain. -/
  | auxReset (byPin : Bool)
  /-- OWN_B_CLAIM, R615: 3 s after AUX power-up Rind B claims OWN_B if OWN_A is still deasserted. -/
  | ownBClaim
  /-- MAIN_PG_ASSERT, R593: MAIN_PG is asserted after a request and main-fed domains may be powered. -/
  | mainPgAssert
  /-- MAIN_PG_LOSS, R594: MAIN_PG is deasserted while main power is held, and the package clamps and serves in Presence. -/
  | mainPgLoss
  /-- EJECT_ASSERT, R599: EJECT_N is asserted and updates and flash programs are refused. -/
  | ejectAssert
  /-- HOLDUP_OK_CHANGE, R597: HOLDUP_OK changes and flash program steps are allowed or stopped. -/
  | holdupOkChange (high : Bool)
  /-- FLASH_PROGRAM, R597: A pending flash page write is started once conditions allow. -/
  | flashProgram
  /-- REFCLK_LOSS, R589: A reference clock absent for 1 µs is reported and acted on. -/
  | refclkLoss (k : RefClk)
  /-- SIDEBAND_POLL, R604: Every 100 ms the package reads tray status and writes its requests. -/
  | sidebandPoll (t : TrayRegs) (power : Nat)
  /-- IN_BAND_INTERRUPT, R604: An in-band interrupt from the tray makes the package read the named register within 1 ms. -/
  | inBandInterrupt (bits : BitVec 4) (t : TrayRegs)
  /-- LOCATE_WRITE, R612: A LOCATE write starts or stops the locate indicator. -/
  | locateWrite (role : Role) (v : BitVec 8)
  /-- LOCATE_TIMEOUT, R612: 30 minutes after the last write of 1 the locate indicator stops. -/
  | locateTimeout
  /-- MAIN_RETRY, R595: A write of 1 to MAIN_RETRY requests main power again. -/
  | mainRetry (role : Role) (v : BitVec 8)
  /-- START_STEP_BEGIN, R614: A start-up step begins when the previous step has ended. -/
  | startStepBegin (e : StepEnd)
  /-- REGION_RISE, R617: A region begins its rise 2 ms after the previous one. -/
  | regionRise (routerOk : Bool) (defects : List Nat)
  /-- TRAINING_GROUP_START, R619: The next training group of eight ports begins. -/
  | trainingGroupStart
  /-- OAP_HANDSHAKE, R650: A DTLS handshake with composite certificates opens a session with a role or fails. -/
  | oapHandshake (p : MgmtPort) (cid : BitVec 64) (cert : ClientCert) (linkLocal : Bool)
  /-- SESSION_IDLE_TIMEOUT, R651: A session with no valid record for 60 s is closed. -/
  | sessionIdleTimeout (sid : Nat)
  /-- OAP_READ, R656: A READ request returns a value from OFFSET. -/
  | oapRead (sid : Nat) (p : MgmtPort) (req : BitVec 32) (index : BitVec 16) (sub : BitVec 8) (off : BitVec 32)
  /-- OAP_WRITE, R656: A WRITE request sets a sub-entry that has no row of its own. -/
  | oapWrite (sid : Nat) (p : MgmtPort) (req : BitVec 32) (index : BitVec 16) (sub : BitVec 8) (off : BitVec 32) (body : List Byte) (more : Bool)
  /-- READ_MULTI, R656: A READ_MULTI request returns up to 64 items. -/
  | readMulti (sid : Nat) (p : MgmtPort) (req : BitVec 32) (items : List ReadItem)
  /-- SUBSCRIBE, R662: A SUBSCRIBE request creates a subscription and returns SUB_ID. -/
  | subscribe (sid : Nat) (p : MgmtPort) (req : BitVec 32) (index : BitVec 16) (sub : BitVec 8) (interval : BitVec 32)
  /-- SUBSCRIBE_CANCEL, R662: A SUBSCRIBE with CANCEL removes a subscription. -/
  | subscribeCancel (sid : Nat) (p : MgmtPort) (req : BitVec 32) (subId : BitVec 32)
  /-- MGMT_TICK, R660: At the end of each 1 ms tick the requests that arrived are performed in precedence order. -/
  | mgmtTick
  /-- ANCHOR_WRITE, R664: A trust anchor write closes sessions granted by the old anchor. -/
  | anchorWrite (sid : Nat) (which : Role) (v : List Byte)
  /-- RIND_RELEASE, R630: The active controller detects a failure, releases its line and stops. -/
  | rindRelease (f : RindFault)
  /-- RIND_WATCHDOG, R630: 10 ms without a refresh deasserts the active controller's line. -/
  | rindWatchdog
  /-- RIND_CLAIM, R629: A healthy standby claims after the other line has been deasserted for 1 ms. -/
  | rindClaim (main aux bound : Nat)
  /-- RIND_RESTART, R631: A released controller finishes its Starter self-test and becomes standby or halts. -/
  | rindRestart (x : Rind) (r : StarterResult)
  /-- STANDBY_TEST, R638: Every 1 s the standby tests itself and publishes the results. -/
  | standbyTest (t : StandbyTests)
  /-- MIRROR_COPY, R635: The active controller copies mirrored data to the standby at its period. -/
  | mirrorCopy
  /-- TAKEBACK, R641: Rind A, healthy 60 s as standby, requests the handover from Rind B. -/
  | takeback
  /-- JOB_START, R674: A START command reseeds streams, takes an energy slot and starts the runtime. -/
  | jobStart (role : Role)
  /-- JOB_STOP, R675: A STOP command signals an orderly end to the runtime. -/
  | jobStop (role : Role)
  /-- JOB_ABORT, R695: An ABORT command starts the abort of the loaded job. -/
  | jobAbort (role : Role)
  /-- RUNTIME_END, R675: The runtime reports the job's end and the package closes it. -/
  | runtimeEnd
  /-- RDMA_CONNECT, R668: A CONNECT write opens a reliable-connection queue pair. -/
  | rdmaConnect (role : Role) (v : List Byte)
  /-- RDMA_CLOSE, R668: A CLOSE write closes a queue pair. -/
  | rdmaClose (role : Role) (v : BitVec 32)
  /-- KEY_WRITE, R669: A KEY_WRITE sets or clears a remote key table entry. -/
  | keyWrite (role : Role) (v : List Byte)
  /-- RDMA_WRITE, R669: An RDMA WRITE arrives and is performed if its key and tables permit. -/
  | rdmaWrite (qp : Nat) (key : BitVec 32) (off : BitVec 48) (ce : Bool) (bytes : List Byte)
  /-- RDMA_READ, R669: An RDMA READ arrives and is served if its key and tables permit. -/
  | rdmaRead (qp : Nat) (key : BitVec 32) (off : BitVec 48) (len : BitVec 32) (ce : Bool)
  /-- RDMA_SEND, R668: A SEND arrives into a posted receive buffer. -/
  | rdmaSend (qp : Nat) (key : BitVec 32) (off : BitVec 48) (ce : Bool) (bytes : List Byte)
  /-- CONGESTION_NOTIFICATION, R670: A congestion notification packet lowers a queue pair's rate by one eighth. -/
  | congestionNotification (qp : Nat)
  /-- RATE_RAISE, R670: After 55 µs without a notification a queue pair raises its rate. -/
  | rateRaise (qp : Nat)
  /-- PTP_MESSAGE, R667: A PTP event or general message is received and timestamped. -/
  | ptpMessage (p : MgmtPort) (m : PtpMsg)
  /-- HANG_CHECK, R689: At each hang window end each unit is checked and may be declared hung. -/
  | hangCheck
  /-- WINDOW_MS_WRITE, R719: A WINDOW_MS write takes effect at the next window boundary. -/
  | windowMsWrite (role : Role) (v : BitVec 32)
  /-- FAULT_RECORD_WRITE, R686: A store to W7 commits a fault record to both dies. -/
  | faultRecordWrite (w : Writer) (d : Die) (v : Word)
  /-- ABORT_NOW, R695: A write of 1 to ABORT_NOW starts an abort. -/
  | abortNow (w : Writer) (d : Die)
  /-- ABORT_SEND, R699: The abort engine sends the next ABORT, one every 2 ns. -/
  | abortSend
  /-- ABORT_JOB_ID_WRITE, R697: A write to the abort context's JOB_ID clears ABORTED and the counts. -/
  | abortJobIdWrite (w : Writer) (d : Die) (v : Word)
  /-- DUMP_START, R703: Once every core has halted, the dump engine starts collecting sections. -/
  | dumpStart
  /-- DUMP_READ_TIMEOUT, R704: A side-path read unanswered for 100 µs marks its section NO_RESPONSE. -/
  | dumpReadTimeout (i : Nat)
  /-- DUMP_END, R705: The dump ends when complete or 100 ms after its start. -/
  | dumpEnd (n : Nat)
  /-- DUMP_RELEASE, R706: A write to RELEASE frees the held dump. -/
  | dumpRelease (role : Role) (v : BitVec 8)
  /-- DUMP_EXPIRE, R706: 10 minutes after completion the held dump is released. -/
  | dumpExpire
  /-- LADDER_START, R708: The reset ladder starts with the largest first step once the dump is done. -/
  | ladderStart
  /-- LADDER_STEP_END, R707: A ladder step's end condition holds and the step ends. -/
  | ladderStepEnd
  /-- LADDER_STEP_TIMEOUT, R709: A step not ended within its timeout escalates to the enclosing domain. -/
  | ladderStepTimeout
  /-- LADDER_REQUEST, R724: A REQUEST write asks for a ladder step, or is refused. -/
  | ladderRequest (role : Role) (v : BitVec 32)
  /-- ENGINE_RESET, R199: An ENGINE_RST write resets the engine domains of named cores. -/
  | engineReset (r : BitVec 4) (hi : Bool) (v : Word)
  /-- CORE_RESET, R56: A CORE_RST write resets the core domains of named cores. -/
  | coreReset (r : BitVec 4) (hi : Bool) (v : Word)
  /-- REGION_RESET, R51: A REGION_RST write holds through-traffic and drains the region's routers. -/
  | regionReset (r : BitVec 4)
  /-- REGION_DRAIN_END, R51: After at most 10 µs of draining, remaining flits are discarded and the region reset. -/
  | regionDrainEnd (r : BitVec 4) (n : Nat)
  /-- PACKAGE_STEP_REQUEST, R712: 100 ms after MAIN_PG deassertion the package requests main power again. -/
  | packageStepRequest
  /-- REGULATOR_PHASE_LOSS, R680: A regulator phase is lost, corrected once and package-fatal twice. -/
  | regulatorPhaseLoss (rail : BitVec 8) (d : RailDomain)
  /-- REPLACEMENT_CLEAR, R723: An Owner write to CLEAR clears replacement reasons. -/
  | replacementClear (role : Role) (v : BitVec 32)
  /-- UPDATE_OPEN, R743: An Owner opens an update session, which may be refused. -/
  | updateOpen (role : Role) (type source : BitVec 8) (stage : BitVec 32)
  /-- UPDATE_ABORT, R743: An Owner aborts the update session, keeping its bitmap. -/
  | updateAbort (role : Role)
  /-- IMAGE_BLOCK_RECEIVE, R736: An image block arrives, is checked, written and read back. -/
  | imageBlockReceive (b : ImageBlock)
  /-- BLOCK_REQUEST_TIMEOUT, R739: A source unanswered for 100 ms is passed over for the block. -/
  | blockRequestTimeout
  /-- BLOCK_RETRY, R736: A block failed at every source is requested again every 10 s. -/
  | blockRetry
  /-- RECOVERY_RESEND, R741: A recovery request without a full answer is resent after 50 ms. -/
  | recoveryResend (block : Nat)
  /-- RIND_CONFIRM_TIMEOUT, R754: An unconfirmed RIND image missing its 120 s is replaced from the peer. -/
  | rindConfirmTimeout
  /-- ATTESTATION_NONCE, R761: A NONCE write makes the active controller build and sign a report. -/
  | attestationNonce (sid : Nat) (v : List Byte)
  /-- OWNER_LOCK_SET, R763: An Owner write of 1 to LOCKED sets the lock and stores LOCK_ANCHOR. -/
  | ownerLockSet (role : Role) (v : BitVec 8)
  /-- CLEAR_TOKEN, R764: A token written to CLEAR_TOKEN clears the owner lock if it verifies. -/
  | clearToken (role : Role) (v : List Byte)
  /-- UNIT_COUNTERS_CONFIG, R786: A CONFIG write programs port or HBM counters or is refused. -/
  | unitCountersConfig (role : Role) (v : List Byte)
  /-- REGISTER_WRITE, R21: A write to a register without its own row sets its writable fields. -/
  | registerWrite (w : Writer) (off : BitVec 48) (v mask : Word)
  /-- ILLEGAL_INSTRUCTION, R81: An undefined opcode, the all-zero word or an undefined FUNC, VFUNC or SUB value raises the illegal-instruction trap. -/
  | illegalInstruction (c : CoreId) (w : BitVec 32)
  /-- SCHEDULE_SLOT_START, R438: At the start of a schedule slot an idle port sends a Scheduled packet that was waiting for a slot its SCHED_ID owns. -/
  | scheduleSlotStart (p : BitVec 6)
  /-- EJECT_DEASSERT, R744: EJECT_N is deasserted, and paused update sessions and held flash program steps may resume. -/
  | ejectDeassert
  /-- REFCLK_RESTORE, R589: A lost reference clock becomes present again and is reported in LINES of object 0x9002. -/
  | refclkRestore (k : RefClk)
  /-- PPS_IN_PULSE, R434: A rising edge on PPS_IN marks the second, and the primary disciplines fabric time to it. -/
  | ppsInPulse
  /-- MGMT_PORT_DOWN, R652: An MGMT port loses its link, and its sessions move to the other port. -/
  | mgmtPortDown (p : MgmtPort)
  /-- MGMT_PORT_UP, R665: An MGMT port completes training and enters service. -/
  | mgmtPortUp (p : MgmtPort)
  /-- MGMT_PORT_OUTAGE, R722: One MGMT port has been out of service for 10 minutes while the other serves, and the replacement request is raised. -/
  | mgmtPortOutage (p : MgmtPort)
  /-- MGMT_FRAME, R666: A frame on an MGMT port that is ICMPv6 neighbour discovery or echo is answered, and any frame outside the allowed traffic is dropped and counted. -/
  | mgmtFrame (p : MgmtPort) (f : MgmtFrame)
  /-- RIND_UPDATE_HANDOVER, R752: After 30 s as a healthy standby, a newly written RIND image takes control through the handover. -/
  | rindUpdateHandover
  /-- RIND_IMAGE_CONFIRMED, R753: A new RIND image confirms after holding control, or being a healthy standby, for 30 s, and the second controller's update or the floor raise follows. -/
  | rindImageConfirmed
  /-- CYCLE_COUNT_OVERFLOW, R772: A counter of a cycle-based event, such as cycles in TWAIT or a port or HBM event, wraps and sets OVF and may raise interrupt 0x22. -/
  | cycleCountOverflow (u : CountUnit) (n : BitVec 3) (left : BitVec 48)
  /-- CORE_DEFECT_FOUND, R45: A core is found defective in service, is reported failed, held in reset and recorded in the field appendix. -/
  | coreDefectFound (row : BitVec 5) (col : Nat)
deriving DecidableEq, Repr

end Sys2Proof
end

