-- ==== Sys2Proof/Decode.lean ====
section
/-! DEFINITION. The encoding of the core instructions (02 Tables 2.1, 2.2, 2.13 to 2.18): an encoder and a decoder of
their 32-bit words. The rows of spec/opcode_table.json give no bits, so `decodeTableWord` reads no command from a
word. -/
namespace Sys2Proof

/-- The command that a word spells by the table's bits: none, since the table gives no row any bits. -/
def decodeTableWord (_nbits _w : Nat) : Option Instr := none

/-! ## Formats (R78) -/

def wordR (op : Nat) (rd rs1 rs2 : Reg) (f1 f2 f3 : Nat) : BitVec 32 :=
  BitVec.ofNat 6 op ++ rd ++ rs1 ++ rs2 ++ BitVec.ofNat 5 f1 ++ BitVec.ofNat 3 f2 ++ BitVec.ofNat 3 f3

def wordI (op : Nat) (rd rs1 : Reg) (imm : BitVec 16) : BitVec 32 := BitVec.ofNat 6 op ++ rd ++ rs1 ++ imm

def wordJ (op : Nat) (rd : Reg) (imm : BitVec 21) : BitVec 32 := BitVec.ofNat 6 op ++ rd ++ imm

def wordV (op : Nat) (vd vs1 vs2 vs3 : Reg) (vf : Nat) : BitVec 32 :=
  BitVec.ofNat 6 op ++ vd ++ vs1 ++ vs2 ++ vs3 ++ BitVec.ofNat 6 vf

def wordX (op : Nat) (rd rs1 rs2 : Reg) (imm : BitVec 8) (sub : Nat) : BitVec 32 :=
  BitVec.ofNat 6 op ++ rd ++ rs1 ++ rs2 ++ imm ++ BitVec.ofNat 3 sub

def FForm.bits : FForm → Nat
  | .s => 0
  | .d => 1

def LaneW.bits : LaneW → Nat
  | .b8 => 0
  | .b16 => 1
  | .b32 => 2
  | .b64 => 3

def LaneF.bits : LaneF → Nat
  | .s => 0
  | .d => 1
  | .bf => 2
  | .h => 3

def AmoSize.bits : AmoSize → Nat
  | .w => 2
  | .d => 3

def MxFmt.bits : MxFmt → Nat
  | .e2m1 => 0
  | .e3m2 => 1
  | .e2m3 => 2
  | .e4m3 => 3
  | .e5m2 => 4

/-- The word of a core instruction; none for a command that is no instruction. Fields that an instruction neither reads
nor writes are 0 (R798). -/
def encode : Instr → Option (BitVec 32)
  | .add _ rd rs1 rs2 => some (wordR 0x01 rd rs1 rs2 0 0 0)
  | .sub _ rd rs1 rs2 => some (wordR 0x01 rd rs1 rs2 1 0 0)
  | .and _ rd rs1 rs2 => some (wordR 0x01 rd rs1 rs2 2 0 0)
  | .or _ rd rs1 rs2 => some (wordR 0x01 rd rs1 rs2 3 0 0)
  | .xor _ rd rs1 rs2 => some (wordR 0x01 rd rs1 rs2 4 0 0)
  | .sll _ rd rs1 rs2 => some (wordR 0x01 rd rs1 rs2 5 0 0)
  | .srl _ rd rs1 rs2 => some (wordR 0x01 rd rs1 rs2 6 0 0)
  | .sra _ rd rs1 rs2 => some (wordR 0x01 rd rs1 rs2 7 0 0)
  | .slt _ rd rs1 rs2 => some (wordR 0x01 rd rs1 rs2 8 0 0)
  | .sltu _ rd rs1 rs2 => some (wordR 0x01 rd rs1 rs2 9 0 0)
  | .mul _ rd rs1 rs2 => some (wordR 0x01 rd rs1 rs2 10 0 0)
  | .mulh _ rd rs1 rs2 => some (wordR 0x01 rd rs1 rs2 11 0 0)
  | .mulhu _ rd rs1 rs2 => some (wordR 0x01 rd rs1 rs2 12 0 0)
  | .div _ rd rs1 rs2 => some (wordR 0x01 rd rs1 rs2 13 0 0)
  | .divu _ rd rs1 rs2 => some (wordR 0x01 rd rs1 rs2 14 0 0)
  | .rem _ rd rs1 rs2 => some (wordR 0x01 rd rs1 rs2 15 0 0)
  | .remu _ rd rs1 rs2 => some (wordR 0x01 rd rs1 rs2 16 0 0)
  | .addi _ rd rs1 imm => some (wordI 0x2 rd rs1 imm)
  | .andi _ rd rs1 imm => some (wordI 0x3 rd rs1 imm)
  | .ori _ rd rs1 imm => some (wordI 0x4 rd rs1 imm)
  | .xori _ rd rs1 imm => some (wordI 0x5 rd rs1 imm)
  | .slti _ rd rs1 imm => some (wordI 0x6 rd rs1 imm)
  | .slli _ rd rs1 amt => some (wordI 0x07 rd rs1 (BitVec.ofNat 2 0 ++ (0 : BitVec 8) ++ amt))
  | .srli _ rd rs1 amt => some (wordI 0x07 rd rs1 (BitVec.ofNat 2 1 ++ (0 : BitVec 8) ++ amt))
  | .srai _ rd rs1 amt => some (wordI 0x07 rd rs1 (BitVec.ofNat 2 2 ++ (0 : BitVec 8) ++ amt))
  | .lui _ rd imm => some (wordJ 0x08 rd imm)
  | .auipc _ rd imm => some (wordJ 0x09 rd imm)
  | .fadd _ f rd rs1 rs2 => some (wordR 0x0A rd rs1 rs2 0 0 f.bits)
  | .fsub _ f rd rs1 rs2 => some (wordR 0x0A rd rs1 rs2 1 0 f.bits)
  | .fmul _ f rd rs1 rs2 => some (wordR 0x0A rd rs1 rs2 2 0 f.bits)
  | .fdiv _ f rd rs1 rs2 => some (wordR 0x0A rd rs1 rs2 3 0 f.bits)
  | .fsqrt _ f rd rs1 rs2 => some (wordR 0x0A rd rs1 rs2 4 0 f.bits)
  | .fmin _ f rd rs1 rs2 => some (wordR 0x0A rd rs1 rs2 5 0 f.bits)
  | .fmax _ f rd rs1 rs2 => some (wordR 0x0A rd rs1 rs2 6 0 f.bits)
  | .fcmpEq _ f rd rs1 rs2 => some (wordR 0x0A rd rs1 rs2 7 0 f.bits)
  | .fcmpLt _ f rd rs1 rs2 => some (wordR 0x0A rd rs1 rs2 7 1 f.bits)
  | .fcmpLe _ f rd rs1 rs2 => some (wordR 0x0A rd rs1 rs2 7 2 f.bits)
  | .fcmpUn _ f rd rs1 rs2 => some (wordR 0x0A rd rs1 rs2 7 3 f.bits)
  | .fcvtToSigned _ f rd rs1 rs2 => some (wordR 0x0A rd rs1 rs2 8 0 f.bits)
  | .fcvtFromSigned _ f rd rs1 rs2 => some (wordR 0x0A rd rs1 rs2 8 1 f.bits)
  | .fcvtToUnsigned _ f rd rs1 rs2 => some (wordR 0x0A rd rs1 rs2 8 2 f.bits)
  | .fcvtFromUnsigned _ f rd rs1 rs2 => some (wordR 0x0A rd rs1 rs2 8 3 f.bits)
  | .fcvtBetweenFormats _ f rd rs1 rs2 => some (wordR 0x0A rd rs1 rs2 8 4 f.bits)
  | .fmvSgn _ f rd rs1 rs2 => some (wordR 0x0A rd rs1 rs2 9 0 f.bits)
  | .fmvNeg _ f rd rs1 rs2 => some (wordR 0x0A rd rs1 rs2 9 1 f.bits)
  | .fmvXor _ f rd rs1 rs2 => some (wordR 0x0A rd rs1 rs2 9 2 f.bits)
  | .fmadd _ f rd rs1 rs2 rs3 => some (wordV 0x0B rd rs1 rs2 rs3 (0 + f.bits))
  | .fmsub _ f rd rs1 rs2 rs3 => some (wordV 0x0B rd rs1 rs2 rs3 (2 + f.bits))
  | .lb _ rd rs1 imm => some (wordI 0x10 rd rs1 imm)
  | .lbu _ rd rs1 imm => some (wordI 0x11 rd rs1 imm)
  | .lh _ rd rs1 imm => some (wordI 0x12 rd rs1 imm)
  | .lhu _ rd rs1 imm => some (wordI 0x13 rd rs1 imm)
  | .lw _ rd rs1 imm => some (wordI 0x14 rd rs1 imm)
  | .lwu _ rd rs1 imm => some (wordI 0x15 rd rs1 imm)
  | .ld _ rd rs1 imm => some (wordI 0x16 rd rs1 imm)
  | .sb _ rs2 rs1 imm => some (wordI 0x18 rs2 rs1 imm)
  | .sh _ rs2 rs1 imm => some (wordI 0x19 rs2 rs1 imm)
  | .sw _ rs2 rs1 imm => some (wordI 0x1a rs2 rs1 imm)
  | .sd _ rs2 rs1 imm => some (wordI 0x1b rs2 rs1 imm)
  | .amoadd _ sz rd rs1 rs2 => some (wordR 0x1C rd rs1 rs2 0 0 sz.bits)
  | .amomin _ sz rd rs1 rs2 => some (wordR 0x1C rd rs1 rs2 1 0 sz.bits)
  | .amomax _ sz rd rs1 rs2 => some (wordR 0x1C rd rs1 rs2 2 0 sz.bits)
  | .amominu _ sz rd rs1 rs2 => some (wordR 0x1C rd rs1 rs2 3 0 sz.bits)
  | .amomaxu _ sz rd rs1 rs2 => some (wordR 0x1C rd rs1 rs2 4 0 sz.bits)
  | .amoswap _ sz rd rs1 rs2 => some (wordR 0x1C rd rs1 rs2 5 0 sz.bits)
  | .amocas _ sz rd rs1 rs2 => some (wordR 0x1C rd rs1 rs2 6 0 sz.bits)
  | .amofaddS _ rd rs1 rs2 => some (wordR 0x1C rd rs1 rs2 7 0 2)
  | .amofaddBf _ rd rs1 rs2 => some (wordR 0x1C rd rs1 rs2 8 0 1)
  | .beq _ rs1 rs2 off => some (wordI 0x20 rs1 rs2 off)
  | .bne _ rs1 rs2 off => some (wordI 0x21 rs1 rs2 off)
  | .blt _ rs1 rs2 off => some (wordI 0x22 rs1 rs2 off)
  | .bge _ rs1 rs2 off => some (wordI 0x23 rs1 rs2 off)
  | .bltu _ rs1 rs2 off => some (wordI 0x24 rs1 rs2 off)
  | .bgeu _ rs1 rs2 off => some (wordI 0x25 rs1 rs2 off)
  | .jal _ rd imm => some (wordJ 0x26 rd imm)
  | .jalr _ rd rs1 imm => some (wordI 0x27 rd rs1 imm)
  | .vadd _ w vd vs1 vs2 => some (wordV 0x28 vd vs1 vs2 0 (0 + w.bits))
  | .vsub _ w vd vs1 vs2 => some (wordV 0x28 vd vs1 vs2 0 (4 + w.bits))
  | .vmul _ w vd vs1 vs2 => some (wordV 0x28 vd vs1 vs2 0 (8 + w.bits))
  | .vmin _ w vd vs1 vs2 => some (wordV 0x28 vd vs1 vs2 0 (12 + w.bits))
  | .vmax _ w vd vs1 vs2 => some (wordV 0x28 vd vs1 vs2 0 (16 + w.bits))
  | .vminu _ w vd vs1 vs2 => some (wordV 0x28 vd vs1 vs2 0 (20 + w.bits))
  | .vmaxu _ w vd vs1 vs2 => some (wordV 0x28 vd vs1 vs2 0 (24 + w.bits))
  | .vand _ w vd vs1 vs2 => some (wordV 0x28 vd vs1 vs2 0 (28 + w.bits))
  | .vor _ w vd vs1 vs2 => some (wordV 0x28 vd vs1 vs2 0 (32 + w.bits))
  | .vxor _ w vd vs1 vs2 => some (wordV 0x28 vd vs1 vs2 0 (36 + w.bits))
  | .vsll _ w vd vs1 vs2 => some (wordV 0x28 vd vs1 vs2 0 (40 + w.bits))
  | .vsrl _ w vd vs1 vs2 => some (wordV 0x28 vd vs1 vs2 0 (44 + w.bits))
  | .vsra _ w vd vs1 vs2 => some (wordV 0x28 vd vs1 vs2 0 (48 + w.bits))
  | .vmla _ w vd vs1 vs2 vs3 => some (wordV 0x28 vd vs1 vs2 vs3 (52 + w.bits))
  | .vcmpeq _ w vd vs1 vs2 => some (wordV 0x28 vd vs1 vs2 0 (56 + w.bits))
  | .vcmplt _ w vd vs1 vs2 => some (wordV 0x28 vd vs1 vs2 0 (60 + w.bits))
  | .vfadd _ f vd vs1 vs2 => some (wordV 0x29 vd vs1 vs2 0 (0 + f.bits))
  | .vfsub _ f vd vs1 vs2 => some (wordV 0x29 vd vs1 vs2 0 (4 + f.bits))
  | .vfmul _ f vd vs1 vs2 => some (wordV 0x29 vd vs1 vs2 0 (8 + f.bits))
  | .vfdiv _ f vd vs1 vs2 => some (wordV 0x29 vd vs1 vs2 0 (12 + f.bits))
  | .vfsqrt _ f vd vs1 => some (wordV 0x29 vd vs1 0 0 (16 + f.bits))
  | .vfmin _ f vd vs1 vs2 => some (wordV 0x29 vd vs1 vs2 0 (20 + f.bits))
  | .vfmax _ f vd vs1 vs2 => some (wordV 0x29 vd vs1 vs2 0 (24 + f.bits))
  | .vfcmpeq _ f vd vs1 vs2 => some (wordV 0x29 vd vs1 vs2 0 (28 + f.bits))
  | .vfcmplt _ f vd vs1 vs2 => some (wordV 0x29 vd vs1 vs2 0 (32 + f.bits))
  | .vfcmple _ f vd vs1 vs2 => some (wordV 0x29 vd vs1 vs2 0 (36 + f.bits))
  | .vfma _ f vd vs1 vs2 vs3 => some (wordV 0x2A vd vs1 vs2 vs3 (0 + f.bits))
  | .vfms _ f vd vs1 vs2 vs3 => some (wordV 0x2A vd vs1 vs2 vs3 (4 + f.bits))
  | .vfnma _ f vd vs1 vs2 vs3 => some (wordV 0x2A vd vs1 vs2 vs3 (8 + f.bits))
  | .vld _ vd rs1 => some (wordV 0x2B vd rs1 0 0 0)
  | .vst _ vd rs1 => some (wordV 0x2C vd rs1 0 0 0)
  | .vrsumS _ vd vs1 => some (wordV 0x2D vd vs1 0 0 0x0)
  | .vrsumD _ vd vs1 => some (wordV 0x2D vd vs1 0 0 0x1)
  | .vrmaxS _ vd vs1 => some (wordV 0x2D vd vs1 0 0 0x2)
  | .vrminS _ vd vs1 => some (wordV 0x2D vd vs1 0 0 0x3)
  | .vrmaxD _ vd vs1 => some (wordV 0x2D vd vs1 0 0 0x4)
  | .vrminD _ vd vs1 => some (wordV 0x2D vd vs1 0 0 0x5)
  | .vrsumW _ vd vs1 => some (wordV 0x2D vd vs1 0 0 0x6)
  | .vrsumL _ vd vs1 => some (wordV 0x2D vd vs1 0 0 0x7)
  | .vpermB _ vd vs1 vs2 => some (wordV 0x2D vd vs1 vs2 0 0x10)
  | .vinsD _ vd rs1 vs3 => some (wordV 0x2D vd rs1 0 vs3 0x18)
  | .vextD _ rd vs2 vs3 => some (wordV 0x2D rd 0 vs2 vs3 0x19)
  | .vbcastD _ vd rs1 => some (wordV 0x2D vd rs1 0 0 0x1A)
  | .vbcastW _ vd rs1 => some (wordV 0x2D vd rs1 0 0 0x1B)
  | .vcvtBfS _ tz vd vs1 => some (wordV 0x2D vd vs1 0 0 (0x20 + tz.toNat))
  | .vcvtHS _ tz vd vs1 => some (wordV 0x2D vd vs1 0 0 (0x22 + tz.toNat))
  | .vcvtE4S _ tz vd vs1 => some (wordV 0x2D vd vs1 0 0 (0x24 + tz.toNat))
  | .vcvtE5S _ tz vd vs1 => some (wordV 0x2D vd vs1 0 0 (0x26 + tz.toNat))
  | .vcvtWS _ vd vs1 => some (wordV 0x2D vd vs1 0 0 0x28)
  | .vcvtLD _ vd vs1 => some (wordV 0x2D vd vs1 0 0 0x29)
  | .vcvtSW _ vd vs1 => some (wordV 0x2D vd vs1 0 0 0x2a)
  | .vcvtDL _ vd vs1 => some (wordV 0x2D vd vs1 0 0 0x2b)
  | .vcvtSBf _ vd vs1 => some (wordV 0x2D vd vs1 0 0 0x2c)
  | .vcvtSH _ vd vs1 => some (wordV 0x2D vd vs1 0 0 0x2d)
  | .vcvtDS _ vd vs1 => some (wordV 0x2D vd vs1 0 0 0x2e)
  | .vcvtSD _ vd vs1 => some (wordV 0x2D vd vs1 0 0 0x2f)
  | .vcvtMx _ fmt vd vs1 => some (wordV 0x2D vd vs1 0 0 (0x30 + fmt.bits))
  | .fenceLocal _ => some (wordX 0x30 0 0 0 0 0)
  | .fenceChip _ => some (wordX 0x30 0 0 0 0 1)
  | .fenceFabric _ => some (wordX 0x30 0 0 0 0 2)
  | .cflushRange _ rs1 rs2 => some (wordX 0x31 0 rs1 rs2 0 0)
  | .cinvRange _ rs1 rs2 => some (wordX 0x31 0 rs1 rs2 0 1)
  | .acqinv _ rs1 rs2 => some (wordX 0x31 0 rs1 rs2 0 2)
  | .msend _ rs1 rs2 imm => some (wordX 0x32 0 rs1 rs2 imm 0)
  | .mrecv _ rd imm => some (wordX 0x32 rd 0 0 imm 1)
  | .psub _ rd rs1 => some (wordX 0x33 rd rs1 0 0 0)
  | .lsub _ rd rs1 => some (wordX 0x33 rd rs1 0 0 1)
  | .tinc _ rs1 rs2 => some (wordX 0x34 0 rs1 rs2 0 0)
  | .tincL _ rs2 imm => some (wordX 0x34 0 0 rs2 imm 1)
  | .twait _ rd rs1 rs2 imm => some (wordX 0x34 rd rs1 rs2 imm 2)
  | .tread _ rd imm => some (wordX 0x34 rd 0 0 imm 3)
  | .barrier _ rs1 => some (wordX 0x35 0 rs1 0 0 0)
  | .phase _ rs1 => some (wordX 0x36 0 rs1 0 0 0)
  | .rdsr _ rd imm => some (wordX 0x37 rd 0 0 imm 0)
  | .wrsr _ rs1 imm => some (wordX 0x37 0 rs1 0 imm 1)
  | .rdcnt _ rd imm => some (wordX 0x37 rd 0 0 imm 2)
  | .wrcnt _ rs1 imm => some (wordX 0x37 0 rs1 0 imm 3)
  | .wfi _ => some (wordX 0x38 0 0 0 0 0)
  | .trap _ imm => some (wordX 0x38 0 0 0 imm 1)
  | .tret _ => some (wordX 0x38 0 0 0 0 2)
  | _ => none

/-! ## The decoder -/

def fldOp (w : BitVec 32) : Nat := (w.extractLsb' 26 6).toNat
def fldA (w : BitVec 32) : Reg := w.extractLsb' 21 5
def fldB (w : BitVec 32) : Reg := w.extractLsb' 16 5
def fldC (w : BitVec 32) : Reg := w.extractLsb' 11 5
def fldD (w : BitVec 32) : Reg := w.extractLsb' 6 5
def fldImm16 (w : BitVec 32) : BitVec 16 := w.extractLsb' 0 16
def fldImm21 (w : BitVec 32) : BitVec 21 := w.extractLsb' 0 21
def fldImm8 (w : BitVec 32) : BitVec 8 := w.extractLsb' 3 8
def fldF1 (w : BitVec 32) : Nat := (w.extractLsb' 6 5).toNat
def fldF2 (w : BitVec 32) : Nat := (w.extractLsb' 3 3).toNat
def fldF3 (w : BitVec 32) : Nat := (w.extractLsb' 0 3).toNat
def fldVf (w : BitVec 32) : Nat := (w.extractLsb' 0 6).toNat

def formOf : Nat → Option FForm
  | 0 => some .s
  | 1 => some .d
  | _ => none

def laneWOf : Nat → LaneW
  | 0 => .b8
  | 1 => .b16
  | 2 => .b32
  | _ => .b64

def laneFOf : Nat → LaneF
  | 0 => .s
  | 1 => .d
  | 2 => .bf
  | _ => .h

def amoSizeOf : Nat → Option AmoSize
  | 2 => some .w
  | 3 => some .d
  | _ => none

/-- Opcode 0x01 (R790). -/
def decode01 (c : CoreId) (rd rs1 rs2 : Reg) (f1 f2 f3 : Nat) : Option Instr :=
  if f2 ≠ 0 ∨ f3 ≠ 0 then none
  else match f1 with
    | 0 => some (.add c rd rs1 rs2)
    | 1 => some (.sub c rd rs1 rs2)
    | 2 => some (.and c rd rs1 rs2)
    | 3 => some (.or c rd rs1 rs2)
    | 4 => some (.xor c rd rs1 rs2)
    | 5 => some (.sll c rd rs1 rs2)
    | 6 => some (.srl c rd rs1 rs2)
    | 7 => some (.sra c rd rs1 rs2)
    | 8 => some (.slt c rd rs1 rs2)
    | 9 => some (.sltu c rd rs1 rs2)
    | 10 => some (.mul c rd rs1 rs2)
    | 11 => some (.mulh c rd rs1 rs2)
    | 12 => some (.mulhu c rd rs1 rs2)
    | 13 => some (.div c rd rs1 rs2)
    | 14 => some (.divu c rd rs1 rs2)
    | 15 => some (.rem c rd rs1 rs2)
    | 16 => some (.remu c rd rs1 rs2)
    | _ => none

/-- Opcode 0x07 (R798). -/
def decode07 (c : CoreId) (rd rs1 : Reg) (imm : BitVec 16) : Option Instr :=
  if (imm.extractLsb' 6 8) ≠ 0 then none
  else match (imm.extractLsb' 14 2).toNat with
    | 0 => some (.slli c rd rs1 (imm.extractLsb' 0 6))
    | 1 => some (.srli c rd rs1 (imm.extractLsb' 0 6))
    | 2 => some (.srai c rd rs1 (imm.extractLsb' 0 6))
    | _ => none

/-- Opcode 0x0A (R792). -/
def decode0A (c : CoreId) (rd rs1 rs2 : Reg) (f1 f2 f3 : Nat) : Option Instr :=
  match formOf f3, f1, f2 with
  | some f, 0, 0 => some (.fadd c f rd rs1 rs2)
  | some f, 1, 0 => some (.fsub c f rd rs1 rs2)
  | some f, 2, 0 => some (.fmul c f rd rs1 rs2)
  | some f, 3, 0 => some (.fdiv c f rd rs1 rs2)
  | some f, 4, 0 => some (.fsqrt c f rd rs1 rs2)
  | some f, 5, 0 => some (.fmin c f rd rs1 rs2)
  | some f, 6, 0 => some (.fmax c f rd rs1 rs2)
  | some f, 7, 0 => some (.fcmpEq c f rd rs1 rs2)
  | some f, 7, 1 => some (.fcmpLt c f rd rs1 rs2)
  | some f, 7, 2 => some (.fcmpLe c f rd rs1 rs2)
  | some f, 7, 3 => some (.fcmpUn c f rd rs1 rs2)
  | some f, 8, 0 => some (.fcvtToSigned c f rd rs1 rs2)
  | some f, 8, 1 => some (.fcvtFromSigned c f rd rs1 rs2)
  | some f, 8, 2 => some (.fcvtToUnsigned c f rd rs1 rs2)
  | some f, 8, 3 => some (.fcvtFromUnsigned c f rd rs1 rs2)
  | some f, 8, 4 => some (.fcvtBetweenFormats c f rd rs1 rs2)
  | some f, 9, 0 => some (.fmvSgn c f rd rs1 rs2)
  | some f, 9, 1 => some (.fmvNeg c f rd rs1 rs2)
  | some f, 9, 2 => some (.fmvXor c f rd rs1 rs2)
  | _, _, _ => none

/-- Opcode 0x0B (R793). -/
def decode0B (c : CoreId) (rd rs1 rs2 rs3 : Reg) (vf : Nat) : Option Instr :=
  match formOf (vf % 2), vf / 2 with
  | some f, 0 => some (.fmadd c f rd rs1 rs2 rs3)
  | some f, 1 => some (.fmsub c f rd rs1 rs2 rs3)
  | _, _ => none

/-- Opcode 0x1C (R791). -/
def decode1C (c : CoreId) (rd rs1 rs2 : Reg) (f1 f2 f3 : Nat) : Option Instr :=
  if f2 ≠ 0 then none
  else match f1, amoSizeOf f3 with
    | 0, some sz => some (.amoadd c sz rd rs1 rs2)
    | 1, some sz => some (.amomin c sz rd rs1 rs2)
    | 2, some sz => some (.amomax c sz rd rs1 rs2)
    | 3, some sz => some (.amominu c sz rd rs1 rs2)
    | 4, some sz => some (.amomaxu c sz rd rs1 rs2)
    | 5, some sz => some (.amoswap c sz rd rs1 rs2)
    | 6, some sz => some (.amocas c sz rd rs1 rs2)
    | 7, _ => if f3 = 2 then some (.amofaddS c rd rs1 rs2) else none
    | 8, _ => if f3 = 1 then some (.amofaddBf c rd rs1 rs2) else none
    | _, _ => none

/-- Opcode 0x28 (R794). -/
def decode28 (c : CoreId) (vd vs1 vs2 vs3 : Reg) (vf : Nat) : Option Instr :=
  let w := laneWOf (vf % 4)
  match vf / 4 with
  | 0 => some (.vadd c w vd vs1 vs2)
  | 1 => some (.vsub c w vd vs1 vs2)
  | 2 => some (.vmul c w vd vs1 vs2)
  | 3 => some (.vmin c w vd vs1 vs2)
  | 4 => some (.vmax c w vd vs1 vs2)
  | 5 => some (.vminu c w vd vs1 vs2)
  | 6 => some (.vmaxu c w vd vs1 vs2)
  | 7 => some (.vand c w vd vs1 vs2)
  | 8 => some (.vor c w vd vs1 vs2)
  | 9 => some (.vxor c w vd vs1 vs2)
  | 10 => some (.vsll c w vd vs1 vs2)
  | 11 => some (.vsrl c w vd vs1 vs2)
  | 12 => some (.vsra c w vd vs1 vs2)
  | 13 => some (.vmla c w vd vs1 vs2 vs3)
  | 14 => some (.vcmpeq c w vd vs1 vs2)
  | 15 => some (.vcmplt c w vd vs1 vs2)
  | _ => none

/-- Opcode 0x29 (R795). -/
def decode29 (c : CoreId) (vd vs1 vs2 : Reg) (vf : Nat) : Option Instr :=
  let f := laneFOf (vf % 4)
  match vf / 4 with
  | 0 => some (.vfadd c f vd vs1 vs2)
  | 1 => some (.vfsub c f vd vs1 vs2)
  | 2 => some (.vfmul c f vd vs1 vs2)
  | 3 => some (.vfdiv c f vd vs1 vs2)
  | 4 => some (.vfsqrt c f vd vs1)
  | 5 => some (.vfmin c f vd vs1 vs2)
  | 6 => some (.vfmax c f vd vs1 vs2)
  | 7 => some (.vfcmpeq c f vd vs1 vs2)
  | 8 => some (.vfcmplt c f vd vs1 vs2)
  | 9 => some (.vfcmple c f vd vs1 vs2)
  | _ => none

/-- Opcode 0x2A (R796). -/
def decode2A (c : CoreId) (vd vs1 vs2 vs3 : Reg) (vf : Nat) : Option Instr :=
  let f := laneFOf (vf % 4)
  match vf / 4 with
  | 0 => some (.vfma c f vd vs1 vs2 vs3)
  | 1 => some (.vfms c f vd vs1 vs2 vs3)
  | 2 => some (.vfnma c f vd vs1 vs2 vs3)
  | _ => none

/-- Opcode 0x2D (R797); VCVT.MX needs an even VS1. -/
def decode2D (c : CoreId) (vd vs1 vs2 vs3 : Reg) (vf : Nat) : Option Instr :=
  match vf with
  | 0x0 => some (.vrsumS c vd vs1)
  | 0x1 => some (.vrsumD c vd vs1)
  | 0x2 => some (.vrmaxS c vd vs1)
  | 0x3 => some (.vrminS c vd vs1)
  | 0x4 => some (.vrmaxD c vd vs1)
  | 0x5 => some (.vrminD c vd vs1)
  | 0x6 => some (.vrsumW c vd vs1)
  | 0x7 => some (.vrsumL c vd vs1)
  | 0x10 => some (.vpermB c vd vs1 vs2)
  | 0x18 => some (.vinsD c vd vs1 vs3)
  | 0x19 => some (.vextD c vd vs2 vs3)
  | 0x1a => some (.vbcastD c vd vs1)
  | 0x1b => some (.vbcastW c vd vs1)
  | 0x20 => some (.vcvtBfS c false vd vs1)
  | 0x21 => some (.vcvtBfS c true vd vs1)
  | 0x22 => some (.vcvtHS c false vd vs1)
  | 0x23 => some (.vcvtHS c true vd vs1)
  | 0x24 => some (.vcvtE4S c false vd vs1)
  | 0x25 => some (.vcvtE4S c true vd vs1)
  | 0x26 => some (.vcvtE5S c false vd vs1)
  | 0x27 => some (.vcvtE5S c true vd vs1)
  | 0x28 => some (.vcvtWS c vd vs1)
  | 0x29 => some (.vcvtLD c vd vs1)
  | 0x2a => some (.vcvtSW c vd vs1)
  | 0x2b => some (.vcvtDL c vd vs1)
  | 0x2c => some (.vcvtSBf c vd vs1)
  | 0x2d => some (.vcvtSH c vd vs1)
  | 0x2e => some (.vcvtDS c vd vs1)
  | 0x2f => some (.vcvtSD c vd vs1)
  | 0x30 => if vs1.getLsbD 0 then none else some (.vcvtMx c .e2m1 vd vs1)
  | 0x31 => if vs1.getLsbD 0 then none else some (.vcvtMx c .e3m2 vd vs1)
  | 0x32 => if vs1.getLsbD 0 then none else some (.vcvtMx c .e2m3 vd vs1)
  | 0x33 => if vs1.getLsbD 0 then none else some (.vcvtMx c .e4m3 vd vs1)
  | 0x34 => if vs1.getLsbD 0 then none else some (.vcvtMx c .e5m2 vd vs1)
  | _ => none

/-- The X format, opcodes 0x30 to 0x38 (Table 2.2). -/
def decodeX (c : CoreId) (op : Nat) (rd rs1 rs2 : Reg) (imm : BitVec 8) (sub : Nat) : Option Instr :=
  match op, sub with
  | 0x30, 0 => some (.fenceLocal c)
  | 0x30, 1 => some (.fenceChip c)
  | 0x30, 2 => some (.fenceFabric c)
  | 0x31, 0 => some (.cflushRange c rs1 rs2)
  | 0x31, 1 => some (.cinvRange c rs1 rs2)
  | 0x31, 2 => some (.acqinv c rs1 rs2)
  | 0x32, 0 => some (.msend c rs1 rs2 imm)
  | 0x32, 1 => some (.mrecv c rd imm)
  | 0x33, 0 => some (.psub c rd rs1)
  | 0x33, 1 => some (.lsub c rd rs1)
  | 0x34, 0 => some (.tinc c rs1 rs2)
  | 0x34, 1 => some (.tincL c rs2 imm)
  | 0x34, 2 => some (.twait c rd rs1 rs2 imm)
  | 0x34, 3 => some (.tread c rd imm)
  | 0x35, 0 => some (.barrier c rs1)
  | 0x36, 0 => some (.phase c rs1)
  | 0x37, 0 => some (.rdsr c rd imm)
  | 0x37, 1 => some (.wrsr c rs1 imm)
  | 0x37, 2 => some (.rdcnt c rd imm)
  | 0x37, 3 => some (.wrcnt c rs1 imm)
  | 0x38, 0 => some (.wfi c)
  | 0x38, 1 => some (.trap c imm)
  | 0x38, 2 => some (.tret c)
  | _, _ => none

/-- The core instruction that a word spells at core `c`; none where R81 raises the illegal-instruction trap. -/
def decodeWord (c : CoreId) (w : BitVec 32) : Option Instr :=
  let a := fldA w
  let b := fldB w
  let d := fldC w
  let e := fldD w
  match fldOp w with
  | 0x01 => decode01 c a b d (fldF1 w) (fldF2 w) (fldF3 w)
  | 0x2 => some (.addi c a b (fldImm16 w))
  | 0x3 => some (.andi c a b (fldImm16 w))
  | 0x4 => some (.ori c a b (fldImm16 w))
  | 0x5 => some (.xori c a b (fldImm16 w))
  | 0x6 => some (.slti c a b (fldImm16 w))
  | 0x07 => decode07 c a b (fldImm16 w)
  | 0x08 => some (.lui c a (fldImm21 w))
  | 0x09 => some (.auipc c a (fldImm21 w))
  | 0x0A => decode0A c a b d (fldF1 w) (fldF2 w) (fldF3 w)
  | 0x0B => decode0B c a b d e (fldVf w)
  | 0x10 => some (.lb c a b (fldImm16 w))
  | 0x11 => some (.lbu c a b (fldImm16 w))
  | 0x12 => some (.lh c a b (fldImm16 w))
  | 0x13 => some (.lhu c a b (fldImm16 w))
  | 0x14 => some (.lw c a b (fldImm16 w))
  | 0x15 => some (.lwu c a b (fldImm16 w))
  | 0x16 => some (.ld c a b (fldImm16 w))
  | 0x18 => some (.sb c a b (fldImm16 w))
  | 0x19 => some (.sh c a b (fldImm16 w))
  | 0x1a => some (.sw c a b (fldImm16 w))
  | 0x1b => some (.sd c a b (fldImm16 w))
  | 0x1C => decode1C c a b d (fldF1 w) (fldF2 w) (fldF3 w)
  | 0x20 => some (.beq c a b (fldImm16 w))
  | 0x21 => some (.bne c a b (fldImm16 w))
  | 0x22 => some (.blt c a b (fldImm16 w))
  | 0x23 => some (.bge c a b (fldImm16 w))
  | 0x24 => some (.bltu c a b (fldImm16 w))
  | 0x25 => some (.bgeu c a b (fldImm16 w))
  | 0x26 => some (.jal c a (fldImm21 w))
  | 0x27 => some (.jalr c a b (fldImm16 w))
  | 0x28 => decode28 c a b d e (fldVf w)
  | 0x29 => decode29 c a b d (fldVf w)
  | 0x2A => decode2A c a b d e (fldVf w)
  | 0x2B => if fldVf w = 0 then some (.vld c a b) else none
  | 0x2C => if fldVf w = 0 then some (.vst c a b) else none
  | 0x2D => decode2D c a b d e (fldVf w)
  | op => decodeX c op a b d (fldImm8 w) (fldF3 w)

end Sys2Proof
end

