-- ==== Sys2Proof/Config.lean ====
section
/-! DEFINITION. What the spec leaves open and one implementation fixes: values without a body, so that no proof can
see them (the log entries name each). A fresh value is drawn by applying one of them to `State.freeCount`. -/
namespace Sys2Proof

/-- A free natural number: the way that cache replacement picks (02 R98), orders left open. -/
opaque Config.freeNat : Nat → Nat

/-- Memory cells that are upset as the clock reaches a time (16 R678): the place (0 for a Vat or HBM, a core's number plus 1 for its data
cache), the 8-byte word by its address, and how many of its bits, or of the symbols of its codeword. -/
opaque Config.cellUpsets : Nat → List (Nat × Nat × Nat)

/-- A free byte: contents that the spec calls undefined. -/
opaque Config.freeByte : Nat → BitVec 8

/-- A free vector word: the element bits of an MX block whose scale is NaN (04 R246). -/
opaque Config.freeVec : Nat → BitVec 512

/-- SHA-384 and SHA-256 of bytes (17). -/
opaque Config.sha384 : List (BitVec 8) → List (BitVec 8)
opaque Config.sha256 : List (BitVec 8) → List (BitVec 8)

/-- Whether an Ed25519 or ML-DSA-65 signature over a digest verifies under a key or certificate (17 R731). -/
opaque Config.ed25519Ok : List (BitVec 8) → List (BitVec 8) → List (BitVec 8) → Bool
opaque Config.mldsaOk : List (BitVec 8) → List (BitVec 8) → List (BitVec 8) → Bool

/-- The signatures of an island over a digest (17 R762). -/
opaque Config.signEd25519 : Nat → List (BitVec 8) → List (BitVec 8)
opaque Config.signMldsa : Nat → List (BitVec 8) → List (BitVec 8)

/-- The public keys held in the boot ROMs: image keys, factory keys (17 R731). -/
opaque Config.imageKeys : List (BitVec 8)
opaque Config.factoryKeys : List (BitVec 8)

/-- Whether a certificate names the Owner role, and whether it chains to an anchor of the given SHA-384 (17 R764). -/
opaque Config.namesOwner : List (BitVec 8) → Bool
opaque Config.chainsTo : List (BitVec 8) → List (BitVec 8) → Bool

/-- The bytes of the governing copy of the part record, by all that it holds: the spec gives them no layout (01 Table 1.7). -/
opaque Config.partRecord : List Nat → List (BitVec 8)

/-- The bytes of a field appendix that an island signs, by its entries: the spec gives them no layout (01 Table 1.6). -/
opaque Config.appendixBytes : List Nat → List (BitVec 8)

/-- What the body of a PART image says, by the place of the value in the model's part record: the spec gives the body no layout
(17 R747). -/
opaque Config.partField : List (BitVec 8) → Nat → List Nat

/-- The rail voltage in mV that a calibration gives a region at a clock in MHz (11 R506). -/
opaque Config.railMv : List (BitVec 8) → Nat → Nat → BitVec 16

/-- The type codes of READ_MULTI, by the type's place in 15 Table 15.5: the spec names none. -/
opaque Config.typeCode : Nat → BitVec 8

end Sys2Proof
end

