-- ==== Sys2Proof/Machine/State.lean ====
section
/-! DEFINITION. The state of the package as plain data: every register, queue, buffer, counter, mode and pin that the
spec gives it, the queue of waiting commands, and the state after reset. Each structure's docstring names the
chapter of spec/ and the rule or table that gives its fields. -/
namespace Sys2Proof.Machine

/-- Why a step stops with a fault. No command of the table stops the package (16 R677: every error is handled by the
package itself), so no meaning raises one. -/
inductive Fault where
  /-- Raised by no meaning; kept so that the type is inhabited. Safe: it allows nothing. -/
  | none
deriving DecidableEq, Repr

/-- Why a command has no meaning. -/
inductive Refusal where
  /-- The command's meaning is not written yet; raised by `exec` alone, and by no arm of the finished model. Safe. -/
  | notModelled (mnemonic : String)
deriving DecidableEq, Repr

/-- A sparse table: keys strictly rising, and no entry equal to the value that an unlisted key reads as. -/
abbrev Tab (α : Type) := List (Nat × α)

/-- The bytes of the Vats and of HBM by chip offset (01 R66), in the one canonical form of a table whose unlisted
bytes read as 0. -/
abbrev Memory := List Host.Cell

/-- The two modes of a core (02 R75). -/
inductive Mode where
  | job
  | runtime
deriving DecidableEq, Repr

/-- Why the core does not issue (16 Table 16.6, SH_STALL), with what the stalled instruction waits for. -/
inductive Stall where
  | none
  | twait (rd : Reg) (tally : BitVec 6) (target : BitVec 32) (deadline : Option Nat)
  | barrier (ctx : Nat) (gen : BitVec 32)
  | loadOrFence
  /-- An ACQINV that has not retired: no younger load issues, speculatively or otherwise (02 R107). -/
  | acqinv
  /-- A BARRIER that has not arrived, since what FENCE.CHIP waits for is not done: no younger instruction issues, speculatively or
  otherwise (05 R272). -/
  | barrierFence
  | pressFull
  | ladleFull
  | msend
  | wfi
deriving DecidableEq, Repr

/-- An entry of a region attribute table or of an inbound table (02 Tables 2.4, 2.5). -/
structure RatEntry where
  base : Word
  limit : Word
deriving DecidableEq, Repr

/-- The integer and floating-point atomics (02 Table 2.14). -/
inductive AmoOp where
  | add
  | min
  | max
  | minu
  | maxu
  | swap
  | cas
  | faddS
  | faddBf
deriving DecidableEq, Repr

/-- What an access in flight does when its data returns. -/
inductive MemKind where
  /-- A scalar load of `len` bytes into `rd`, sign-extended or not. -/
  | load (rd : Reg) (signed : Bool)
  | vload (vd : Reg)
  | store
  /-- An atomic: its operand, the value AMOCAS compares with, and the register that takes the old value. -/
  | amo (op : AmoOp) (rd : Reg) (operand compare : Word)
deriving DecidableEq, Repr

/-- One single-copy atomic part of an access (05 Table 5.3): where it lies in the access, whether it goes through the
data cache, and whether it has been performed. -/
structure MemPart where
  rel : Nat
  len : Nat
  cached : Bool
  performed : Bool
deriving DecidableEq, Repr

/-- An access in flight (02 R148, 05 R268): the data it stores, or has loaded so far, one byte each, and whether any
word that it read carries poison. -/
structure MemOp where
  id : Nat
  kind : MemKind
  pc : Word
  addr : Word
  off : Nat
  len : Nat
  parts : List MemPart
  bytes : List Byte
  poisoned : Bool
deriving DecidableEq, Repr

/-- A data-cache line: its bytes, the per-byte dirty mask (05 R254) and the poison mark of each 8-byte word. -/
structure CLine where
  data : VWord
  dirty : BitVec 64
  poison : BitVec 8
deriving DecidableEq, Repr

/-- A line fill in flight (02 R789): whether it is speculative, and what the home held when it read. -/
structure Fill where
  line : Nat
  speculative : Bool
  read : Option (VWord × BitVec 8)
deriving DecidableEq, Repr

/-- A register that waits for poisoned data (02 R802). -/
inductive RegRef where
  | g (r : Reg)
  | v (r : Reg)
deriving DecidableEq, Repr

/-- Poisoned data that has reached the core and whose trap has not been taken (02 R802): the address or queue number,
and the register that holds the poisoned value. -/
structure PoisonHit where
  addr : Word
  reg : Option RegRef
deriving DecidableEq, Repr

/-- A Ladle error record (02 Table 2.19). -/
structure LadleErr where
  sub : BitVec 16
  tag : BitVec 16
  flowErr : BitVec 8
  cause : BitVec 8
  addr : Word
deriving DecidableEq, Repr

/-- A queued Press command: its four descriptor words and its submission number (03 R160, R166). -/
structure PressCmd where
  w0 : Word
  w1 : Word
  w2 : Word
  w3 : Word
  sub : BitVec 16
deriving DecidableEq, Repr

/-- One line of D that a running command has still to write (03 R178): the Vat line, the data, the byte mask, and
whether its tile is poisoned. -/
structure PressLine where
  line : Nat
  data : VWord
  mask : BitVec 64
  poison : Bool
deriving DecidableEq, Repr

/-- A stochastic stream in use (04 R222): its state, and the high half of the last draw while that is still to be used. -/
structure Draws where
  state : Word
  half : Option Nat
deriving DecidableEq, Repr

/-- A Press command that has started and has not completed (03 R174, R183-R192). `cause` is 0 for a command without
error, `noRecord` marks R191. Times are in array cycles of the region's count. The command works on tile `tile`: after
`wait` cycles its period begins, which lasts until `steps` of `need` cycles of k-step work have issued and the side port
has spent `side` more cycles, and then `gap` cycles more (R184). `fallback` tells that the tile runs in four-pass mode,
`written` that its lines stand in `lines`. `arrayEnd` is when the last period ended, `moved` what the progress counter gained from tiles
that are past (R202), `throttle` the cycles that the level withheld (Table 3.8), `draws` the stream from here on. -/
structure PressRun where
  cmd : PressCmd
  cause : Nat
  noRecord : Bool
  startCycle : Nat
  tile : Nat
  wait : Nat
  steps : Nat
  need : Nat
  side : Nat
  gap : Nat
  fallback : Bool
  written : Bool
  arrayEnd : Nat
  moved : Nat
  throttle : Nat
  draws : Draws
  lines : List PressLine
  satCount : Nat
  nanOut : Bool
  infOut : Bool
  fallbackTiles : Nat
  poisonMap : BitVec 256
deriving DecidableEq, Repr

/-- A queued Ladle descriptor: its eight words and its submission number (02 R125, R122). -/
structure LadleDesc where
  w : List Word
  sub : BitVec 16
deriving DecidableEq, Repr

/-- What carries a Ladle transaction: the homes of this chip, or a packet of a flow with its sequence (02 R148). -/
inductive TxPath where
  | onChip
  | write (flow : Nat) (seq : BitVec 32)
  | read (flow : Nat) (seq : BitVec 32)
  | tally (flow : Nat) (seq : BitVec 32)
  /-- A write on a flow that has ended: no acknowledgement of it will come (02 R113, R808). -/
  | lost
deriving DecidableEq, Repr

/-- One transaction of a Ladle descriptor, issued and not yet performed or acknowledged (02 R148). -/
structure LadleTx where
  id : Nat
  sub : BitVec 16
  entry : Nat
  src : Word
  dst : Word
  len : Nat
  path : TxPath
  acked : Bool
  /-- The lines of its source that have been read, and the bytes of its destination line that have been written, ahead of the rest
  (05 R258, R259). -/
  early : Tab (List (Byte × Bool)) := []
  landed : BitVec 64 := 0
deriving DecidableEq, Repr

/-- One destination of a descriptor: the descriptor's own for COPY and FILL, one list entry for LIST (02 R127, 06
R326): its base, the word that holds RT_EN, RT_ID, RT_CORE and RT_ADD, its flow, and whether all its transactions
have been issued and its destination increment made or sent. -/
structure LadleEnt where
  idx : Nat
  dst : Word
  rt : Word
  flow : Nat
  issued : Bool
  rtDone : Bool
deriving DecidableEq, Repr

/-- A descriptor that the Ladle has taken from the head of its queue: its destinations so far, the row and the byte of
the row that the next transaction starts at, and whether every transaction has been issued. -/
structure LadleRun where
  desc : LadleDesc
  ents : List LadleEnt
  row : Nat
  off : Nat
  issuedAll : Bool
  /-- The lines of the source of its next transaction that have been read ahead of the rest (05 R258). -/
  early : Tab (List (Byte × Bool)) := []
deriving DecidableEq, Repr

/-- A message that is leaving a core (02 R137) or waits in a receiving I/O die (06 R293): its number at the sender, the
sender, the destination core and queue, its words with poison marks, and whether a queue has admitted it. -/
structure OutMsg where
  id : Nat
  srcChip : BitVec 16
  srcCore : CoreId
  dst : Word
  words : List (Word × Bool)
  admitted : Bool
deriving DecidableEq, Repr

/-- A stored queue word (06 Table 6.1) with what MRECV_TAGS needs. -/
structure QWord where
  data : Word
  poison : Bool
  first : Bool
  last : Bool
  trunc : Bool
  parity : Bool
  index : Nat
deriving DecidableEq, Repr

/-- An admitted message of a queue (06 R292-R295): its sender, the die through which it came from another chip, its length
and threshold (R810), the words that have arrived and not been returned, those still to come, how many have arrived
and been returned, and when the last one arrived. -/
structure QMsg where
  id : Nat
  srcChip : BitVec 16
  srcCore : CoreId
  via : Option Die
  len : Nat
  threshold : Nat
  held : List QWord
  coming : List (Word × Bool)
  arrived : Nat
  returned : Nat
  readable : Bool
  ended : Bool
  lastTime : Nat
deriving DecidableEq, Repr

/-- Words still to come of a message that a queue has ended (06 R295): they are discarded as they arrive. -/
structure QLate where
  id : Nat
  srcChip : BitVec 16
  srcCore : CoreId
  via : Option Die
  left : Nat
deriving DecidableEq, Repr

/-- A message queue (06 Table 6.2). -/
structure Queue where
  msgs : List QMsg
  arrEn : Bool
  arrTally : BitVec 6
  threshM1 : BitVec 8
  discarded : Nat
  received : BitVec 32
  truncated : Nat
  parityErr : Nat
  late : List QLate
deriving DecidableEq, Repr

def Queue.reset : Queue :=
  { msgs := [], arrEn := false, arrTally := 0, threshM1 := 0xFF, discarded := 0, received := 0, truncated := 0,
    parityErr := 0, late := [] }

/-- The counter page of a core (18 Table 18.1). CYCLE is the region's cycle count minus `cycleBase`. -/
structure Pmu where
  cycleBase : Word
  cnt : Tab (BitVec 48)
  ctl : Tab Word
  freeze : Bool
  abortFrozen : Bool
  jobWrite : Bool
  freezeOnOvf : Bool
  ovf : BitVec 8
  sampleValid : Bool
  sampleCnt : BitVec 3
  samplePc : Word
  sampleAddr : Word
deriving DecidableEq, Repr

def Pmu.reset : Pmu :=
  { cycleBase := 0, cnt := [], ctl := [], freeze := false, abortFrozen := false, jobWrite := false,
    freezeOnOvf := false, ovf := 0, sampleValid := false, sampleCnt := 0, samplePc := 0, sampleAddr := 0 }

/-- One logical core with its Press, Ladle, queues and tallies (01 Table 1.8: CORE and ENGINE domains, and the
progress page of 16 R692 that the region serves). -/
structure Core where
  g : Vector Word 32
  v : Vector VWord 32
  pc : Word
  startPc : Word
  run : Bool
  halted : Bool
  mode : Mode
  jobId : Word
  tvec : Word
  trapPc : Word
  trapCause : Word
  trapAddr : Word
  prevMode : Mode
  nest : Bool
  intEnable : BitVec 8
  intPending : BitVec 8
  intAddr : Tab Word
  abortPending : Option Word
  abortClosed : Bool
  timerCmp : Word
  mrecvTags : Word
  phaseEn : Bool
  ladleErrs : List LadleErr
  /-- Records of further stops, which show once one of the 32 held is retired (02 R803). -/
  ladleErrWait : List LadleErr
  rat : Tab RatEntry
  stall : Stall
  barrierArrived : List (Nat × BitVec 32)
  memops : List MemOp
  nextId : Nat
  poison : List PoisonHit
  cache : Tab (Option CLine)
  cellErrs : Tab Nat
  /-- The most recently used line of each set of the data cache (02 R98). -/
  recent : Tab (Option Nat)
  /-- Lines as CINV.RANGE dropped them: a younger load may still be performed before it (05 R268). -/
  late : Tab (Option CLine)
  fills : List Fill
  pressQ : List PressCmd
  pressRun : List PressRun
  pressSub : BitVec 16
  pressLevel : Nat
  /-- The array cycle up to which the running commands have been advanced, the level that the Press obeyed there, and the
  changes of the level since, each with the cycle from which the Press obeys it (03 R193, R197). -/
  pressSeen : Nat
  pressObeyed : Nat
  pressChanges : List (Nat × Nat)
  /-- The cycle of a job abort, after which no k step issues (03 R201). -/
  pressStop : Option Nat
  pressStepCycle : Nat
  pressRising : Bool
  pressHeld : Bool
  streams : Tab (Option Word)
  ladleQ : List LadleDesc
  ladleRun : List LadleRun
  ladleTxs : List LadleTx
  ladleSub : BitVec 16
  ladleLast : Word
  ladleHeld : Bool
  outMsgs : List OutMsg
  queues : Tab Queue
  tallies : Tab (BitVec 32)
  pmu : Pmu
  coreProgress : BitVec 32
  pressProgress : BitVec 32
  ladleProgress : BitVec 32
  qProgress : Tab (BitVec 32)
  hung : BitVec 8
  shadows : Tab Word
  coreInReset : Bool
  engineInReset : Bool
deriving DecidableEq, Repr

/-- A core as it leaves CORE reset (02 R77, R800; 06 Table 6.2, R302; 18 R778). The general, vector and start
registers have no reset value in the spec: 0, DESIGN CHOICE (log 1). -/
def Core.reset : Core :=
  { g := Vector.replicate 32 0, v := Vector.replicate 32 0, pc := 0, startPc := 0, run := false, halted := true,
    mode := .runtime, jobId := 0, tvec := 0, trapPc := 0, trapCause := 0, trapAddr := 0, prevMode := .job,
    nest := false, intEnable := 0, intPending := 0, intAddr := [], abortPending := none, abortClosed := false,
    timerCmp := 0xFFFFFFFFFFFFFFFF, mrecvTags := 0, phaseEn := false, ladleErrs := [], ladleErrWait := [], rat := [], stall := .none,
    barrierArrived := [], memops := [], nextId := 0, poison := [], cache := [], cellErrs := [], recent := [], late := [], fills := [], pressQ := [],
    pressRun := [], pressSub := 0, pressLevel := 0, pressSeen := 0, pressObeyed := 0,
    pressChanges := [], pressStop := none, pressStepCycle := 0, pressRising := false, pressHeld := false, streams := [], ladleQ := [], ladleRun := [],
    ladleTxs := [], ladleSub := 0, ladleLast := 0, ladleHeld := false, outMsgs := [], queues := [], tallies := [],
    pmu := Pmu.reset, coreProgress := 0, pressProgress := 0, ladleProgress := 0, qProgress := [], hung := 0,
    shadows := [], coreInReset := false, engineInReset := false }

/-- A barrier context (06 Table 6.5). The counts of NEXT are `nArrived`, `nMembers` and `nLeaders`; LIST is sparse. -/
structure Barrier where
  valid : Bool
  cross : Bool
  leader : Bool
  leaderChip : BitVec 16
  members : BitVec 5
  otherLeaders : BitVec 9
  regions : BitVec 16
  localCount : BitVec 11
  gen : BitVec 32
  arrived : BitVec 11
  membersIn : BitVec 5
  leadersIn : BitVec 9
  state : BitVec 2
  nArrived : BitVec 11
  nMembers : BitVec 5
  nLeaders : BitVec 9
  frozen : Bool
  unknownPeer : Bool
  genSkew : Bool
  configBusy : Bool
  discarded : Nat
  list : Tab (BitVec 16)
deriving DecidableEq, Repr

def Barrier.reset : Barrier :=
  { valid := false, cross := false, leader := false, leaderChip := 0, members := 0, otherLeaders := 0, regions := 0,
    localCount := 0, gen := 0, arrived := 0, membersIn := 0, leadersIn := 0, state := 0, nArrived := 0,
    nMembers := 0, nLeaders := 0, frozen := false, unknownPeer := false, genSkew := false, configBusy := false,
    discarded := 0, list := [] }

/-- A single-flit Signal packet that a barrier or abort engine has still to send (06 R316, R317; 16 R699). -/
structure EngineSend where
  dstChip : BitVec 16
  kind : PKind
  args : List Word
deriving DecidableEq, Repr

/-- A region that a completed barrier has still to release (06 R321): context, generation, region, and the earliest
time of its slot. -/
structure Release where
  ctx : Nat
  gen : BitVec 32
  region : Nat
  due : Nat
deriving DecidableEq, Repr

/-- Barriers and their release wave (06 R309-R325, R811-R813). -/
structure BarrierSt where
  ctxs : Tab Barrier
  sends : List EngineSend
  lastSend : Option Nat
  releases : List Release
  lastRelease : Option Nat
  rotation : Nat
  releaseOffset : Nat
deriving DecidableEq, Repr

def BarrierSt.reset : BarrierSt :=
  { ctxs := [], sends := [], lastSend := none, releases := [], lastRelease := none, rotation := 0,
    releaseOffset := 0 }

/-- What the part record's factory body and the factory give one part (00 R10, 01 R38, R47; 12 R548, R578): the assembly record; the
defect map, as the defective physical cores and the core that each 9-core segment hides where that is not its eastmost;
the HBM rows repaired at final test, as locations of the field appendix; the calibration values and the two signatures
over the body; each hot spot's thermal coefficient in 1/16 K for each 16 W; twice A_REF, N, N_REF, and M in thousandths. Constants of
the part. -/
structure PartRecord where
  variant : Nat
  hbmFitted : BitVec 8
  opticalPorts : BitVec 16
  siteCapable : BitVec 16
  serial : List Byte
  assemblyVersion : List Byte
  factoryVersion : List Byte
  defects : List Nat
  hidden : Tab Nat
  hbmRepair : List Nat
  calibration : List Byte
  signatures : List Byte
  thermalCoef : List Nat
  lifeARef : Nat
  lifeN : Nat
  lifeNRef : Nat
  lifeM : List Nat
deriving DecidableEq, Repr

/-- Kinds of a field appendix entry (01 Table 1.6). -/
inductive AppKind where
  | core
  | spare
  | region
  | hbmChannel
  | hbmRow
deriving DecidableEq, Repr

/-- An entry of the field appendix (01 Table 1.6). -/
structure AppEntry where
  seq : Nat
  time : Nat
  kind : AppKind
  location : Nat
  cause : Nat
deriving DecidableEq, Repr

/-- One copy of the part record, in flash A or B (01 R38, R39): whether the signatures over its factory body and over its field
appendix verify, the Rind controller whose island signed the appendix, its two signatures (Table 1.6), its entries, and the cores that its 9-core segments
hide, which each remap writes (R788). -/
structure RecordCopy where
  bodyOk : Bool
  appOk : Bool
  signedByA : Bool
  ed25519 : List Byte
  mldsa : List Byte
  entries : List AppEntry
  hidden : Tab Nat
deriving DecidableEq, Repr

def RecordCopy.reset : RecordCopy := { bodyOk := true, appOk := true, signedByA := true, ed25519 := [], mldsa := [], entries := [], hidden := [] }

/-- One mesh plane (01 R33, R35, R51): the regions whose neighbours hold new through-traffic in their dual-clock queues. -/
structure MeshPlane where
  held : BitVec 16
deriving DecidableEq, Repr

/-- The part record as held in the two flash devices, with the grid that it decides (01 R28-R47, R69-R71); `recordBefore` is the
factory body that a staged PART replaced and that a reversion brings back (17 R747, R749). A logical
core's entry of `capacity` is 0 present, 1 failed and awaiting remap, 2 absent (Table 1.13). `defects` holds every
physical core known defective in this power cycle, `hidden` the core that each 9-core segment hides, `selectors` the
shift selectors of each segment, which a region's rise sets (R34): bit i is set where logical column i of the segment
meets the mesh one physical column to the east. -/
structure OrgSt where
  record : PartRecord
  recordBefore : Option PartRecord
  copyA : RecordCopy
  copyB : RecordCopy
  fieldSequence : BitVec 32
  recordState : Nat
  pendingEntries : List AppEntry
  defects : List Nat
  hidden : Tab Nat
  selectors : Tab (BitVec 8)
  requestPlane : MeshPlane
  responsePlane : MeshPlane
  capacity : Tab Nat
  capEpoch : BitVec 32
  regionState : Tab Nat
  regionResets : Tab (BitVec 32)
  regionDiscarded : Tab Nat
  regionEpoch : BitVec 32
  regionDrainUntil : Tab (Option Nat)
  auxOn : Bool
  transitOn : Bool
  memoryOn : BitVec 8
  computeOn : Bool
deriving DecidableEq, Repr

/-- A part with eight stacks fitted and no defect (log 4). -/
def PartRecord.reset : PartRecord :=
  { variant := 2, hbmFitted := 0xFF, opticalPorts := 0, siteCapable := 0xF000, serial := ascii [83, 88, 78, 45, 48],
    assemblyVersion := ascii [49, 46, 48, 46, 48], factoryVersion := ascii [49, 46, 48, 46, 48], defects := [], hidden := [], hbmRepair := [], calibration := [],
    signatures := [], thermalCoef := List.replicate 64 8,
    lifeARef := 50, lifeN := 2, lifeNRef := 10000, lifeM := List.replicate 12 1000 }

def OrgSt.reset : OrgSt :=
  { record := PartRecord.reset, recordBefore := none, copyA := RecordCopy.reset, copyB := RecordCopy.reset, fieldSequence := 0, recordState := 0,
    pendingEntries := [], defects := [], hidden := [], selectors := [], requestPlane := { held := 0 },
    responsePlane := { held := 0 }, capacity := [], capEpoch := 0, regionState := [], regionResets := [],
    regionDiscarded := [], regionEpoch := 0, regionDrainUntil := [], auxOn := true, transitOn := false,
    memoryOn := 0, computeOn := false }

/-- A fault record (16 Table 16.3), its eight words. -/
structure FaultRec where
  w0 : Word
  w1 : Word
  w2 : Word
  w3 : Word
  w4 : Word
  w5 : Word
  w6 : Word
  w7 : Word
deriving DecidableEq, Repr

def FaultRec.zero : FaultRec := { w0 := 0, w1 := 0, w2 := 0, w3 := 0, w4 := 0, w5 := 0, w6 := 0, w7 := 0 }

/-- A health record (16 Table 16.17, object 0x8003). -/
structure HealthRec where
  time : Nat
  seq : BitVec 32
  cls : Nat
  unit : Nat
  cause : Nat
  index : Nat
  object : Nat
deriving DecidableEq, Repr

/-- The abort context of an I/O die (16 Table 16.7). -/
structure AbortCtx where
  valid : Bool
  leader : Bool
  leaderChip : BitVec 16
  members : BitVec 5
  otherLeaders : BitVec 9
  jobId : Word
  aborted : Bool
  abortsIn : BitVec 32
  stale : BitVec 32
  list : Tab (BitVec 16)
deriving DecidableEq, Repr

def AbortCtx.reset : AbortCtx :=
  { valid := false, leader := false, leaderChip := 0, members := 0, otherLeaders := 0, jobId := 0, aborted := false,
    abortsIn := 0, stale := 0, list := [] }

/-- What a hang check remembers of one unit at the start of its window (16 R689, R690): its counter, and whether the
window still counts for it. -/
structure HangSnap where
  counter : BitVec 32
  counts : Bool
deriving DecidableEq, Repr

/-- A dump section (16 Table 16.10): type, flags, unit, body. -/
structure DumpSection where
  kind : Nat
  flags : Nat
  unit : Nat
  time : Nat
  body : List Byte
deriving DecidableEq, Repr

/-- A finished step of the reset ladder (16 Table 16.17, HISTORY). -/
structure LadderHist where
  start : Nat
  finish : Nat
  step : Nat
  outcome : Nat
  scope : BitVec 16
  seq : BitVec 32
deriving DecidableEq, Repr

/-- The reset ladder (16 R707-R719): the step in progress with its scope, the named cores and region, whether the ENGINE
domains of every present core are reset with it, its cause; `want` is the step to start with, `last` values serve R709. -/
structure Ladder where
  step : Nat
  scope : BitVec 16
  startedNs : Nat
  startedAt : Nat
  cores : List CoreId
  unit : Nat
  unitIndex : Nat
  cause : Nat
  retrain : Bool
  recordSeq : BitVec 32
  want : Nat
  wantRetrain : Bool
  region : Option Nat
  every : Bool
  lastStep : Nat
  lastEnd : Option Nat
  lastUnit : Nat × Nat × Nat
  lastPackage : List (Nat × Nat × Nat)
  offSince : Option Nat
  escalations : BitVec 32
  history : List LadderHist
deriving DecidableEq, Repr

/-- Faults and recovery (16). -/
structure FaultSt where
  ring : Tab FaultRec
  seq : BitVec 32
  health : List HealthRec
  healthTotal : BitVec 32
  stageWest : FaultRec
  stageEast : FaultRec
  windowMs : Nat
  windowNext : Option Nat
  windowStart : Nat
  windowRun : Nat
  hungCount : BitVec 32
  lastHungSeq : BitVec 32
  snaps : List (HangUnit × HangSnap)
  abortWest : AbortCtx
  abortEast : AbortCtx
  inAbort : Bool
  abortSends : List EngineSend
  abortLastSend : Option Nat
  dumpDue : Bool
  dumpState : Nat
  dumpSections : List DumpSection
  dumpStart : Nat
  dumpEnd : Nat
  dumpStartF : Nat
  dumpHead : List Byte
  dumpJob : Word
  dumpTrigger : BitVec 32
  dumpSkipped : BitVec 32
  dumpEpoch : BitVec 32
  ladder : Ladder
  tier : Nat
  lacking : BitVec 16
  tierEpoch : BitVec 32
  tierLost : Bool
  reasons : BitVec 32
  standing : BitVec 32
  firstNs : Nat
  raised : BitVec 32
  reasonEpoch : BitVec 32
  phasesLost : Tab Nat
deriving DecidableEq, Repr

def FaultSt.reset : FaultSt :=
  { ring := [], seq := 0, health := [], healthTotal := 0, stageWest := FaultRec.zero, stageEast := FaultRec.zero,
    windowMs := 200, windowNext := none, windowStart := 0, windowRun := 0, hungCount := 0, lastHungSeq := 0, snaps := [],
    abortWest := AbortCtx.reset, abortEast := AbortCtx.reset, inAbort := false, abortSends := [], abortLastSend := none, dumpDue := false, dumpState := 0, dumpSections := [], dumpStart := 0,
    dumpEnd := 0, dumpStartF := 0, dumpHead := [], dumpJob := 0, dumpTrigger := 0, dumpSkipped := 0,
    dumpEpoch := 0,
    ladder :=
      { step := 0, scope := 0, startedNs := 0, startedAt := 0, cores := [], unit := 0, unitIndex := 0, cause := 0,
        retrain := false, recordSeq := 0, want := 0, wantRetrain := false, region := none, every := false,
        lastStep := 0, lastEnd := none, lastUnit := (0, 0, 0),
        lastPackage := [], offSince := none, escalations := 0, history := [] },
    tier := 0, lacking := 0, tierEpoch := 0, tierLost := false, reasons := 0, standing := 0, firstNs := 0,
    raised := 0, reasonEpoch := 0, phasesLost := [] }

/-- The job object 0x1201 (15 R676). -/
structure JobSt where
  jobId : Word
  state : Nat
  endCause : Nat
  startNs : Nat
  epoch : BitVec 32
  stopSignalled : Bool
deriving DecidableEq, Repr

def JobSt.reset : JobSt :=
  { jobId := 0, state := 0, endCause := 0, startNs := 0, epoch := 0, stopSignalled := false }

/-- A counter block of a port or an HBM controller (18 Table 18.4): ALL of each control word is 1 after reset. -/
structure UnitCounters where
  ctl : Tab Word
  cnt : Tab (BitVec 48)
deriving DecidableEq, Repr

def UnitCounters.reset : UnitCounters := { ctl := [], cnt := [] }

/-- Object 0xA001 and the unit counters (18 R783-R787). -/
structure CounterSt where
  ports : Tab UnitCounters
  hbm : Tab UnitCounters
  controlOwner : Nat
  discarded : BitVec 32
deriving DecidableEq, Repr

def CounterSt.reset : CounterSt := { ports := [], hbm := [], controlOwner := 0, discarded := 0 }

/-- Region control of one region (11 R540, R542, Tables 11.14, 11.15). `cycles` counts its clock cycles since AUX
power-up in thousandths; it is the source of every core's CYCLE (18 R769).
While `ceilFall` the ceiling falls by a level per 512 array cycles, and while `ceilRise` it rises so toward 8, the last time
at `ceilStep`; while `clockFall` the clock falls by a step each 200 ns, the next one after `clockWait` (11 R498, Table 11.8);
`raisedAt` is when the clock last rose (R506), `lastCause` the causes of the departure from fixed mode that stands (R511). -/
structure Region where
  target : Nat
  current : Nat
  limitCause : Nat
  stretchEvents : Word
  stretchCycles : Word
  stretching : Bool
  stretchFrom : Nat
  gate : BitVec 68
  on : BitVec 68
  gateRefused : BitVec 32
  grant : Nat
  power : Nat
  rising : Bool
  riseStart : Nat
  releasedAt : Option Nat
  ceiling : Nat
  ceilFall : Bool
  ceilStep : Nat
  ceilRise : Bool
  clockFall : Bool
  clockWait : Nat
  raisedAt : Option Nat
  lastCause : BitVec 16
  nextPhase : Word
  currentPhase : Word
  nextDue : Word
  cycles : Nat
  inReset : Bool
  risen : Bool
deriving DecidableEq, Repr

def Region.reset : Region :=
  { target := 800, current := 800, limitCause := 0, stretchEvents := 0, stretchCycles := 0,
    stretching := false, stretchFrom := 0, gate := BitVec.allOnes 68, on := BitVec.allOnes 68, gateRefused := 0,
    grant := 0, power := 0, rising := false, riseStart := 0, releasedAt := none, ceiling := 8, ceilFall := false, ceilStep := 0, ceilRise := false,
    clockFall := false, clockWait := 0, raisedAt := none, lastCause := 0, nextPhase := 0, currentPhase := 0,
    nextDue := 0, cycles := 0, inReset := false, risen := false }

/-- An entry of the phase table (11 Table 11.9). Powers are in mW; `regions` holds each region's average. -/
structure PhaseEntry where
  id : BitVec 16
  samples : Nat
  lastSeen : BitVec 32
  regions : List Nat
  hbm : Nat
  fabric : Nat
deriving DecidableEq, Repr

/-- A record of the power order log (11 Table 11.5). -/
structure OrderRec where
  time : Nat
  kind : Nat
  rack : Nat
  host : Nat
  result : Nat
  winner : Nat
deriving DecidableEq, Repr

/-- A throttled interval (11 Table 11.7). -/
structure ThrottleRec where
  start : Nat
  finish : Nat
  causes : BitVec 16
  ceiling : Nat
  mhz : Nat
deriving DecidableEq, Repr

/-- A job energy slot (11 Table 11.11). `base` is TOTAL at the job's start. -/
structure JobSlot where
  jobId : Word
  state : Nat
  startNs : Nat
  endNs : Nat
  energy : Nat
  gapBound : Nat
  base : Nat
  order : Nat
deriving DecidableEq, Repr

def JobSlot.reset : JobSlot :=
  { jobId := 0, state := 0, startNs := 0, endNs := 0, energy := 0, gapBound := 0, base := 0, order := 0 }

/-- Power (11). Caps are in W, measured powers and grants in mW, energies in uJ. `budget` is B of the last Ripener step;
`grantsDue` the rises that follow the falls 1 us later (R525); `floorMode` 0 grants, 1 park duty, 2 held parked (Table
11.10). The five `park` flags are the reasons for which the package is parked, `parked` the regions that have not been
released since. `tickCauses`, `tickCeiling`
and `tickMhz` gather what Table 11.7 counts within the present 1 ms tick, its causes and the lowest ceiling and clock. -/
structure PowSt where
  rackCap : Nat
  hostCap : Nat
  window : Nat
  windowUse : Nat
  capPending : Bool
  effCap : Nat
  source : Nat
  windowAvg : Nat
  budget : Nat
  grantSum : Nat
  hbmGrant : Nat
  fixedTerms : Nat
  grants : List Nat
  demands : List Nat
  nextDemands : List Nat
  steps : Nat
  grantsDue : Option (Nat × List Nat)
  capLimiting : Bool
  phaseTable : List PhaseEntry
  fastLimit : Nat
  limiter : Bool
  limiterSince : Nat
  limiterClock : Nat
  limiterBelow : Option Nat
  limiterFloor : Option Nat
  rackOrder : Nat
  hostOrder : Nat
  hold : Nat
  effective : Nat
  orderLog : List OrderRec
  orderTotal : BitVec 32
  mode : Nat
  fixedMhz : Nat
  boostEn : Nat
  heldMode : Option Nat
  heldMhz : Option Nat
  intervals : Nat
  jobTicks : Nat
  throttleLog : List ThrottleRec
  throttleOpen : Option ThrottleRec
  tickCauses : BitVec 16
  tickCeiling : Nat
  tickMhz : Nat
  alertHeld : Bool
  alertUntil : Option Nat
  parkOrder : Bool
  parkSlice : Bool
  parkFloor : Bool
  parkCool : Bool
  parkOff : Bool
  parked : BitVec 16
  unparkAt : Nat
  unparkFrom : Nat
  floorMode : Nat
  attainable : Bool
  riseWait : List Nat
  energyMain : Nat
  energyAux : Nat
  gaps : BitVec 32
  gapBound : Nat
  auxEpoch : BitVec 32
  slots : Tab JobSlot
  shown : BitVec 32
deriving DecidableEq, Repr

/-- Power at AUX power-up with the defaults of Tables 11.3 to 11.12. -/
def PowSt.reset : PowSt :=
  { rackCap := 4400, hostCap := 4800, window := 4, windowUse := 4, capPending := false, effCap := 4400, source := 0, windowAvg := 0,
    budget := 0, grantSum := 0, hbmGrant := 0, fixedTerms := 0, grants := [], demands := [], nextDemands := [],
    steps := 0, grantsDue := none, capLimiting := false, phaseTable := [], fastLimit := 5280000, limiter := false,
    limiterSince := 0, limiterClock := 0, limiterBelow := none, limiterFloor := none, rackOrder := 0, hostOrder := 0, hold := 0, effective := 0,
    orderLog := [], orderTotal := 0, mode := 0, fixedMhz := 2000, boostEn := 1, heldMode := none, heldMhz := none,
    intervals := 0, jobTicks := 0, throttleLog := [], throttleOpen := none, tickCauses := 0, tickCeiling := 8, tickMhz := 2300, alertHeld := false,
    alertUntil := none, parkOrder := false, parkSlice := false, parkFloor := false, parkCool := false,
    parkOff := false, parked := 0, unparkAt := 0, unparkFrom := 0, floorMode := 0, attainable := true, riseWait := [], energyMain := 0,
    energyAux := 0, gaps := 0, gapBound := 0, auxEpoch := 1, slots := [], shown := 0 }

/-- A qualifying power step of a region under watch (12 R548): when it began, POWER before it, and the eight readings
then, with the highest of each since. -/
structure PowerStep where
  since : Nat
  base : Nat
  readings : List Int
  peaks : List Int
deriving DecidableEq, Repr

/-- Thermal control (12). Readings are in 1/16 degrees C, coolant temperatures in 0.1 degrees C, `flow` and `demand` in
0.1 L/min, `implied` in 0.000001 L/min, allowances in W. A sensor's mark is 0 usable, 1 suspect pair, 2 stuck-cold, 3
removed. `fastLine` and `fastReport` are the two triggers of R562; `stopTimer` the ns that the coolant stop timer has
run, up to `stopFrom` when it is running; `leakPark` holds the park of R552. -/
structure ThermSt where
  readings : Tab Int
  valid : Bool
  marks : Tab Nat
  masked : Tab Bool
  differ : Tab (Option Nat)
  coldFails : Tab Nat
  lows : Tab (List PowerStep)
  stepWatch : Tab (Option PowerStep)
  junction : Int
  hotSpot : Nat
  hbmHottest : Int
  governing : List Int
  aj : Nat
  state : Nat
  above95 : Option Nat
  below92 : Option Nat
  sustained : Bool
  sustainedEvents : BitVec 32
  dieThrottle : Bool
  hbmThrottle : Bool
  dieForced : Bool
  hbmForced : Bool
  dieCool : Option Nat
  hbmCool : Option Nat
  heatTrip : Bool
  tripCause : Nat
  tripAt : Nat
  inlet : Int
  outlet : Int
  flow : Nat
  implied : Nat
  suspect : Bool
  suspectEvents : BitVec 32
  differFrom : Option Nat
  agreeFrom : Option Nat
  aflow : Nat
  allowance : Nat
  demand : Nat
  coolState : Nat
  dataLost : Bool
  fastLine : Bool
  fastReport : Bool
  fastStop : Bool
  goodReports : Nat
  restoreFrom : Option Nat
  stopTimer : Nat
  stopFrom : Option Nat
  leak : Nat
  leakSeen : Nat
  leakSince : Nat
  leakDry : Option Nat
  leakPark : Bool
  leakOhm : Nat
  bins : Tab Nat
  residue : List Int
  extreme : Option Int
  rising : Option Bool
  lifeUsed : Nat
  lifeWarned : Bool
  lastSave : Nat
deriving DecidableEq, Repr

def ThermSt.reset : ThermSt :=
  { readings := [], valid := false, marks := [], masked := [], differ := [], coldFails := [], lows := [],
    stepWatch := [], junction := 0, hotSpot := 0, hbmHottest := 0, governing := [], aj := 4800, state := 0,
    above95 := none, below92 := none, sustained := false, sustainedEvents := 0, dieThrottle := false,
    hbmThrottle := false, dieForced := false, hbmForced := false, dieCool := none, hbmCool := none, heatTrip := false,
    tripCause := 0, tripAt := 0, inlet := 0, outlet := 0, flow := 0, implied := 0, suspect := false, suspectEvents := 0,
    differFrom := none, agreeFrom := none, aflow := 4800, allowance := 4800, demand := 20, coolState := 0,
    dataLost := false, fastLine := false, fastReport := false, fastStop := false, goodReports := 0, restoreFrom := none,
    stopTimer := 0, stopFrom := none, leak := 0, leakSeen := 0, leakSince := 0, leakDry := none, leakPark := false, leakOhm := 0,
    bins := [], residue := [], extreme := none, rising := none, lifeUsed := 0, lifeWarned := false, lastSave := 0 }

/-- What waits to be programmed into flash (13 R597): the rewrite of the part record's other copy (01 R39), an appendix entry, a persistent value by index and sub-index, the
thermal-cycle bins, the stored route bank, an image block. -/
inductive FlashItem where
  | record
  | appendix
  | value (index sub : Nat)
  | cycles
  | routes
deriving DecidableEq, Repr

/-- Off, on, slow or fast blinking (13 R609). -/
inductive Blink where
  | off
  | on
  | slow
  | fast
deriving DecidableEq, Repr

/-- The pattern registers of the indicators: LED_STATUS_G, LED_STATUS_A, LED_SERVICE_A, LED_LOCATE_B (13 R609). -/
structure Leds where
  green : Blink
  amber : Blink
  service : Blink
  locate : Blink
deriving DecidableEq, Repr

def Leds.reset : Leds := { green := .off, amber := .off, service := .off, locate := .off }

/-- The tray interface (13): the pins as the package sees them after their filters, what it last read of the tray's
registers and last wrote to them, and its use of main power. `holdsMain` tells that main power is held and not
released (R594), `mainOff` when MAIN_PG was last deasserted. SUPPLY_ALERT_N is wired: `supplyTray` and `supplyReg` tell whether
the tray and the package's own regulators hold it. `address` is the dynamic address that the package has assigned to the tray target, 0 before (R602). -/
structure TraySt where
  auxPg : Bool
  mainPg : Bool
  resetAsserted : Bool
  supplyAlert : Bool
  supplyTray : Bool
  supplyReg : Bool
  coolantFault : Bool
  trayAlert : Bool
  eject : Bool
  holdup : Bool
  refFab : Bool
  refSys : Bool
  pps : Option Nat
  slot : Nat
  format : Nat
  lastReport : Nat
  lastSeq : Option (BitVec 16)
  busErrors : BitVec 32
  stageId : BitVec 32
  stageState : Nat
  modules : List Nat
  mainState : Nat
  isoCause : Nat
  isolations : BitVec 32
  mainReq : Nat
  moduleCmd : Nat
  notice : BitVec 8
  noticeAck : BitVec 8
  reqSeq : BitVec 16
  pieceImage : Nat
  pieceBlock : Nat
  pieceStatus : Nat
  pieceEcho : Nat
  address : Nat
  holdsMain : Bool
  mainOff : Nat
  locateUntil : Option Nat
  leds : Leds
  flash : List FlashItem
deriving DecidableEq, Repr

def TraySt.reset : TraySt :=
  { auxPg := true, mainPg := false, resetAsserted := false, supplyAlert := false, supplyTray := false,
    supplyReg := false, coolantFault := false, trayAlert := false, eject := false, holdup := true, refFab := true, refSys := true, pps := none, 
    slot := 0, format := 0, lastReport := 0, lastSeq := none, busErrors := 0, stageId := 0, stageState := 0,
    modules := [], mainState := 0, isoCause := 0, isolations := 0, mainReq := 0, moduleCmd := 0, notice := 0,
    noticeAck := 0, reqSeq := 0, pieceImage := 0, pieceBlock := 0, pieceStatus := 0, pieceEcho := 0, address := 0, holdsMain := false, mainOff := 0, locateUntil := none, leds := Leds.reset,
    flash := [] }

/-- Start-up (14 R614, R625). `rises` counts the regions that have begun the rise in progress, `groups` the training
groups begun; `recovery` marks a start that a package step runs, `byPin` one after PKG_RESET_N; `ran` tells that the runtime has started since COMPUTE
was powered (R617). -/
structure StartSt where
  step : Nat
  endTier : Nat
  stepMs : Tab Nat
  cause : Nat
  missing : BitVec 48
  epoch : BitVec 32
  begun : Nat
  rising : Bool
  rises : Nat
  lastRise : Option Nat
  groups : Nat
  lastGroup : Option Nat
  recovery : Bool
  byPin : Bool
  ran : Bool
deriving DecidableEq, Repr

/-- STEP_MS of a step not begun. -/
def notBegun : Nat := 0xFFFFFFFF

def StartSt.reset : StartSt :=
  { step := 1, endTier := 0, stepMs := [], cause := 0, missing := 0, epoch := 0, begun := 0, rising := false, rises := 0,
    lastRise := none, groups := 0, lastGroup := none, recovery := false, byPin := false, ran := false }

/-- A site port G12-G15 (10 R485). -/
structure SitePort where
  state : Nat
  cause : Nat
  moduleState : Nat
  asymmetry : Int
  moduleNs : Nat
  moduleNext : Nat
  linkNs : Nat
  caveBase : Nat
  storeBase : Nat
  storePeak : Nat
  cavePos : Nat
  storePos : Nat
  replays : Nat
  cavePoison : BitVec 32
  retrains : BitVec 32
  epoch : BitVec 32
  dropped : Bool
deriving DecidableEq, Repr

def SitePort.reset : SitePort :=
  { state := 0, cause := 0, moduleState := 0, asymmetry := 0, moduleNs := 8000, moduleNext := 8000, linkNs := 0,
    caveBase := 0, storeBase := 0, storePeak := 0, cavePos := 0, storePos := 0, replays := 0, cavePoison := 0, retrains := 0, epoch := 0,
    dropped := false }

/-- Site links (10 R486). -/
structure SiteSt where
  ports : Tab SitePort
  active : BitVec 16
  stores : BitVec 16
  epoch : BitVec 32
deriving DecidableEq, Repr

def SiteSt.reset : SiteSt := { ports := [], active := 0, stores := 0, epoch := 0 }

/-- What one Rind controller is doing (15 R626-R631). -/
inductive RindRole where
  | starter
  | standby
  | active
  | halted
deriving DecidableEq, Repr

/-- What the standby holds of the active controller (15 Table 15.3), where its copy can lag. -/
structure Mirror where
  main : Nat
  aux : Nat
  phaseTable : List PhaseEntry
  bins : Tab Nat
  residue : List Int
  health : List HealthRec
  energyAt : Nat
  slowAt : Nat
  valuesAt : Nat
deriving DecidableEq, Repr

/-- The Rind pair (15 R626-R643). `lowA` and `lowB` tell since when each OWN line has been deasserted; `switching` since
when a switch-over is in progress. -/
structure RindSt where
  a : RindRole
  b : RindRole
  ownA : Bool
  ownB : Bool
  lowA : Nat
  lowB : Nat
  releasesA : Nat
  releasesB : Nat
  takeovers : BitVec 32
  lastCause : Nat
  lastTime : Nat
  nextCause : Nat
  switching : Option Nat
  healthy : Bool
  healthySince : Option Nat
  lastPass : Option Nat
  memoryPasses : BitVec 32
  memoryErrors : BitVec 32
  lockstepFails : BitVec 32
  loopbackFails : BitVec 32
  mirrorLag : Nat
  mirror : Mirror
deriving DecidableEq, Repr

def RindSt.reset : RindSt :=
  { a := .starter, b := .starter, ownA := false, ownB := false, lowA := 0, lowB := 0, releasesA := 0, releasesB := 0,
    takeovers := 0, lastCause := 0, lastTime := 0, nextCause := 0, switching := none, healthy := false,
    healthySince := none, lastPass := none, memoryPasses := 0, memoryErrors := 0, lockstepFails := 0,
    loopbackFails := 0, mirrorLag := 0,
    mirror := { main := 0, aux := 0, phaseTable := [], bins := [], residue := [], health := [], energyAt := 0,
                slowAt := 0, valuesAt := 0 } }

/-- One OAP operation (15 Table 15.8). -/
inductive OapOp where
  | read (index sub offset : Nat)
  | write (index sub offset : Nat) (body : List Byte) (more : Bool)
  | readMulti (items : List ReadItem)
  | subscribe (index sub interval : Nat)
  | cancel (subId : Nat)
deriving DecidableEq, Repr

/-- A request of the present management tick (15 R660): the session, the port it came by, its REQ_ID, when it arrived. -/
structure OapReq where
  session : Nat
  port : MgmtPort
  reqId : BitVec 32
  at' : Nat
  op : OapOp
deriving DecidableEq, Repr

/-- The answer to one request (15 Table 15.7): the session, REQ_ID, the operation, STATUS, MORE and the body. -/
structure OapAnswer where
  session : Nat
  reqId : BitVec 32
  op : Nat
  status : Nat
  more : Bool
  body : List Byte
deriving DecidableEq, Repr

/-- A subscription (15 R662). -/
structure OapSub where
  id : Nat
  index : Nat
  sub : Nat
  interval : Nat
  lastSent : Option Nat
  due : Bool
deriving DecidableEq, Repr

/-- An EVENT in a session's queue (15 R662). -/
structure OapEvent where
  seq : BitVec 32
  resync : Bool
  subId : Nat
  time : Nat
  value : List Byte
deriving DecidableEq, Repr

/-- A BLOB that arrives in parts (15 R657), with when its first part arrived. -/
structure OapPart where
  index : Nat
  sub : Nat
  bytes : List Byte
  since : Nat
deriving DecidableEq, Repr

/-- An OAP session (15 R650-R662): its role, the anchor-free commissioning path, port, connection ID, age and the time of
its last valid record, the last 64 replies, subscriptions, EVENTs, and the attestation NONCE and REPORT of the session
(17 R761). -/
structure Session where
  id : Nat
  role : Role
  port : MgmtPort
  cid : BitVec 64
  opened : Nat
  lastRecord : Nat
  replies : List OapAnswer
  subs : List OapSub
  nextSub : Nat
  events : List OapEvent
  eventSeq : BitVec 32
  resync : Bool
  parts : List OapPart
  sendSeq : Nat
  keyEpoch : Nat
  nonce : List Byte
  report : List Byte
deriving DecidableEq, Repr

/-- A conflict under 15 R661. -/
structure Conflict where
  time : Nat
  index : Nat
  sub : Nat
  role1 : Role
  port1 : MgmtPort
  role2 : Role
  port2 : MgmtPort
  value1 : List Byte
  value2 : List Byte
deriving DecidableEq, Repr

/-- An MGMT port (15 R665, R671). -/
structure MgmtPortSt where
  up : Bool
  mediaRun : Bool
  downSince : Nat
  mac : BitVec 48
  addresses : List (List Byte)
deriving DecidableEq, Repr

/-- A queue pair (15 R668, R670, Table 15.12). Its rate is in thousandths of the port rate. -/
structure QueuePair where
  qpn : Nat
  port : MgmtPort
  mtu : Nat
  peerQpn : BitVec 32
  psn : BitVec 32
  peerPsn : BitVec 32
  gid : List Byte
  rate : Nat
  lastCut : Option Nat
  lastRaise : Nat
  lastCnp : Option Nat
deriving DecidableEq, Repr

/-- A remote key (15 R669): its 32-bit value, access bits, base offset and length. -/
structure RKey where
  key : BitVec 32
  access : BitVec 8
  base : Word
  len : Word
deriving DecidableEq, Repr

/-- What the package answers to an RDMA operation (15 R668, R669). -/
inductive RdmaReply where
  | ack
  | data (bytes : List Byte)
  | accessError
  | invalidRequest
deriving DecidableEq, Repr

/-- Management (15): sessions, the requests of the tick, objects whose value has changed, conflicts, trust anchors, MGMT
ports, RDMA. `lastAnswers` holds what the last tick answered, `rdmaReply` the last RDMA answer with its queue pair. -/
structure OapSt where
  sessions : List Session
  nextSession : Nat
  requests : List OapReq
  lastAnswers : List OapAnswer
  changed : List Nat
  conflicts : BitVec 32
  conflictLog : List Conflict
  anchorOwner : List Byte
  anchorRack : List Byte
  anchorHost : List Byte
  anchorObserver : List Byte
  media : BitVec 8
  portA : MgmtPortSt
  portB : MgmtPortSt
  dropped : Nat
  ptpState : Nat
  ptpOffset : Int
  qps : List QueuePair
  keys : Tab (Option RKey)
  keyRefused : Nat
  cnpSent : Nat
  cnpRecv : Nat
  rdmaReply : Option (Nat × RdmaReply)
deriving DecidableEq, Repr

def MgmtPortSt.reset (mac : BitVec 48) : MgmtPortSt :=
  { up := false, mediaRun := false, downSince := 0, mac := mac, addresses := [] }

def OapSt.reset : OapSt :=
  { sessions := [], nextSession := 0, requests := [], lastAnswers := [], changed := [], conflicts := 0,
    conflictLog := [], anchorOwner := [], anchorRack := [], anchorHost := [], anchorObserver := [], media := 0,
    portA := MgmtPortSt.reset 0, portB := MgmtPortSt.reset 1, dropped := 0, ptpState := 0, ptpOffset := 0, qps := [],
    keys := [], keyRefused := 0, cnpSent := 0, cnpRecv := 0, rdmaReply := none }

/-- An image slot (17 R728): its state, IMAGE_ID, stored blocks, and STAGE_ID; `torn` marks a slot whose erase a loss of AUX cut off, which the Starter erases again (13 R597). -/
structure Slot where
  state : Nat
  torn : Bool
  imageId : List Byte
  stageId : BitVec 32
  blocks : Tab (List Byte)
deriving DecidableEq, Repr

def Slot.reset : Slot := { state := 0, torn := false, imageId := List.replicate 16 0, stageId := 0, blocks := [] }

/-- One image type (17 R728, Table 17.10): its two slots, the active one, its state (0 confirmed, 1 awaiting
confirmation, 2 repairing, 3 missing, 4 reverted), the slot active before, and the rollback floor. -/
structure Image where
  active : Nat
  state : Nat
  slot0 : Slot
  slot1 : Slot
  previous : Option Nat
  floor : BitVec 16
deriving DecidableEq, Repr

def Image.reset : Image :=
  { active := 0, state := 0, slot0 := { Slot.reset with state := 5 }, slot1 := Slot.reset, previous := none, floor := 0 }

/-- The update session (17 R743-R746). `failures` counts checks of the present block at the present source, `erasing` tells that the slot is being erased, `from'` the
source in use by its place in Table 17.5. -/
structure UpdateSt where
  state : Nat
  status : Nat
  type : Nat
  source : Nat
  stageId : BitVec 32
  stageResult : Nat
  imageId : List Byte
  total : Nat
  table : Nat
  body : Nat
  regime : Nat
  received : List Nat
  failures : Nat
  from' : Nat
  asked : Option (Nat × Nat)
  retryAt : Nat
  resume : Nat
  firstDone : Bool
  bootAt : Option Nat
  holdFrom : Option Nat
  erasing : Bool
deriving DecidableEq, Repr

def UpdateSt.reset : UpdateSt :=
  { state := 0, status := 0, type := 0, source := 0, stageId := 0, stageResult := 0, imageId := List.replicate 16 0,
    total := 0, table := 0, body := 0, regime := 0, received := [], failures := 0, from' := 0, asked := none,
    retryAt := 0, resume := 0, firstDone := false, bootAt := none, holdFrom := none, erasing := false }

/-- Firmware, identity and attestation (17). `recovery` are the blocks asked of the recovery server: TYPE, block, and
when it was asked. The `repair` fields serve a repair at start (R751): the source in use, the block asked for, its
failures there, and when to begin again. -/
structure FwSt where
  images : Tab Image
  server : List Byte
  fabricFetch : Nat
  served : Nat
  discarded : BitVec 32
  update : UpdateSt
  recovery : List (Nat × Nat × Nat)
  repairFrom : Nat
  repairAsked : Option (Nat × Nat)
  repairFailures : Nat
  repairRetry : Nat
  locked : Bool
  lockNonce : List Byte
  lockAnchor : List Byte
  clears : BitVec 32
  certificate : List Byte
  reports : BitVec 32
deriving DecidableEq, Repr

def FwSt.reset : FwSt :=
  { images := [(2, { Image.reset with slot1 := { Slot.reset with state := 5 } })], server := [], fabricFetch := 1, served := 0, discarded := 0, update := UpdateSt.reset,
    recovery := [], repairFrom := 1, repairAsked := none, repairFailures := 0, repairRetry := 0, locked := false,
    lockNonce := List.replicate 32 0, lockAnchor := [], clears := 0, certificate := [], reports := 0 }

/-- One HBM stack and its controller (07 R328-R359, 16 Table 16.5, 18 R785). Rows are numbered by channel address
divided by 1 KiB (PRESUMED, log 13). `discarded` counts the writes of R347. Temperatures are in 1/16 degrees C. -/
structure Stack where
  state : Nat
  healthy : BitVec 32
  failed : BitVec 32
  retired : BitVec 32
  retirePending : BitVec 32
  retireRequest : BitVec 32
  corrected : Word
  uncorrectable : Word
  marked : List (Nat × Nat)
  correctedLog : List (Nat × Nat × Nat × Nat)
  uncLog : List (Nat × Nat × Nat)
  temperature : Int
  lastValid : Nat
  refresh : Nat
  doubled : Bool
  scrub : Nat
  discarded : Nat
  chanCorrected : Tab Nat
  chanUncorrectable : Tab Nat
  progress : BitVec 32
  packageTemp : Int
deriving DecidableEq, Repr

def Stack.reset : Stack :=
  { state := 1, healthy := 0, failed := 0, retired := 0, retirePending := 0, retireRequest := 0, corrected := 0,
    uncorrectable := 0, marked := [], correctedLog := [], uncLog := [], temperature := 0, lastValid := 0, refresh := 0, doubled := false,
    scrub := 0, discarded := 0, chanCorrected := [], chanUncorrectable := [], progress := 0, packageTemp := 0 }

/-- HBM (07): the stacks, and the layout chosen at the last training (Table 7.3). `inter` gives each stack of the set in
ascending order with its interleave channels, `tail` the tail channels in address order; `limit` is one past the
last populated byte (0 when HBM is unusable). -/
structure HbmSt where
  stackTab : Tab Stack
  set : BitVec 8
  inter : List (Nat × List Nat)
  tail : List (Nat × Nat)
  limit : Nat
  runtimeBase : Nat
  caves : List (Nat × Nat)
  inUse : BitVec 8
  epoch : BitVec 32
  lastPowered : Option Nat
  trainingSince : Option Nat
  trainingRecovery : Bool
deriving DecidableEq, Repr

def HbmSt.reset : HbmSt :=
  { stackTab := [], set := 0, inter := [], tail := [], limit := 0, runtimeBase := 0, caves := [], inUse := 0, epoch := 0,
    lastPowered := none, trainingSince := none, trainingRecovery := false }

/-- A packet that waits at its die to be routed: the input of Table 9.13 by which it came and the one by which it entered the
package (53: made here), the global hops it has taken (09 R411), the port and lane on which it is still arriving (R404), and the port
whose receive buffer holds its flits, with that buffer's number of link starts (R446). -/
structure RoutePkt where
  input : Nat
  origin : Nat
  globals : Nat
  arriving : Option (Nat × Nat)
  buf : Option (Nat × Nat)
  pkt : Packet
deriving DecidableEq, Repr

/-- A packet that waits at an output port or in a replay buffer: its lane, when it was put there, whether a slot miss has been
counted for it, and the flits after which a bad copy ends with STOMP (R404). -/
structure PortPkt extends RoutePkt where
  lane : Nat
  since : Nat
  missed : Bool
  stomp : Option Nat
deriving DecidableEq, Repr

/-- A packet in a replay buffer with the link sequences of its first and last flits (R403), and on a site port the place of its first
flit in the ring of the Cave (10 R469). -/
structure TxPkt where
  first : Nat
  last : Nat
  cave : Nat
  entry : PortPkt
deriving DecidableEq, Repr

/-- A packet whose flits are arriving on one lane: its header and payload length, the header's link sequence, the flits taken so
far, their data with the poison mark of each word, the CRC-32C over them, and whether its die has been given it already. -/
structure AsmPkt where
  hdr : Packet
  len : Nat
  start : Nat
  flits : Nat
  body : List Byte
  marks : List Bool
  crc : BitVec 32
  early : Bool
deriving DecidableEq, Repr

/-- A congestion map record (09 Table 9.14). The lists run Signal, Scheduled, Adaptive, Service. -/
structure CongRec where
  time : Nat
  port : Nat
  mode : Nat
  seq : BitVec 32
  slotMiss : Nat
  schedPause : Nat
  queued : List Nat
  queuedMax : List Nat
  paused : List Nat
  flits : List Nat
  rxOcc : Nat
  replays : Nat
  nonmin : Nat
  stomped : Nat
deriving DecidableEq, Repr

/-- A fabric port (08 R398, 09 R400-R416, R445-R453): its status object, the link layer, its output queues, and the
counts of the present congestion interval. -/
structure Port where
  state : Nat
  cause : Nat
  nbSerial : List Byte
  nbPort : Nat
  nbChip : Nat
  nbPlan : Nat
  nbFw : Option (Nat × Nat × Nat)
  runMinor : Nat
  flightNs : Nat
  pair : Nat
  logical : Nat
  service : Option (List Byte × Nat × Nat)
  lastFrame : Nat
  frame : Option IdFrame
  limitFrom : Option Nat
  trained : Bool
  lastTry : Nat
  frameSent : Option Nat
  sentFrame : Option IdFrame
  badFrames : Nat
  lanes : BitVec 8
  laneFailed : Bool
  seqMod : Nat
  txSeq : Nat
  rxSeq : Nat
  ackSent : Option Nat
  nakSent : Option (Nat)
  nakTold : Bool
  redo : Nat
  bufGen : Nat
  stopAll : Bool
  resends : Nat
  resendSeq : Option (Nat)
  replay : List TxPkt
  busyUntil : Nat
  signalUntil : Nat
  sending : Option (Nat × Nat)
  txOut : List Flit
  replayAlloc : Nat
  asm : Tab (Option AsmPkt)
  rxOcc : Tab Nat
  xoffSent : BitVec 10
  xoffRecv : BitVec 10
  creditLane : Tab Nat
  creditPool : Nat
  heldLane : Tab Nat
  owedLane : Tab Nat
  owedPool : Nat
  spent : Tab Nat
  returned : Nat
  received : Tab Nat
  drained : Tab Nat
  peerReceived : List Nat
  peerDrained : List Nat
  creditSent : Option Nat
  creditChecked : Option Nat
  creditWait : BitVec 10
  ctlOut : Option LinkCtl
  failHeld : List PortPkt
  out : List PortPkt
  rr : Tab Nat
  rrIn : Tab Nat
  tokens : Tab Nat
  tokenAt : Tab Nat
  held : List PortPkt
  limited : BitVec 32
  beaconSent : Option Nat
  beaconTimes : List Int
  beaconRecv : Int
  offset : Int
  nbStratum : Nat
  nbBound : Nat
  nbValid : Bool
  nbPrimary : Bool
  nbSite : Bool
  misses : Nat
  pauses : Nat
  flits : Tab Nat
  queuedMax : Tab Nat
  pausedNs : Tab Nat
  pausedFrom : Tab (Option Nat)
  replays : Nat
  nonmin : Nat
  stomped : Nat
  congSeq : BitVec 32
  congTime : Option Nat
  ring : List CongRec
  progress : BitVec 32
  schedActive : List (BitVec 32)
  schedShadow : List Byte
deriving DecidableEq, Repr

/-- A port after TRANSIT reset; port `c` reads LOGICAL `c` while `logical` is 0x3F (08 R398). -/
def Port.reset : Port :=
  { state := 0, cause := 0, nbSerial := [], nbPort := 0x3F, nbChip := 0xFFFF, nbPlan := 0, nbFw := none, runMinor := 0,
    flightNs := 0, pair := 0x3F, logical := 0x3F, service := none, lastFrame := 0, frame := none, limitFrom := none,
    trained := false, lastTry := 0, frameSent := none, sentFrame := none, badFrames := 0, lanes := 0, laneFailed := false, seqMod := 0x100000, txSeq := 0,
    rxSeq := 0, ackSent := none, nakSent := none, nakTold := false, redo := 0, bufGen := 0, stopAll := false, resends := 0, resendSeq := none, replay := [], busyUntil := 0,
    signalUntil := 0, sending := none, txOut := [], replayAlloc := 0, asm := [],
    rxOcc := [], xoffSent := 0, xoffRecv := 0, creditLane := [], creditPool := 0, heldLane := [], owedLane := [],
    owedPool := 0, spent := [], returned := 0, received := [], drained := [], peerReceived := [], peerDrained := [],
    creditSent := none, creditChecked := none, creditWait := 0, ctlOut := none, failHeld := [], out := [], rr := [], rrIn := [], tokens := [], tokenAt := [], held := [], limited := 0, beaconSent := none, beaconTimes := [], beaconRecv := 0,
    offset := 0, nbStratum := 0xFF, nbBound := 0, nbValid := false, nbPrimary := false, nbSite := false, misses := 0,
    pauses := 0, flits := [], queuedMax := [], pausedNs := [], pausedFrom := [], replays := 0, nonmin := 0, stomped := 0, congSeq := 0,
    congTime := none, ring := [], progress := 0, schedActive := [], schedShadow := [] }

/-- A flow context (09 Table 9.6). RX_MAP is a 1,024-bit map. From `sentAt` on the fields are what the die keeps beside the register
words: when each unacknowledged sequence was sent, the packets held in the reorder store with the times of their acceptance,
sequences that are missing since a refusal (06 R305), counted data packets above SEQ, tally writes that were accepted and never applied
(06 R308), the last ACK_SEQ received (R427), and what the next ACK is for. -/
structure Flow where
  valid : Bool
  sink : Bool
  cls : BitVec 2
  winEn : Bool
  site : Bool
  offSched : Bool
  err : BitVec 8
  peerChip : BitVec 16
  peerFlow : BitVec 14
  epoch : BitVec 8
  owner : CoreId
  schedId : BitVec 16
  window : BitVec 32
  seq : BitVec 32
  ackSeq : BitVec 32
  count : BitVec 32
  refusals : Nat
  discards : Nat
  bytes : Word
  returned : Word
  lastTime : BitVec 48
  rxMap : BitVec 1024
  sentAt : List (BitVec 32 × Nat)
  held : List Packet
  heldSince : List (BitVec 32 × Nat)
  missingSince : List (BitVec 32 × Nat)
  counted : List (BitVec 32)
  unapplied : List (BitVec 32)
  peerAck : BitVec 32
  ackPending : Bool
  ackAt : Nat
  ackBytes : Nat
  offSeen : Bool
  auditAt : Nat
deriving DecidableEq, Repr

def Flow.reset : Flow :=
  { valid := false, sink := false, cls := 0, winEn := false, site := false, offSched := false, err := 0, peerChip := 0,
    peerFlow := 0, epoch := 0, owner := 0, schedId := 0, window := 0, seq := 0, ackSeq := 0, count := 0, refusals := 0,
    discards := 0, bytes := 0, returned := 0, lastTime := 0, rxMap := 0, sentAt := [], held := [],
    heldSince := [], missingSince := [], counted := [], unapplied := [], peerAck := 0,
    ackPending := false, ackAt := 0, ackBytes := 0, offSeen := false, auditAt := 0 }

/-- An unflowed packet at its source die (09 R425, R426): sent or waiting, when it was last sent, and the wait before the
next resend. -/
structure Unflowed where
  pkt : Packet
  sent : Bool
  sentTime : Nat
  wait : Nat
deriving DecidableEq, Repr

/-- The source end of a stream: destination chip, next sequence (09 R425). -/
structure TxStream where
  chip : BitVec 16
  next : BitVec 32
deriving DecidableEq, Repr

/-- The sink end of a stream: source chip and die, lowest sequence not yet accepted, 64-bit map, Signal packets held until
they are in sequence (09 R425). -/
structure RxStream where
  chip : BitVec 16
  die : Die
  low : BitVec 32
  map : BitVec 64
  held : List Packet
deriving DecidableEq, Repr

/-- A tally write held in a die's tally hold queue (06 R303-R306). -/
structure HeldTally where
  flow : Nat
  pkt : Packet
  since : Nat
deriving DecidableEq, Repr

/-- A tally write at its source: not yet applied, when it was first sent, and when it was last refused (06 R305, R306). -/
structure SentTally where
  flow : Nat
  pkt : Packet
  firstSent : Nat
  refusedAt : Option Nat
deriving DecidableEq, Repr

/-- A flit that waits to be moved over an edge path to or from a Cave or a receive store (10 R469-R471): its address in HBM, and what is
written; none for a read. -/
structure SiteMove where
  off : Nat
  data : Option (List (Byte × Bool))
deriving DecidableEq, Repr

/-- One I/O die's part of the fabric (09 R374, R421, R425, R426; 06 R304; 01 R68). Its discard counts are those of R68,
R408, R410, R425 and R815. -/
structure DieSt where
  toRoute : List RoutePkt
  moves : List SiteMove
  tx : List TxStream
  rx : List RxStream
  store : List Unflowed
  holds : List HeldTally
  inbound : Tab RatEntry
  discAddress : Nat
  discKind : Nat
  discHops : Nat
  discStream : Nat
  discUnreachable : Nat
deriving DecidableEq, Repr

def DieSt.reset : DieSt :=
  { toRoute := [], moves := [], tx := [], rx := [], store := [], holds := [], inbound := [], discAddress := 0, discKind := 0,
    discHops := 0, discStream := 0, discUnreachable := 0 }

/-- A port entry of a plan (08 Table 8.6). -/
structure PlanEntry where
  use : Nat
  peerPort : Nat
  peerChip : Nat
  length : Nat
  peerSerial : List Byte
deriving DecidableEq, Repr

/-- A cabling plan as checked (08 R383): its bytes, identifier, this package's numbers, and per port its use and peer. -/
structure Plan where
  blob : List Byte
  id : Nat
  chip : Nat
  group : Nat
  member : Nat
  entries : List PlanEntry
  signer : List Byte
deriving DecidableEq, Repr

/-- What has been performed at its home of a packet that has arrived and not yet acted as a whole (05 R258, R259): the bytes of each line
that have been written, and the lines that have been read. -/
structure EarlyPkt where
  pkt : Packet
  landed : Tab (BitVec 64)
  read : Tab (List (Byte × Bool))
deriving DecidableEq, Repr

/-- Fabric identity, plan, route table and transport (08, 09). -/
structure FabSt where
  chip : BitVec 16
  group : BitVec 16
  member : BitVec 8
  degraded : BitVec 8
  epoch : BitVec 32
  planBlob : List Byte
  signer : List Byte
  planSigner : List Byte
  planId : Nat
  plan : Option Plan
  planCause : Nat
  swaps : List (Nat × Nat)
  planEpoch : BitVec 32
  routes : Tab Word
  shadow : Tab Word
  shadowPlan : Nat
  activePlan : Nat
  routeCause : Nat
  routeEpoch : BitVec 32
  flashRoutes : Option (Tab Word × Nat)
  ports : Tab Port
  flows : Tab Flow
  west : DieSt
  east : DieSt
  arrived : List RoutePkt
  early : List EarlyPkt
  sentTallies : List SentTally
deriving DecidableEq, Repr

def FabSt.reset : FabSt :=
  { chip := 0xFFFF, group := 0, member := 0, degraded := 1, epoch := 0, planBlob := [], signer := [], planSigner := [],
    planId := 0, plan := none, planCause := 0, swaps := [], planEpoch := 0, routes := [], shadow := [], shadowPlan := 0,
    activePlan := 0, routeCause := 0, routeEpoch := 0, flashRoutes := none, ports := [], flows := [],
    west := DieSt.reset, east := DieSt.reset, arrived := [], early := [], sentTallies := [] }

/-- Fabric time (09 R431-R435). The error bound is in ns. -/
structure TimeSt where
  role : Nat
  state : Nat
  stratum : Nat
  parent : Nat
  bound : Nat
  limit : Nat
  epoch : BitVec 32
  noParentSince : Option Nat
  noPrimarySince : Option Nat
  slewAt : Nat
deriving DecidableEq, Repr

def TimeSt.reset : TimeSt :=
  { role := 0, state := 0, stratum := 0xFF, parent := 0x3F, bound := 0, limit := 20, epoch := 0,
    noParentSince := none, noPrimarySince := none, slewAt := 0 }

/-- Schedule control (09 R443). -/
structure SchedSt where
  shadowId : Word
  slots : Nat
  start : Word
  activeId : Word
  activeSlots : Nat
  activeStart : Int
  active : Bool
  armed : Option (Word × Nat × Word)
  misses : Word
  violations : Word
  epoch : BitVec 32
deriving DecidableEq, Repr

def SchedSt.reset : SchedSt :=
  { shadowId := 0, slots := 0, start := 0, activeId := 0, activeSlots := 0, activeStart := 0, active := false,
    armed := none, misses := 0, violations := 0, epoch := 0 }

/-- Congestion map control (09 R453). -/
structure CongSt where
  enable : Nat
  samples : Nat
  tick : BitVec 32
deriving DecidableEq, Repr

def CongSt.reset : CongSt := { enable := 1, samples := 0, tick := 0 }

/-- What flash A and flash B hold of the persistent values, as last programmed (15 R647; 12 R577; 14 R620): a write that
still waits for its program step is not in it. `mode`, `fixedMhz` and `windowMs` are as written, even where they still wait to take
effect. -/
structure Flashed where
  rackCap : Nat
  window : Nat
  hostCap : Nat
  rackOrder : Nat
  hold : Nat
  mode : Nat
  fixedMhz : Nat
  boostEn : Nat
  timeRole : Nat
  marks : Tab Nat
  masked : Tab Bool
  isolations : BitVec 32
  media : BitVec 8
  anchorOwner : List Byte
  anchorRack : List Byte
  anchorHost : List Byte
  anchorObserver : List Byte
  server : List Byte
  fabricFetch : Nat
  locked : Bool
  lockAnchor : List Byte
  controlOwner : Nat
  windowMs : Nat
  reasons : BitVec 32
  firstNs : Nat
  raised : BitVec 32
  planBlob : List Byte
  planSigner : List Byte
  signer : List Byte
  swaps : List (Nat × Nat)
  asymmetry : Tab Int
  moduleNs : Tab Nat
  retire : Tab (BitVec 32)
  bins : Tab Nat
  residue : List Int
  lastSave : Nat
  routes : Option (Tab Word × Nat)
deriving DecidableEq, Repr

def Flashed.reset : Flashed :=
  { rackCap := PowSt.reset.rackCap, window := PowSt.reset.window, hostCap := PowSt.reset.hostCap,
    rackOrder := PowSt.reset.rackOrder, hold := PowSt.reset.hold, mode := PowSt.reset.mode,
    fixedMhz := PowSt.reset.fixedMhz, boostEn := PowSt.reset.boostEn, timeRole := TimeSt.reset.role, marks := [],
    masked := [], isolations := 0, media := 0, anchorOwner := [], anchorRack := [], anchorHost := [],
    anchorObserver := [], server := FwSt.reset.server, fabricFetch := FwSt.reset.fabricFetch,
    locked := FwSt.reset.locked, lockAnchor := FwSt.reset.lockAnchor, controlOwner := CounterSt.reset.controlOwner,
    windowMs := FaultSt.reset.windowMs, reasons := 0, firstNs := 0, raised := 0, planBlob := [], planSigner := [],
    signer := [], swaps := [], asymmetry := [], moduleNs := [], retire := [], bins := [], residue := [],
    lastSave := 0, routes := none }

/-- The state of the package. `pending` is the queue of waiting commands, first in, first out. The model's own fields,
which the spec does not name: `now` (ns since AUX power-up), `runNow` (ns not parked, for 11 R533), `freeCount` (the
counter that free values are drawn with) and `lastAnswer`. -/
structure State where
  pending : List Instr
  now : Nat
  runNow : Nat
  freeCount : Nat
  ftime : Int
  mem : Memory
  poison : Tab Bool
  uncorrectable : Tab Bool
  cellErrs : Tab Nat
  symbolErrs : Tab Nat
  cores : Tab Core
  regions : Tab Region
  barriers : BarrierSt
  dieMsgs : List (Die × OutMsg)
  org : OrgSt
  job : JobSt
  counters : CounterSt
  faults : FaultSt
  pow : PowSt
  fab : FabSt
  hbm : HbmSt
  oap : OapSt
  therm : ThermSt
  tray : TraySt
  flashed : Flashed
  start : StartSt
  site : SiteSt
  rind : RindSt
  fw : FwSt
  time : TimeSt
  sched : SchedSt
  cong : CongSt
deriving DecidableEq, Repr

/-- The package right after AUX power-up, before start-up has begun (14 R614). -/
def State.reset : State :=
  { pending := [], now := 0, runNow := 0, freeCount := 0, ftime := 0, mem := [], poison := [], uncorrectable := [], cellErrs := [], symbolErrs := [],
    cores := [], regions := [], barriers := BarrierSt.reset, dieMsgs := [], org := OrgSt.reset,
    job := JobSt.reset, counters := CounterSt.reset, faults := FaultSt.reset,
    pow := PowSt.reset, fab := FabSt.reset, hbm := HbmSt.reset,
    oap := OapSt.reset, therm := ThermSt.reset, tray := TraySt.reset,
    flashed := Flashed.reset, start := StartSt.reset,
    site := SiteSt.reset, rind := RindSt.reset, fw := FwSt.reset, time := TimeSt.reset, sched := SchedSt.reset,
    cong := CongSt.reset }

end Sys2Proof.Machine
end

