-- ==== Sys2Proof/Machine/Table.lean ====
section
/-! DEFINITION. Sparse tables in their one canonical form (memory among them): read, write, form. -/
namespace Sys2Proof.Machine

/-- The value at a key; `d` where the table lists none. -/
def Tab.get {α : Type} (d : α) : Tab α → Nat → α
  | [], _ => d
  | (k, v) :: t, n => if n = k then v else Tab.get d t n

/-- The table without key `n`. -/
def Tab.erase {α : Type} (t : Tab α) (n : Nat) : Tab α := t.filter (fun e => decide (e.1 ≠ n))

/-- The table with `x` at key `n`, in its place among rising keys. -/
def Tab.insert {α : Type} : Tab α → Nat → α → Tab α
  | [], n, x => [(n, x)]
  | (k, v) :: t, n, x =>
    if n < k then (n, x) :: (k, v) :: t
    else if n = k then (n, x) :: t
    else (k, v) :: Tab.insert t n x

/-- Writes `x` at key `n`, keeping the keys rising; writing the default removes the entry. -/
def Tab.put {α : Type} [DecidableEq α] (d : α) (t : Tab α) (n : Nat) (x : α) : Tab α :=
  if x = d then Tab.erase t n else Tab.insert t n x

/-- Writes the result of `f` on the value at key `n`. -/
def Tab.modify {α : Type} [DecidableEq α] (d : α) (t : Tab α) (n : Nat) (f : α → α) : Tab α :=
  Tab.put d t n (f (Tab.get d t n))

/-- Keys above `b` rise strictly, and no entry holds the default. -/
def Tab.wfFrom {α : Type} [DecidableEq α] (d : α) : Option Nat → Tab α → Bool
  | _, [] => true
  | b, (k, v) :: t =>
    (match b with | none => true | some m => decide (m < k)) && decide (v ≠ d) && Tab.wfFrom d (some k) t

/-- The canonical form of a table. -/
def Tab.wf {α : Type} [DecidableEq α] (d : α) (t : Tab α) : Bool := Tab.wfFrom d none t

/-- The canonical form of memory: keys rising, no byte equal to 0, which an unlisted byte reads as (log 2). -/
def Memory.wf (m : Memory) : Bool := Tab.wf (0 : Byte) m

/-- One byte of memory. -/
def Memory.byte (m : Memory) (a : Nat) : Byte := Tab.get 0 m a

/-- Writes one byte of memory. -/
def Memory.setByte (m : Memory) (a : Nat) (b : Byte) : Memory := Tab.put (0 : Byte) m a b

/-- `n` bytes from `a` up. -/
def Memory.read (m : Memory) (a : Nat) : Nat → List Byte
  | 0 => []
  | n + 1 => Memory.byte m a :: Memory.read m (a + 1) n

/-- Writes bytes from `a` up. -/
def Memory.write (m : Memory) (a : Nat) : List Byte → Memory
  | [] => m
  | b :: bs => Memory.write (Memory.setByte m a b) (a + 1) bs

/-- Writes the bytes whose mask bit is set, from `a` up. -/
def Memory.writeMasked (m : Memory) (a : Nat) : List (Byte × Bool) → Memory
  | [] => m
  | (b, w) :: bs => Memory.writeMasked (if w then Memory.setByte m a b else m) (a + 1) bs

/-- Fills `n` bytes from `a` up with free bytes drawn from `k` up: contents that the spec calls undefined. -/
def Memory.havoc (m : Memory) (a k : Nat) : Nat → Memory
  | 0 => m
  | n + 1 => Memory.havoc (Memory.setByte m a (Config.freeByte k)) (a + 1) (k + 1) n

/-- The entries whose key `p` keeps. -/
def Tab.filterKeys {α : Type} (p : Nat → Bool) (t : Tab α) : Tab α := t.filter (fun e => p e.1)

/-- Replaces every listed value, dropping those that become the default. -/
def Tab.mapVals {α : Type} [DecidableEq α] (d : α) (f : α → α) (t : Tab α) : Tab α :=
  (t.map (fun e => (e.1, f e.2))).filter (fun e => decide (e.2 ≠ d))

/-- The little-endian value of a list of bytes. -/
def leValue : List Byte → Nat
  | [] => 0
  | b :: bs => b.toNat + 256 * leValue bs

/-- The `n` little-endian bytes of a value. -/
def leBytes : Nat → Nat → List Byte
  | 0, _ => []
  | n + 1, v => BitVec.ofNat 8 v :: leBytes n (v / 256)

/-- The first element that `p` accepts, and the list without it. -/
def takeFirst {α : Type} (p : α → Bool) : List α → Option (α × List α)
  | [] => none
  | x :: xs =>
    if p x then some (x, xs)
    else match takeFirst p xs with
      | none => none
      | some (y, ys) => some (y, x :: ys)

/-- Replaces by `f` every element that `p` accepts. -/
def mapIf {α : Type} (p : α → Bool) (f : α → α) (l : List α) : List α :=
  l.map (fun x => if p x then f x else x)

/-- Adds to a count that holds at `cap`. -/
def satAdd (cap n k : Nat) : Nat := Nat.min cap (n + k)

end Sys2Proof.Machine
end

