-- ==== Sys2Proof/Machine/Grid.lean ====
section
/-! DEFINITION. The grid: logical cores, regions, row segments, physical cores and gate positions (00 R14, R15;
01 R28-R32, R788; 11 R541). -/
namespace Sys2Proof.Machine

def coreRow (c : CoreId) : Nat := c.toNat / 32
def coreCol (c : CoreId) : Nat := c.toNat % 32

/-- The region of a logical core (R15). -/
def coreRegion (c : CoreId) : Nat := 4 * (coreRow c / 8) + coreCol c / 8

/-- First physical column of a band in a row (Table 1.4). -/
def bandStart (row band : Nat) : Nat :=
  match band with
  | 0 => 0
  | 1 => if row % 2 = 0 then 9 else 8
  | 2 => 17
  | _ => if row % 2 = 0 then 26 else 25

/-- Physical cores of a band in a row (Table 1.4). -/
def bandWidth (row band : Nat) : Nat := if row % 2 = band % 2 then 9 else 8

/-- Column of the hidden core of a 9-core segment that holds no defect (R31). -/
def defaultHidden (row band : Nat) : Nat := bandStart row band + 8

/-- The physical column that a 9-core segment hides. -/
def OrgSt.hiddenCol (o : OrgSt) (row band : Nat) : Nat :=
  Tab.get (defaultHidden row band) o.hidden (row * 4 + band)

/-- The physical column of a logical core: the cores that are not hidden take the logical columns in order (R30). -/
def OrgSt.physCol (o : OrgSt) (c : CoreId) : Nat :=
  let row := coreRow c
  let band := coreCol c / 8
  let p := bandStart row band + coreCol c % 8
  if bandWidth row band = 9 ∧ o.hiddenCol row band ≤ p then p + 1 else p

/-- The physical index 34 x row + column (02 Table 2.3). -/
def OrgSt.physIndex (o : OrgSt) (c : CoreId) : Nat := 34 * coreRow c + o.physCol c

/-- The column band of a physical column in a row (Table 1.4). -/
def physBand (row col : Nat) : Nat :=
  if col < bandStart row 1 then 0 else if col < 17 then 1 else if col < bandStart row 3 then 2 else 3

/-- The region of a physical core, given by its index (R48). -/
def physRegion (phys : Nat) : Nat := 4 * (phys / 34 / 8) + physBand (phys / 34) (phys % 34)

/-- Gate and reset position of a physical core in its region (R541). -/
def gatePosition (row col : Nat) : Nat :=
  let band := physBand row col
  let r := row % 8
  let even := if band % 2 = 0 then 9 else 8
  (r / 2) * 17 + (r % 2) * even + (col - bandStart row band)

/-- The gate position of a logical core. -/
def OrgSt.position (o : OrgSt) (c : CoreId) : Nat := gatePosition (coreRow c) (o.physCol c)

/-- The logical core at a gate position of a region, if one is. -/
def OrgSt.coreAt (o : OrgSt) (region pos : Nat) : Option CoreId :=
  ((List.range 1024).map (BitVec.ofNat 10)).find? (fun c => coreRegion c = region && o.position c = pos)

/-- Capacity code of a logical core: 0 present, 1 failed, 2 absent (Table 1.13). -/
def OrgSt.capCode (o : OrgSt) (c : CoreId) : Nat := Tab.get 0 o.capacity c.toNat

def OrgSt.present (o : OrgSt) (c : CoreId) : Bool := o.capCode c = 0

/-- The logical cores of a region. -/
def regionAll (region : Nat) : List CoreId :=
  (List.range 64).map (fun i =>
    BitVec.ofNat 10 (32 * (8 * (region / 4) + i / 8) + 8 * (region % 4) + i % 8))

/-- The gates that the part record gives a region (11 Table 11.14): on where a logical core is, unless it is absent; a hidden
core is held powered off (R33). -/
def OrgSt.recordGates (o : OrgSt) (region : Nat) : BitVec 68 :=
  (regionAll region).foldl (fun (m : BitVec 68) c => if o.capCode c = 2 then m else m ||| (1 <<< o.position c)) 0

/-- The shift selectors of a segment as its hidden core asks for them (R34). -/
def OrgSt.segSelectors (o : OrgSt) (row band : Nat) : BitVec 8 :=
  (List.range 8).foldl (fun (m : BitVec 8) i =>
    if bandWidth row band = 9 ∧ o.hiddenCol row band ≤ bandStart row band + i then m ||| (1 <<< i) else m) 0

def allCores : List CoreId := (List.range 1024).map (BitVec.ofNat 10)

/-- The present cores of a region. -/
def OrgSt.regionCores (o : OrgSt) (region : Nat) : List CoreId :=
  allCores.filter (fun c => coreRegion c = region && o.present c)

/-! ## The two copies of the part record (R38-R44) -/

/-- Some copy's factory body verifies (R40). -/
def OrgSt.anyBody (o : OrgSt) : Bool := o.copyA.bodyOk || o.copyB.bodyOk

/-- A copy that can govern: its signatures over body and appendix verify. -/
def RecordCopy.valid (x : RecordCopy) : Bool := x.bodyOk && x.appOk

/-- The sequence number of a copy's last entry. -/
def RecordCopy.seq (x : RecordCopy) : Nat :=
  match x.entries.getLast? with
  | some e => e.seq
  | none => 0

def OrgSt.copiesEqual (o : OrgSt) : Bool := o.copyA.valid && o.copyB.valid && decide (o.copyA = o.copyB)

/-- The copy that governs: of those that verify, the one whose appendix has the higher sequence number (R39). Of two valid copies with
one sequence number that differ, such as appendices that different islands signed, the spec names no winner: copy A governs
(DESIGN CHOICE, log 123). -/
def OrgSt.governing (o : OrgSt) : Option RecordCopy :=
  if o.copyA.valid && (!o.copyB.valid || decide (o.copyB.seq ≤ o.copyA.seq)) then some o.copyA
  else if o.copyB.valid then some o.copyB else none

/-- The place of an entry's kind in Table 1.6. -/
def AppKind.code : AppKind → Nat
  | .core => 0
  | .spare => 1
  | .region => 2
  | .hbmChannel => 3
  | .hbmRow => 4

def AppEntry.flat (e : AppEntry) : List Nat := [e.seq, e.time, e.kind.code, e.location, e.cause]

/-- A list of numbers, led by its length. -/
def counted (l : List Nat) : List Nat := l.length :: l

def countedBytes (l : List Byte) : List Nat := counted (l.map (fun b => b.toNat))

/-- All that a copy holds beside the factory body. -/
def RecordCopy.flat (x : RecordCopy) : List Nat :=
  counted (x.entries.flatMap AppEntry.flat) ++ counted (x.hidden.flatMap (fun e => [e.1, e.2])) ++ countedBytes x.ed25519 ++
    countedBytes x.mldsa

/-- All that the factory body holds. -/
def PartRecord.flat (p : PartRecord) : List Nat :=
  [p.variant, p.hbmFitted.toNat, p.opticalPorts.toNat, p.siteCapable.toNat, p.lifeARef, p.lifeN, p.lifeNRef] ++
    countedBytes p.serial ++ countedBytes p.assemblyVersion ++ countedBytes p.factoryVersion ++ counted p.defects ++
    counted (p.hidden.flatMap (fun e => [e.1, e.2])) ++ counted p.hbmRepair ++ countedBytes p.calibration ++
    countedBytes p.signatures ++ counted p.thermalCoef ++ counted p.lifeM

/-- RECORD of object 0x1011: the governing copy, or with no valid appendix the factory body alone (R41). -/
def OrgSt.recordBytes (o : OrgSt) : List Byte :=
  Config.partRecord (o.record.flat ++ (match o.governing with | some x => x.flat | none => []))

/-- The appendix with the two signatures of the island that signs it: Rind A's or Rind B's (Table 1.6). -/
def RecordCopy.sign (x : RecordCopy) (byA : Bool) : RecordCopy :=
  let island := if byA then 1 else 2
  let digest := Config.sha384 (Config.appendixBytes (x.entries.flatMap AppEntry.flat))
  { x with appOk := true, signedByA := byA, ed25519 := Config.signEd25519 island digest, mldsa := Config.signMldsa island digest }

/-- The entries of the field appendix. -/
def OrgSt.appendix (o : OrgSt) : List AppEntry :=
  match o.governing with
  | some x => x.entries
  | none => []

/-- FIELD_FREE. -/
def OrgSt.fieldFree (o : OrgSt) : Nat := 4096 - o.appendix.length

/-- Copy A holds an entry that copy B does not hold yet. -/
def OrgSt.behindB (o : OrgSt) : Bool := o.copyA.valid && (!o.copyB.valid || decide (o.copyB.seq < o.copyA.seq))

/-- Entries that no copy holds yet. -/
def OrgSt.unwritten (o : OrgSt) : Nat := o.pendingEntries.length - (if o.behindB then 1 else 0)

/-- The physical cores that the factory body and the entries of a copy name as defective. -/
def OrgSt.recordDefects (o : OrgSt) (es : List AppEntry) : List Nat :=
  o.record.defects ++ (es.filter (fun e => e.kind = .core || e.kind = .spare)).map (fun e => e.location)

/-- The grid of a part record: its defects, the cores that it hides and the logical cores that it leaves absent. A segment that
names no recorded defect hides its eastmost core (R31, R44). -/
def OrgSt.applyRecord (o : OrgSt) (es : List AppEntry) (hid : Tab Nat) : OrgSt :=
  let d := o.recordDefects es
  let o1 := { o with defects := d, hidden := hid.filter (fun e => d.contains (34 * (e.1 / 4) + e.2)) }
  { o1 with capacity := allCores.filterMap (fun c => if d.contains (o1.physIndex c) then some (c.toNat, 2) else none) }

/-- The remap of one segment (R31, R32, R45, R46, R788): given its defective columns, the column it hides. A hidden core
that is defective stays hidden; otherwise one defect, or the eastmost of several, is hidden. -/
def remapHidden (row band hiddenNow : Nat) (defects : List Nat) : Nat :=
  if bandWidth row band ≠ 9 then hiddenNow
  else if defects.contains hiddenNow then hiddenNow
  else match defects.foldl Nat.max 0, defects with
    | _, [] => hiddenNow
    | e, _ => e

end Sys2Proof.Machine
end

