-- ==== Sys2Proof/Machine/Flags.lean ====
section
/-! DEFINITION. The status bits that commands leave behind in a core: the counters of the counter page with their OVF
bits and samples (18 R770-R775), and pending interrupts (02 R153). The cores have no condition flags. -/
namespace Sys2Proof.Machine

/-- Fields of a counter control word CTLn (18 Table 18.1). -/
def ctlEn (w : Word) : Bool := w.getLsbD 63
def ctlEdge (w : Word) : Bool := w.getLsbD 62
def ctlCascade (w : Word) : Bool := w.getLsbD 61
def ctlInt (w : Word) : Bool := w.getLsbD 60
def ctlInJob (w : Word) : Bool := w.getLsbD 59
def ctlInRuntime (w : Word) : Bool := w.getLsbD 58
def ctlEvent (w : Word) : Nat := (w.extractLsb' 0 12).toNat

/-- Events that Table 18.3 marks precise. -/
def eventPrecise (ev : Nat) : Bool := [0x021, 0x030, 0x031, 0x032, 0x035, 0x036, 0x037].contains ev

/-- Whether counter `n` of a page counts in a mode (R770). -/
def Pmu.counts (p : Pmu) (m : Mode) (n : Nat) : Bool :=
  let w := Tab.get 0 p.ctl n
  ctlEn w && !p.freeze && !p.abortFrozen && (match m with | .job => ctlInJob w | .runtime => ctlInRuntime w)

/-- What the counters have done so far in one cycle: the page, whether the counter below overflowed, and the lowest
counter with INT set that overflowed (R771, R772). -/
structure PmuScan where
  pmu : Pmu
  below : Bool
  lowest : Option Nat
deriving DecidableEq, Repr

/-- Counter `n` adds `amount`, wraps past 2^48 - 1, sets OVF, FREEZE under FREEZE_ON_OVF, and takes a sample of a precise
event (R772, R774). -/
def PmuScan.add (sc : PmuScan) (n amount : Nat) (precise : Bool) (pc addr : Word) : PmuScan :=
  let p := sc.pmu
  let total := (Tab.get 0 p.cnt n).toNat + amount
  let above := 2 ^ 48 ≤ total
  let int := ctlInt (Tab.get 0 p.ctl n)
  let p1 := { p with cnt := Tab.put 0 p.cnt n (BitVec.ofNat 48 total) }
  if above then
    let p2 := { p1 with ovf := p1.ovf ||| (1 <<< n) }
    let p3 := if int && p2.freezeOnOvf then { p2 with freeze := true } else p2
    let p4 :=
      if int && precise && !p3.sampleValid then
        { p3 with samplePc := pc, sampleAddr := addr, sampleCnt := BitVec.ofNat 3 n, sampleValid := true }
      else p3
    { pmu := p4, below := true,
      lowest := match sc.lowest with | some l => some l | none => if int then some n else none }
  else { sc with pmu := p1, below := false }

/-- One counter's turn at an event: a cascaded counter adds the overflow below it (R771), any other its event's count, or
1 under EDGE (R770). -/
def PmuScan.visit (sc : PmuScan) (frozen : Pmu) (m : Mode) (ev amount : Nat) (pc addr : Word) (n : Nat) : PmuScan :=
  let w := Tab.get 0 frozen.ctl n
  if Pmu.counts frozen m n then
    if ctlCascade w && n ≠ 0 then
      if sc.below then PmuScan.add sc n 1 false pc addr else { sc with below := false }
    else if ctlEvent w = ev ∧ amount ≠ 0 then
      PmuScan.add sc n (if ctlEdge w then 1 else amount) (eventPrecise ev) pc addr
    else { sc with below := false }
  else { sc with below := false }

/-- Sets an interrupt pending, with the value that TRAP_ADDR takes (02 Table 2.11). Bit `n` is cause 0x20 + n. Raised again before
it is taken, it keeps the value of the last raise (DESIGN CHOICE, log 102). -/
def Core.setInt (k : Core) (n : Nat) (addr : Word) : Core :=
  { k with intPending := k.intPending ||| (1 <<< n), intAddr := Tab.put 0 k.intAddr n addr }

/-- Counts `amount` of event `ev` in every programmable counter of the core; an overflow of a counter with INT set raises
interrupt 0x22 with the lowest such number (18 R770-R774). -/
def Core.count (k : Core) (ev amount : Nat) (pc addr : Word) : Core :=
  let sc := (List.range 8).foldl (fun sc n => PmuScan.visit sc k.pmu k.mode ev amount pc addr n)
    { pmu := k.pmu, below := false, lowest := none }
  let k1 := { k with pmu := sc.pmu }
  match sc.lowest with
  | some n => k1.setInt 2 (BitVec.ofNat 64 n)
  | none => k1

/-- The instruction counts as retired: CORE_PROGRESS (16 Table 16.5), events 0x002 and 0x010 (18 Table 18.3). -/
def Core.retired (k : Core) (pc : Word) : Core :=
  let k1 := { k with coreProgress := k.coreProgress + 1 }
  (k1.count 0x002 1 pc 0).count 0x010 1 pc 0

/-- The instruction at pc issues and retires: pc moves past it. -/
def Core.retire (k : Core) : Core :=
  let pc := k.pc
  ({ k with pc := k.pc + 4, stall := .none }).retired pc

/-- What CINV.RANGE dropped stays dropped: a fence, ACQINV, TWAIT or BARRIER retires after it, and before a younger load is performed
(02 R107, R110; 05 R272). -/
def Core.settleDrops (k : Core) : Core := { k with late := [] }

/-- The instruction issues and will retire later, when its data returns. -/
def Core.advance (k : Core) : Core := { k with pc := k.pc + 4, stall := .none }

/-- An enabled interrupt is pending. -/
def Core.intReady (k : Core) : Bool := decide (k.intPending &&& k.intEnable ≠ 0)

/-- A WFI retires once an enabled interrupt is pending (02 R147). -/
def Core.wake (k : Core) : Core :=
  match k.stall with
  | .wfi => if k.intReady then k.retire else k
  | _ => k

/-- Raises an interrupt at a core: pending, and the end of a WFI when it is enabled (02 R147, R153). -/
def Core.raiseInt (k : Core) (n : Nat) (addr : Word) : Core := (k.setInt n addr).wake

/-- A TWAIT retires once its tally has reached its target, by signed 32-bit difference (02 R140). -/
def Core.checkTwait (k : Core) : Core :=
  match k.stall with
  | .twait rd t target _ =>
    let v := Tab.get 0 k.tallies t.toNat
    if (v - target).msb then k
    else
      let g := if rd = 0 then k.g else k.g.set rd.toNat (v.setWidth 64) (by omega)
      ({ k with g := g }).retire
  | _ => k

/-- Adds to a tally modulo 2^32 (06 R300); a TWAIT that this meets retires. -/
def Core.addTally (k : Core) (t : Nat) (n : BitVec 32) : Core :=
  ({ k with tallies := Tab.put 0 k.tallies t (Tab.get 0 k.tallies t + n) }).checkTwait

/-- Sets a tally, as a store by the owning core does (06 R300). -/
def Core.setTally (k : Core) (t : Nat) (v : BitVec 32) : Core :=
  ({ k with tallies := Tab.put 0 k.tallies t v }).checkTwait

end Sys2Proof.Machine
end

