-- ==== Sys2Proof/Machine/Ops.lean ====
section
/-! DEFINITION. The named operations over cores, registers, memory and the address map that the meanings share, taking a
trap or an interrupt as one operation with the return from one beside it, fault records, and the abort of a job. -/
namespace Sys2Proof.Machine

abbrev Out := Host.Outcome State Fault Refusal

/-! ## Cores and regions -/

def State.core (s : State) (c : CoreId) : Core := Tab.get Core.reset s.cores c.toNat

def State.setCore (s : State) (c : CoreId) (k : Core) : State :=
  { s with cores := Tab.put Core.reset s.cores c.toNat k }

def State.modCore (s : State) (c : CoreId) (f : Core → Core) : State := s.setCore c (f (s.core c))

/-- Applies `f` to each core of a list. -/
def State.modCores (s : State) (cs : List CoreId) (f : CoreId → Core → Core) : State :=
  cs.foldl (fun s c => s.modCore c (f c)) s

def State.region (s : State) (r : Nat) : Region := Tab.get Region.reset s.regions r

def State.setRegion (s : State) (r : Nat) (x : Region) : State :=
  { s with regions := Tab.put Region.reset s.regions r x }

def State.modRegion (s : State) (r : Nat) (f : Region → Region) : State := s.setRegion r (f (s.region r))

/-- The core's gate is on and its region serves it (01 R33, R49; 11 R541). -/
def State.corePowered (s : State) (c : CoreId) : Bool :=
  (s.region (coreRegion c)).risen && (s.region (coreRegion c)).on.getLsbD (s.org.position c)

/-- The core's windows answer (01 R67, 11 R543): it is present, and its gate is on. -/
def State.coreServes (s : State) (c : CoreId) : Bool := s.org.present c && s.corePowered c

/-- The core's CORE and REGION domains are out of reset. -/
def State.coreAlive (s : State) (c : CoreId) : Bool :=
  s.coreServes c && !(s.core c).coreInReset && !(s.region (coreRegion c)).inReset

/-- The core's region is parked, or waits to be released after a park (11 R531, R532). -/
def State.regionParked (s : State) (c : CoreId) : Bool := s.pow.parked.getLsbD (coreRegion c)

/-- The core executes: alive, RUN set, HALTED clear, package not parked (02 R77, 11 R531). -/
def State.coreRuns (s : State) (c : CoreId) : Bool :=
  s.coreAlive c && (s.core c).run && !(s.core c).halted && !s.regionParked c

/-- FTIME of a core, its region's fabric-time register (02 Table 2.3; 01 Table 1.10: it lags fabric time by at most
3 ns, modelled as 0, log 5). -/
def State.ftimeWord (s : State) : Word := BitVec.ofInt 64 s.ftime

/-- A fresh free value (log 6). -/
def State.drawFree (s : State) : Nat × State :=
  (Config.freeNat s.freeCount, { s with freeCount := s.freeCount + 1 })

/-- A step of the ceiling toward 1. -/
def Region.stepCeiling (r : Region) : Region :=
  { r with ceiling := Nat.min r.ceiling (Nat.max 1 (r.ceiling - 1)), ceilFall := decide (2 < r.ceiling), ceilRise := false,
           ceilStep := r.cycles }

/-- A step of the ceiling toward 8; further ones follow 512 array cycles apart (03 R194; 11 R499). -/
def Region.riseCeiling (r : Region) : Region :=
  { r with ceiling := Nat.min 8 (r.ceiling + 1), ceilRise := decide (r.ceiling < 7), ceilStep := r.cycles }

/-- The rise under way: it goes on while the region holds its place (11 R517). -/
def Region.rises (r : Region) : Region :=
  if r.ceilRise && r.rising && !r.ceilFall && decide (r.ceilStep + 512000 ≤ r.cycles) &&
      decide (r.cycles < r.riseStart + 3584000) then r.riseCeiling
  else r

/-- A step of 25 MHz of the clock toward 800 MHz. -/
def Region.stepDown (r : Region) : Region :=
  { r with current := Nat.max 800 (r.current - 25), target := 800, clockFall := decide (825 < r.current), clockWait := 200 }

/-- The ceiling begins to fall to 1, a level per 512 array cycles, the first at once (11 R498, Table 11.8). -/
def Region.fallCeiling (r : Region) : Region :=
  if r.ceilFall || decide (r.ceiling ≤ 1) then { r with ceilRise := false } else r.stepCeiling

/-- The clock begins to fall to 800 MHz, a step per 200 ns, the first at once (11 Table 11.8). -/
def Region.fallClock (r : Region) : Region := if r.clockFall || decide (r.current ≤ 800) then r else r.stepDown

/-- The lowest operating state begins (11 Table 11.2, Table 11.8). -/
def Region.fallLowest (r : Region) : Region := r.fallCeiling.fallClock

/-- The falls under way over 1 ns. -/
def Region.falls (r : Region) : Region :=
  let r1 := if r.ceilFall && decide (r.ceilStep + 512000 ≤ r.cycles) then r.stepCeiling else r
  if !r1.clockFall then r1
  else if r1.clockWait ≤ 1 then r1.stepDown
  else { r1 with clockWait := r1.clockWait - 1 }

/-- A region over 1 ns: its clock, which runs at two thirds while it is stretched (11 R514), and the falls and the rise under
way. -/
def Region.tick (r : Region) : Region :=
  Region.rises <| Region.falls
    (if r.risen then { r with cycles := r.cycles + (if r.stretching then r.current * 2 / 3 else r.current) } else r)

/-! ## Registers -/

/-- A general register; g0 reads as zero (02 R73). -/
def Core.getG (k : Core) (r : Reg) : Word := if r = 0 then 0 else k.g[r.toNat]'(by omega)

/-- Writes a general register; a write to g0 is discarded (02 R73). -/
def Core.setG (k : Core) (r : Reg) (v : Word) : Core :=
  if r = 0 then k else { k with g := k.g.set r.toNat v (by omega) }

def Core.getV (k : Core) (r : Reg) : VWord := k.v[r.toNat]'(by omega)

def Core.setV (k : Core) (r : Reg) (v : VWord) : Core := { k with v := k.v.set r.toNat v (by omega) }

/-- The stochastic streams (04 R221). -/
def streamSeed (job : Word) (c : CoreId) (sel : Nat) : Word :=
  let z0 := job + 0x9E3779B97F4A7C15 * BitVec.ofNat 64 (1 + 16 * c.toNat + sel)
  let z1 := (z0 ^^^ (z0 >>> 30)) * 0xBF58476D1CE4E5B9
  let z2 := (z1 ^^^ (z1 >>> 27)) * 0x94D049BB133111EB
  let z3 := z2 ^^^ (z2 >>> 31)
  if z3 = 0 then 1 else z3

/-- A stream's state: the seed until a draw has moved it. -/
def Core.stream (k : Core) (c : CoreId) (sel : Nat) : Word :=
  match Tab.get none k.streams sel with
  | some w => w
  | none => streamSeed k.jobId c sel

/-- One step of a stream: the 64 bits drawn and the new state (04 R222). -/
def streamNext (w : Word) : Word × Word :=
  let a := w ^^^ (w >>> 12)
  let b := a ^^^ (a <<< 25)
  let c := b ^^^ (b >>> 27)
  (c * 0x2545F4914F6CDD1D, c)

/-- A write of JOB_ID seeds every stream afresh (04 R221). -/
def Core.setJobId (k : Core) (v : Word) : Core := { k with jobId := v, streams := [] }

/-! ## The address map (01 Tables 1.11, 1.12) -/

/-- What a chip offset names. -/
inductive Space where
  | hbm
  | vat (c : CoreId) (off : Nat)
  | core (c : CoreId) (off : Nat)
  | region (r off : Nat)
  | hbmCtl (stack off : Nat)
  | ioDie (d : Die) (off : Nat)
  | barrier (n off : Nat)
  | none
deriving DecidableEq, Repr

def addrChip (a : Word) : Nat := (a.extractLsb' 48 16).toNat
def addrOff (a : Word) : Nat := (a.extractLsb' 0 48).toNat

/-- The space of an offset, before it is known what is populated. -/
def spaceOf (off : Nat) : Space :=
  if off < 0x8000000000 then .hbm
  else if 0x10000000000 ≤ off ∧ off < 0x10100000000 then
    .vat (BitVec.ofNat 10 ((off - 0x10000000000) / 0x400000)) ((off - 0x10000000000) % 0x400000)
  else if 0x10100000000 ≤ off ∧ off < 0x10104000000 then
    .core (BitVec.ofNat 10 ((off - 0x10100000000) / 0x10000)) ((off - 0x10100000000) % 0x10000)
  else if 0x10200000000 ≤ off ∧ off < 0x10201000000 then
    .region ((off - 0x10200000000) / 0x100000) ((off - 0x10200000000) % 0x100000)
  else if 0x10300000000 ≤ off ∧ off < 0x10300800000 then
    .hbmCtl ((off - 0x10300000000) / 0x100000) ((off - 0x10300000000) % 0x100000)
  else if 0x10400000000 ≤ off ∧ off < 0x10402000000 then
    .ioDie (if off < 0x10401000000 then .west else .east) ((off - 0x10400000000) % 0x1000000)
  else if 0x10500000000 ≤ off ∧ off < 0x10500100000 then
    .barrier ((off - 0x10500000000) / 0x1000) ((off - 0x10500000000) % 0x1000)
  else .none

/-- First offset of a core's Vat window. -/
def vatBase (c : CoreId) : Nat := 0x10000000000 + c.toNat * 0x400000

/-- Bytes of a Vat (02 R102). -/
def vatSize : Nat := 0x300000

/-- Where an address is served: this chip, another chip, or nowhere (01 R63, R64, R65). -/
inductive Reach where
  | here
  | away (chip : BitVec 16)
  | fault
deriving DecidableEq, Repr

def State.reach (s : State) (a : Word) : Reach :=
  let chip := a.extractLsb' 48 16
  if chip = 0xFFFF then .here
  else if s.fab.chip = 0xFFFF then .fault
  else if 0x4000 ≤ chip.toNat then .fault
  else if chip = s.fab.chip then .here
  else .away chip

/-! ## The region attribute table (02 R86, R87) -/

def RatEntry.zero : RatEntry := { base := 0, limit := 0 }
def RatEntry.valid (e : RatEntry) : Bool := e.base.getLsbD 63
def RatEntry.scope (e : RatEntry) : Bool := e.base.getLsbD 62
def RatEntry.first (e : RatEntry) : Nat := (e.base.extractLsb' 12 36).toNat * 4096
def RatEntry.last (e : RatEntry) : Nat := (e.limit.extractLsb' 12 36).toNat * 4096 + 4095
def RatEntry.read (e : RatEntry) : Bool := e.limit.getLsbD 63
def RatEntry.write (e : RatEntry) : Bool := e.limit.getLsbD 62
def RatEntry.cache (e : RatEntry) : Bool := e.limit.getLsbD 61
def RatEntry.remoteW (e : RatEntry) : Bool := e.limit.getLsbD 60

/-- The bits of RAT_BASE and RAT_LIMIT that can be written. -/
def ratBaseMask : Word := 0xC000FFFFFFFFF000
def ratLimitMask : Word := 0xF000FFFFFFFFF000

/-- The lowest-numbered valid entry of a table whose range contains every byte and whose SCOPE, where it counts, matches
(02 R87, R92). -/
def ratGovern (t : Tab RatEntry) (scope : Option Bool) (off len : Nat) : Option RatEntry :=
  ((List.range 16).map (Tab.get RatEntry.zero t)).find? (fun e =>
    e.valid && (match scope with | none => true | some b => e.scope == b) &&
      decide (e.first ≤ off) && decide (off + len ≤ e.last + 1))

/-- The entry of a core's table that governs an access to this chip. -/
def Core.govern (k : Core) (off len : Nat) : Option RatEntry := ratGovern k.rat (some false) off len

def Core.permits (k : Core) (wr : Bool) (off len : Nat) : Bool :=
  match k.govern off len with
  | none => false
  | some e => if wr then e.write else e.read

/-- The entry that governs an access to another chip. -/
def Core.permitsAway (k : Core) (wr : Bool) (off len : Nat) : Bool :=
  match ratGovern k.rat (some true) off len with
  | none => false
  | some e => if wr then e.write else e.read

/-! ## Poison marks (05 R261) -/

/-- Whether a word reads with its mark set: it is marked, its HBM codeword cannot be corrected (07 R342), or two bits of a Vat word are
wrong (16 R678). -/
def State.readsPoisoned (s : State) (w : Nat) : Bool :=
  Tab.get false s.poison w || (decide (8 * w < 0x8000000000) && Tab.get false s.uncorrectable (w / 4)) ||
    decide (2 ≤ Tab.get 0 s.cellErrs w)

/-- Any word of a range reads poisoned. -/
def State.rangePoisoned (s : State) (off len : Nat) : Bool :=
  (List.range ((off + len + 7) / 8 - off / 8)).any (fun i => s.readsPoisoned (off / 8 + i))

/-- Words of `off` to `off + len` with one wrong bit are no longer wrong. -/
def correctSingles (t : Tab Nat) (off len : Nat) : Tab Nat :=
  t.filter (fun e => !(decide (e.2 = 1) && decide (8 * e.1 < off + len) && decide (off < 8 * e.1 + 8)))

/-- A read of a Vat corrects the words that have one wrong bit, and writes them back (16 R678). -/
def State.vatRead (s : State) (off len : Nat) : State := { s with cellErrs := correctSingles s.cellErrs off len }

/-- A byte of a write: its value, whether the mask writes it, and whether the word it comes from is poisoned. -/
structure WByte where
  val : Byte
  on : Bool
  poison : Bool
deriving DecidableEq, Repr

/-- What carries one poison mark at its home: a codeword of HBM (07 R343), a word of a Vat. -/
def granule (off : Nat) : Nat := if off < 0x8000000000 then 32 else 8

/-- Sets the poison marks of the words of a granule. -/
def setMarks (p : Tab Bool) (w n : Nat) (mark : Bool) : Tab Bool :=
  (List.range n).foldl (fun p i => Tab.put false p (w + i) mark) p

/-- The marks of one granule after a write (05 R261; 07 R343, R344): those of the write when it covers the granule;
otherwise set when the granule was poisoned, could not be corrected, or takes a poisoned byte. -/
def State.markGranule (s : State) (off : Nat) (bs : List WByte) (w : Nat) : State :=
  let g := granule off
  let at' (j : Nat) : Option WByte := if g * w + j < off then none else bs[g * w + j - off]?
  let cells := (List.range g).map at'
  let written := cells.any (fun b => match b with | some b => b.on | none => false)
  let covered := cells.all (fun b => match b with | some b => b.on | none => false)
  let bad := cells.any (fun b => match b with | some b => b.on && b.poison | none => false)
  let old := (List.range (g / 8)).any (fun i => Tab.get false s.poison (g / 8 * w + i)) ||
    (decide (g = 32) && Tab.get false s.uncorrectable w) || (decide (g = 8) && decide (2 ≤ Tab.get 0 s.cellErrs w))
  if written then
    { s with poison := setMarks s.poison (g / 8 * w) (g / 8) (if covered then bad else old || bad),
             uncorrectable := if g = 32 then Tab.put false s.uncorrectable w false else s.uncorrectable,
             cellErrs := if g = 8 then Tab.put 0 s.cellErrs w 0 else s.cellErrs,
             symbolErrs := if g = 32 then Tab.put 0 s.symbolErrs w 0 else s.symbolErrs }
  else s

/-- Writes bytes at their home with their marks, as one step. -/
def State.putBytes (s : State) (off : Nat) (bs : List WByte) : State :=
  let g := granule off
  let n := (off + bs.length + g - 1) / g - off / g
  let s1 := (List.range n).foldl (fun s i => s.markGranule off bs (off / g + i)) s
  { s1 with mem := Memory.writeMasked s1.mem off (bs.map (fun b => (b.val, b.on))) }

/-- Writes the bytes whose mask bit is set, all with one mark. -/
def State.storeBytes (s : State) (off : Nat) (bytes : List (Byte × Bool)) (mark : Bool) : State :=
  s.putBytes off (bytes.map (fun b => { val := b.1, on := b.2, poison := mark }))

/-- Writes whole bytes at their home. -/
def State.storeAll (s : State) (off : Nat) (bytes : List Byte) (mark : Bool) : State :=
  s.storeBytes off (bytes.map (fun b => (b, true))) mark

def State.loadBytes (s : State) (off len : Nat) : List Byte := Memory.read s.mem off len

/-- Bytes with the mark of the word that each lies in. -/
def State.loadMarked (s : State) (off len : Nat) : List (Byte × Bool) :=
  (s.loadBytes off len).zipIdx.map (fun b => (b.1, s.readsPoisoned ((off + b.2) / 8)))

/-- Writes bytes that carry marks of their own. -/
def State.storeMarked (s : State) (off : Nat) (bs : List (Byte × Bool)) : State :=
  s.putBytes off (bs.map (fun b => { val := b.1, on := true, poison := b.2 }))

/-- A 64-bit word of memory. -/
def State.loadWord (s : State) (off : Nat) : Word := BitVec.ofNat 64 (leValue (Memory.read s.mem off 8))

/-- The populated top of HBM (07 R358): nothing is populated before a layout has been chosen. -/
def State.hbmTop (s : State) : Nat := s.hbm.limit

/-- A byte of a core's register window answers: its region serves the progress page while the core does not (16 R692). -/
def State.windowServes (s : State) (c : CoreId) (o : Nat) : Bool :=
  s.coreServes c || (decide (o / 0x1000 = 5) && s.org.present c && (s.region (coreRegion c)).risen)

/-- Whether each byte of a range of this chip exists for a core's access (01 R66, R67; 11 R543). Pages 0x6000 to 0xFFFF of
a register window and 0x6_0000 to 0xF_FFFF of region control, which Table 1.12 lists with their windows and 02 Tables
2.6 and 2.7 call reserved, are taken as unpopulated (DESIGN CHOICE, log 91). -/
def State.populated (s : State) (off len : Nat) : Bool :=
  match spaceOf off with
  | .hbm => decide (off + len ≤ s.hbmTop)
  | .vat c o => decide (o + len ≤ vatSize) && s.coreServes c
  | .core c o => decide (o + len ≤ 0x6000) && s.windowServes c o
  | .region _ o => decide (o + len ≤ 0x60000)
  | .hbmCtl n o => decide (o + len ≤ 0x100000) && s.org.record.hbmFitted.getLsbD n
  | .ioDie _ o => decide (o + len ≤ 0x1000000)
  | .barrier _ o => decide (o + len ≤ 0x1000)
  | .none => false

/-! ## Fault records and the health log (16 R684-R687) -/

/-- The parts of a fault record that its raiser gives (16 Table 16.3). -/
structure FaultInfo where
  core : Option CoreId := none
  unit : Nat
  cls : Nat
  source : Nat := 0
  cause : Nat
  index : Nat := 0
  addr : Word := 0
  sub : BitVec 16 := 0
  tag : BitVec 16 := 0
  originChip : BitVec 16 := 0
  originSeq : BitVec 32 := 0
  detail : BitVec 32 := 0
deriving DecidableEq, Repr

/-- Fabric time is valid (09 R435). -/
def State.ftimeValid (s : State) : Bool := s.time.state = 2 || s.time.state = 3

/-- A job is loaded (15 R672). -/
def State.jobLoaded (s : State) : Bool := s.job.state = 1 || s.job.state = 2

/-- The record as both dies hold it. The first record has number 1, since 0 stands for none in the health log
(Table 16.17; log 7). -/
def State.buildRecord (s : State) (i : FaultInfo) : FaultRec :=
  let core : Nat := match i.core with | some c => c.toNat | none => 0x3FF
  { w0 := BitVec.ofNat 64 (s.fab.chip.toNat * 2 ^ 48 + core * 2 ^ 38 + i.unit % 64 * 2 ^ 32 + i.cls % 16 * 2 ^ 28
      + i.source % 16 * 2 ^ 24 + i.cause % 256 * 2 ^ 16 + i.index % 65536),
    w1 := if s.jobLoaded then s.job.jobId else 0,
    w2 := i.addr,
    w3 := BitVec.ofNat 64 ((s.ftimeWord.toNat % 2 ^ 48) * 2 ^ 16 + (if s.ftimeValid then 2 ^ 15 else 0)),
    w4 := BitVec.ofNat 64 ((s.faults.seq + 1).toNat * 2 ^ 32 + i.sub.toNat * 2 ^ 16 + i.tag.toNat),
    w5 := BitVec.ofNat 64 (i.originChip.toNat * 2 ^ 48 + i.originSeq.toNat),
    w6 := BitVec.ofNat 64 (i.detail.toNat * 2 ^ 32),
    w7 := 0 }

/-- Appends to a list that keeps its last `n` elements. -/
def pushLast {α : Type} (n : Nat) (l : List α) (x : α) : List α :=
  let l' := l ++ [x]
  l'.drop (l'.length - n)

/-- Adds a health record (16 Table 16.17). -/
def State.health (s : State) (cls unit cause index object : Nat) (seq : BitVec 32) : State :=
  { s with faults := { s.faults with
      health := pushLast 256 s.faults.health
        { time := s.ftimeWord.toNat, seq := seq, cls := cls, unit := unit, cause := cause, index := index,
          object := object },
      healthTotal := s.faults.healthTotal + 1 } }

/-- A change of an object that its table names, for the EVENTs of the next management tick (15 R662). -/
def State.notify (s : State) (obj : Nat) : State := { s with oap := { s.oap with changed := s.oap.changed ++ [obj] } }

/-- Commits a record to both dies' ring and to the health log (16 R685, R687). -/
def State.commitRecord (s : State) (r : FaultRec) : State :=
  let seq := s.faults.seq + 1
  let s1 := { s with faults := { s.faults with
    ring := Tab.put FaultRec.zero s.faults.ring (seq.toNat % 1024) r, seq := seq } }
  let w := r.w0.toNat
  ((s1.health (w / 2 ^ 28 % 16) (w / 2 ^ 32 % 64) (w / 2 ^ 16 % 256) (w % 65536) 0x8011 seq)).notify 0x8011

def State.faultRecord (s : State) (i : FaultInfo) : State := s.commitRecord (s.buildRecord i)

/-! ## Traps, interrupts and the return (02 R151-R155) -/

/-- Enters RUNTIME mode at TVEC: saves the mode, the pc and the cause, and sets NEST (R151). -/
def Core.enter (k : Core) (cause : Nat) (addr pc : Word) : Core :=
  { k with prevMode := k.mode, mode := .runtime, trapPc := pc, trapCause := BitVec.ofNat 64 cause, trapAddr := addr,
           nest := true, pc := k.tvec, stall := .none }

/-- A stall from which only an event frees the core (02 R140, R143, R147). -/
def Stall.waits : Stall → Bool
  | .twait _ _ _ _ => true
  | .barrier _ _ => true
  | .wfi => true
  | _ => false

/-- Register spaces take whole aligned accesses: R83 names the register windows, region control and the barrier contexts; the
registers of the HBM controllers and of the I/O dies, for which the spec gives no rule, are held to the same (DESIGN
CHOICE, log 9). -/
def Space.isRegs : Space → Bool
  | .hbm => false
  | .vat _ _ => false
  | .none => false
  | _ => true

/-- An access in flight whose instruction has not retired: a store retires as it issues, but one to a register only when it is
performed, so that what it changes holds for every access issued after it retires (02 R94). -/
def MemOp.unretired (m : MemOp) : Bool := decide (m.kind ≠ .store) || (spaceOf m.off).isRegs

def Core.unretired (k : Core) : Bool := k.memops.any MemOp.unretired

/-- Halted, with START_PC at the oldest instruction not issued (R801). -/
def Core.nowHalted (k : Core) : Core :=
  { k with startPc := k.pc, run := false, halted := true, stall := .none }

/-- A core whose RUN is clear issues nothing; it is halted once every instruction already issued has retired (R801). -/
def Core.settle (k : Core) : Core := if k.run || k.halted || k.unretired then k else k.nowHalted

/-- Begins to halt; a core that stalls in TWAIT, BARRIER or WFI halts at once (R801). -/
def Core.halt (k : Core) : Core :=
  if k.stall.waits then k.nowHalted else ({ k with run := false } : Core).settle

/-- Returns to TRAP_PC in the saved mode and clears NEST (R152). -/
def Core.leave (k : Core) : Core := { k with pc := k.trapPc, mode := k.prevMode, nest := false }

/-! ## Abort (16 R695-R701) -/

/-- TOTAL of object 0x2201: main plus auxiliary energy (11 R536). -/
def PowSt.total (p : PowSt) : Nat := p.energyMain + p.energyAux

/-- Fabric time for a record: 0 while it is not valid. -/
def State.stamp (s : State) : Nat := if s.ftimeValid then s.ftimeWord.toNat else 0

/-- Closes the running job's energy slot (11 R537). -/
def State.closeSlot (s : State) : State :=
  let close (j : JobSlot) : JobSlot :=
    if j.state = 1 then { j with state := 2, endNs := s.stamp, energy := s.pow.total - j.base } else j
  { s with pow := { s.pow with slots := Tab.mapVals JobSlot.reset close s.pow.slots } }

/-- Applies the frequency-mode writes held while a job was loaded (11 R513). -/
def PowSt.applyHeld (p : PowSt) : PowSt :=
  { p with mode := p.heldMode.getD p.mode, fixedMhz := p.heldMhz.getD p.fixedMhz, heldMode := none, heldMhz := none }

/-- The job ends (15 R675, R676): its energy slot closes, the key table is cleared and every queue pair closed, held
frequency writes apply, and STATE and END_CAUSE take their values. -/
def State.jobEnd (s : State) (state cause : Nat) : State :=
  let s1 := s.closeSlot
  ({ s1 with
      oap := { s1.oap with keys := [], qps := [] },
      pow := s1.pow.applyHeld,
      job := { s1.job with state := state, endCause := cause, epoch := s1.job.epoch + 1,
                           stopSignalled := false } }).notify 0x1201

/-- Sets the activity level at an array cycle; the Press obeys a lower level from the next aligned group of 8 cycles (03 R193,
R197). A change that was to be obeyed later is overtaken. -/
def Core.setLevel (k : Core) (n cycle : Nat) : Core :=
  let d := if n < k.pressLevel then (cycle + 7) / 8 * 8 else cycle
  { k with pressLevel := n, pressChanges := k.pressChanges.filter (fun e => decide (e.1 < d)) ++ [(d, n)] }

/-- A step of the level, after which the next one is due in 512 array cycles (03 R194, R195). -/
def Core.stepLevel (k : Core) (n cycle : Nat) : Core := { k.setLevel n cycle with pressStepCycle := cycle }

/-- A later step of a rise or a fall: the next one is due 512 array cycles after this one was, so that steps do not drift; one that has
waited a whole interval (for a ceiling) counts from now. -/
def Core.nextLevel (k : Core) (n cycle : Nat) : Core :=
  { k.setLevel n cycle with
    pressStepCycle := if cycle < k.pressStepCycle + 1024 then k.pressStepCycle + 512 else cycle }

/-- The ballast fall begins with its first step (03 R195, R200, R201). -/
def Core.beginFall (k : Core) (cycle : Nat) : Core :=
  if k.pressLevel = 0 then { k with pressRising := false }
  else { k.stepLevel (k.pressLevel - 1) cycle with pressRising := false }

/-- Array cycles of a core: the cycles of its region's clock (03 R158). -/
def State.arrayCycle (s : State) (c : CoreId) : Nat := (s.region (coreRegion c)).cycles / 1000

/-- What an abort does to one core (R698, R324; 03 R201; 18 R779): it enters RUNTIME mode with cause 0x3F even when NEST is
set, accepts no further submission, its Press issues no k step after this cycle and falls, its Ladle issues nothing more,
and its counters freeze. -/
def Core.abort (k : Core) (alive : Bool) (index : Word) (cycle : Nat) : Core :=
  let k0 := if k.pressHeld then k else { k.beginFall cycle with pressHeld := true, pressStop := some cycle }
  let k1 := { k0 with abortClosed := true, ladleHeld := true, barrierArrived := [],
                      pmu := { k.pmu with abortFrozen := true } }
  if alive && k.run && !k.halted then k1.enter 0x3F index k.pc
  else { k1 with abortPending := some index }

/-- ABORT packets of one list of chips (R699). -/
def abortPackets (job w5 : Word) (chips : List (BitVec 16)) : List EngineSend :=
  chips.map (fun d => { dstChip := d, kind := .abort, args := [job, w5] })

def AbortCtx.memberChips (a : AbortCtx) : List (BitVec 16) :=
  (List.range a.members.toNat).map (Tab.get 0 a.list)

def AbortCtx.leaderChips (a : AbortCtx) : List (BitVec 16) :=
  (List.range a.otherLeaders.toNat).map (fun i => Tab.get 0 a.list (a.members.toNat + i))

/-- Performs an abort on this package (R698), whose fault record has number `seq`. -/
def State.abortPerform (s : State) (seq : BitVec 32) : State :=
  let index := BitVec.ofNat 64 (seq.toNat % 1024)
  let s1 := s.modCores (allCores.filter s.org.present) (fun c k => k.abort (s.coreAlive c) index (s.arrayCycle c))
  let s2 := { s1 with
    barriers := { s1.barriers with
      ctxs := List.map (fun (e : Nat × Barrier) =>
        (e.1, if e.2.valid then { e.2 with frozen := true } else e.2)) s1.barriers.ctxs,
      sends := [], releases := [] },
    faults := { s1.faults with
      abortWest := { s1.faults.abortWest with aborted := true },
      abortEast := { s1.faults.abortEast with aborted := true },
      inAbort := true, snaps := [], dumpDue := true, dumpTrigger := seq,
      dumpJob := if s1.jobLoaded then s1.job.jobId else 0 } }
  if s2.jobLoaded then s2.jobEnd 4 3 else s2

/-- An abort starts at this package's engine (R695, R699): it is performed, and the first ABORTs wait to be sent. The
engine reads the West die's context, which software writes alike in both dies (R696). -/
def State.abortStart (s : State) (seq : BitVec 32) : State :=
  if s.faults.inAbort then s
  else
    let a := s.faults.abortWest
    let w5 := BitVec.ofNat 64 (s.fab.chip.toNat * 2 ^ 48 + seq.toNat)
    let chips := if !a.valid then [] else if a.leader then a.leaderChips ++ a.memberChips else [a.leaderChip]
    let s1 := s.abortPerform seq
    { s1 with faults := { s1.faults with abortSends := s1.faults.abortSends ++ abortPackets a.jobId w5 chips } }

/-- The region that the ladder's region step resets (R709): of a request, of a named core, or of the unit. -/
def Ladder.resetRegion (l : Ladder) : Option Nat :=
  match l.region with
  | some r => some r
  | none =>
    match l.cores with
    | c :: _ => some (coreRegion c)
    | [] => if l.unit = 5 then some l.unitIndex else none

/-- A core that the step in progress resets: its CORE domain, or its ENGINE domain only. -/
def Ladder.coreIn (l : Ladder) (c : CoreId) (engine : Bool) : Bool :=
  match l.step with
  | 1 => engine && (l.every || l.cores.contains c)
  | 2 => l.cores.contains c || (l.every && (engine || l.cores.isEmpty))
  | 3 => decide (l.resetRegion = some (coreRegion c)) || (engine && l.every)
  | _ => decide (4 ≤ l.step)

/-- An error in a unit whose domain the step in progress resets is not recorded (R717). -/
def Ladder.resets (l : Ladder) (i : FaultInfo) : Bool :=
  match l.step with
  | 0 => false
  | 5 => decide (i.unit < 0x0A)
  | n =>
    match i.core with
    | some c => decide (i.unit ≤ 4) && l.coreIn c (decide (i.unit ≠ 1))
    | none =>
      (decide (i.unit = 5) && (decide (n = 4) || (decide (n = 3) && decide (l.resetRegion = some i.index)))) ||
        (decide (n = 4) && (decide (i.unit = 9) || (decide (i.unit = 6) && l.retrain)))

/-- The unit that caused the last step is declared hung again, or raises a new error with the same cause, within one hang
window of that step's end (R709). -/
def FaultSt.again (f : FaultSt) (i : FaultInfo) (now : Nat) : Bool :=
  match f.ladder.lastEnd with
  | none => false
  | some t =>
    decide (now ≤ t + f.windowMs * 1000000) && decide (f.ladder.lastUnit.1 = i.unit) &&
      decide (f.ladder.lastUnit.2.1 = i.index) && (decide (f.ladder.lastUnit.2.2 = i.cause) || decide (i.cause = 0x40))

/-- What a new error asks of the ladder: the largest first step governs, and names its cause (R708, R711). -/
def Ladder.ask (l : Ladder) (i : FaultInfo) (step : Nat) (seq : BitVec 32) : Ladder :=
  let cs := match i.core with
    | some c => if step < 2 || l.cores.contains c then l.cores else l.cores ++ [c]
    | none => l.cores
  let l1 := { l with cores := cs, wantRetrain := l.wantRetrain || decide (i.unit = 6) }
  if l.want < step then { l1 with want := step, unit := i.unit, unitIndex := i.index, cause := i.cause, recordSeq := seq }
  else l1

/-- A contained error that hardware detects: a fault record, the abort of the loaded job, and what it asks of the reset
ladder (R681, R694, R695, R708, R709). -/
def State.contained (s : State) (i : FaultInfo) (step : Nat) : State :=
  if s.faults.ladder.resets i then s
  else
    let again := s.faults.again i s.now
    let want := if again then Nat.max step (Nat.min 5 (s.faults.ladder.lastStep + 1)) else step
    let s1 := s.faultRecord i
    let l := s1.faults.ladder.ask i want s1.faults.seq
    let s2 := { s1 with faults := { s1.faults with
      ladder := { l with escalations := if again then l.escalations + 1 else l.escalations } } }
    s2.abortStart s2.faults.seq

/-! ## Precise traps -/

/-- A trap of causes 0x01-0x08: taken (R151), or a double fault when NEST is set, which halts the core and writes a
fault record (R154). TRAP_CAUSE of a double fault is 0x3E. -/
def State.trap (s : State) (c : CoreId) (cause : Nat) (addr pc : Word) : State :=
  let k := s.core c
  if k.nest then
    let s1 := s.setCore c { k.halt with trapCause := 0x3E }
    s1.contained { core := some c, unit := 1, cls := 3, cause := 0x3E, index := s.org.physIndex c, addr := k.pc,
                   detail := BitVec.ofNat 32 cause } 2
  else s.setCore c (k.enter cause addr pc)

/-! ## What time alone brings -/

/-- Bits of a memory cell flip: a word of a Vat, or one that a data cache holds (16 R678); in HBM, symbols of a codeword (07 R340). -/
def State.strike (s : State) (u : Nat × Nat × Nat) : State :=
  match u.1 with
  | 0 =>
    (match spaceOf (8 * u.2.1) with
     | .vat _ _ => { s with cellErrs := Tab.modify 0 s.cellErrs u.2.1 (· + u.2.2) }
     | .hbm => { s with symbolErrs := Tab.modify 0 s.symbolErrs (u.2.1 / 4) (· + u.2.2) }
     | _ => s)
  | n + 1 =>
    let c := BitVec.ofNat 10 n
    if (Tab.get none (s.core c).cache (u.2.1 / 8)).isNone then s
    else s.modCore c (fun k => { k with cellErrs := Tab.modify 0 k.cellErrs u.2.1 (· + u.2.2) })

/-- The level that the power controls allow a Press. -/
def State.pressCeiling (s : State) (c : CoreId) : Nat := Nat.min 8 (s.region (coreRegion c)).ceiling

/-- The governor lowers a Press to what the power controls allow, at any moment and by any amount (03 R197). -/
def State.obeyCeiling (s : State) (c : CoreId) : State :=
  if s.pressCeiling c < (s.core c).pressLevel then
    s.modCore c (fun k => k.stepLevel (s.pressCeiling c) (s.arrayCycle c))
  else s

/-- Every Press obeys its region's ceiling. -/
def State.obeyCeilings (s : State) : State :=
  (s.cores.map (fun e => BitVec.ofNat 10 e.1)).foldl State.obeyCeiling s

end Sys2Proof.Machine
end

