-- ==== Sys2Proof/Machine/UnitCounts.lean ====
section
/-! DEFINITION. The counter blocks of fabric ports and HBM controllers (18 R783-R785, Tables 18.4, 18.5). -/
namespace Sys2Proof.Machine

/-- A control word after reset: ALL is 1. -/
def unitCtlReset : Word := 0x20000000

def UnitCounters.ctlOf (u : UnitCounters) (n : Nat) : Word := Tab.get unitCtlReset u.ctl n
def UnitCounters.cntOf (u : UnitCounters) (n : Nat) : BitVec 48 := Tab.get 0 u.cnt n

/-- The counter takes an event of this lane or channel; none is an event that Table 18.5 marks unfiltered. -/
def unitTakes (w : Word) (lane : Option Nat) : Bool :=
  w.getLsbD 29 || (match lane with | none => false | some l => decide ((w.extractLsb' 24 5).toNat = l))

/-- Counter `n` adds: the block and whether it overflowed, which sets OVF and raises nothing (R784). -/
def UnitCounters.add (u : UnitCounters) (n amount : Nat) : UnitCounters × Bool :=
  let total := (u.cntOf n).toNat + amount
  let u1 := { u with cnt := Tab.put 0 u.cnt n (BitVec.ofNat 48 total) }
  if 2 ^ 48 ≤ total then
    ({ u1 with ctl := Tab.put unitCtlReset u1.ctl n (u1.ctlOf n ||| (1 <<< 60)) }, true)
  else (u1, false)

/-- One counter's turn at an event, with whether the counter below it overflowed (R770, R771). -/
def UnitCounters.visit (st : UnitCounters × Bool) (ev : Nat) (lane : Option Nat) (amount n : Nat) : UnitCounters × Bool :=
  let w := st.1.ctlOf n
  if !w.getLsbD 63 then (st.1, false)
  else if w.getLsbD 61 && n ≠ 0 then (if st.2 then st.1.add n 1 else (st.1, false))
  else if (w.extractLsb' 0 12).toNat = ev && amount ≠ 0 && unitTakes w lane then
    st.1.add n (if w.getLsbD 62 then 1 else amount)
  else (st.1, false)

/-- Counts an event in the four counters of a block. -/
def UnitCounters.count (u : UnitCounters) (ev : Nat) (lane : Option Nat) (amount : Nat) : UnitCounters :=
  ((List.range 4).foldl (fun st n => UnitCounters.visit st ev lane amount n) (u, false)).1

def State.portCounters (s : State) (p : Nat) : UnitCounters := Tab.get UnitCounters.reset s.counters.ports p
def State.hbmCounters (s : State) (n : Nat) : UnitCounters := Tab.get UnitCounters.reset s.counters.hbm n

def State.setPortCounters (s : State) (p : Nat) (u : UnitCounters) : State :=
  { s with counters := { s.counters with ports := Tab.put UnitCounters.reset s.counters.ports p u } }

def State.setHbmCounters (s : State) (n : Nat) (u : UnitCounters) : State :=
  { s with counters := { s.counters with hbm := Tab.put UnitCounters.reset s.counters.hbm n u } }

def State.countPort (s : State) (p ev : Nat) (lane : Option Nat) (amount : Nat) : State :=
  s.setPortCounters p ((s.portCounters p).count ev lane amount)

def State.countHbm (s : State) (n ev : Nat) (lane : Option Nat) (amount : Nat) : State :=
  s.setHbmCounters n ((s.hbmCounters n).count ev lane amount)

/-- The bits of a control word that can be written; CASCADE is reserved in counter 0. -/
def unitCtlMask (n : Nat) : Word := if n = 0 then 0xC0000000 <<< 32 ||| 0x3F000FFF else 0xE0000000 <<< 32 ||| 0x3F000FFF

/-- Writes the control word of a counter: OVF is cleared by a 1, the writable bits are taken. -/
def UnitCounters.writeCtl (u : UnitCounters) (n : Nat) (v mask : Word) : UnitCounters :=
  let old := u.ctlOf n
  let w := unitCtlMask n
  let ovf := old &&& ~~~(v &&& mask) &&& (1 <<< 60)
  let new := ((old &&& ~~~mask) ||| (v &&& mask)) &&& w
  { u with ctl := Tab.put unitCtlReset u.ctl n (new ||| ovf) }

end Sys2Proof.Machine
end

