-- ==== Sys2Proof/Machine/Operands.lean ====
section
/-! DEFINITION. How a core's instruction takes its operands: issue, the operand forms of the formats of 02 Table 2.1,
effective addresses, and the accesses to memory with their checks (02 R63-R67, R82-R90, R98, R789, R799). -/
namespace Sys2Proof.Machine

/-! ## Issue -/

def MemOp.dest (m : MemOp) : Option RegRef :=
  match m.kind with
  | .load rd _ => if rd = 0 then none else some (.g rd)
  | .vload vd => some (.v vd)
  | .store => none
  | .amo _ rd _ _ => if rd = 0 then none else some (.g rd)

/-- A register whose value is still on its way, or is poisoned (02 R802): no instruction that uses it issues. -/
def Core.busyReg (k : Core) (r : RegRef) : Bool :=
  k.memops.any (fun m => m.dest == some r) || k.poison.any (fun p => p.reg == some r)

/-- An access by a core to a Cave is refused whatever the table holds (07 R339). -/
def State.inCave (s : State) (off len : Nat) : Bool :=
  s.hbm.caves.any (fun e => decide (e.2 < off + len) && decide (off < e.2 + 0x8000000)) ||
    (decide (s.hbm.runtimeBase < off + len) && decide (off < s.hbm.runtimeBase + 0x6000000 * s.hbm.caves.length))

/-- The trap that the fetch of the instruction at `pc` raises (Table 2.11): an access fault under R63, R65 and R67 and
for a Cave (07 R339), an instruction fetch fault where the table does not permit it (R87). R90 names no fetch; one from
another chip, which no rule serves, takes the instruction fetch fault too (DESIGN CHOICE, log 9). -/
def State.fetchTrap (s : State) (c : CoreId) (pc : Word) : Option Nat :=
  match s.reach pc with
  | .fault => some 0x03
  | .away _ => some 0x05
  | .here =>
    if !(s.core c).permits false (addrOff pc) 4 then some 0x05
    else if !s.populated (addrOff pc) 4 || s.inCave (addrOff pc) 4 then some 0x03
    else none

/-- The instruction at `pc` can be fetched. -/
def State.fetchOk (s : State) (c : CoreId) (pc : Word) : Bool := (s.fetchTrap c pc).isNone

/-- The core stalls at this instruction; it issues when it is offered again (log 8). -/
def State.stallAt (s : State) (c : CoreId) (why : Stall) : State := s.modCore c (fun k => { k with stall := why })

/-- The instruction can issue at this core now. -/
def State.canIssue (s : State) (c : CoreId) (refs : List RegRef) : Bool :=
  s.coreRuns c && !(s.core c).stall.waits && s.fetchOk c (s.core c).pc && !refs.any (s.core c).busyReg

/-- Offers the instruction at pc to core `c`. Where the core does not run, or waits for an event, nothing happens; a
fetch that cannot be made takes its trap; a register on its way stalls it; otherwise its effect is `f`. -/
def State.issue (s : State) (c : CoreId) (refs : List RegRef) (f : State → Out) : Out :=
  if !s.coreRuns c || (s.core c).stall.waits then .next s
  else match s.fetchTrap c (s.core c).pc with
    | some cause => .next (s.trap c cause (s.core c).pc (s.core c).pc)
    | none => if refs.any (s.core c).busyReg then .next (s.stallAt c .loadOrFence) else f s

/-- The instruction word that TRAP_ADDR holds for causes 0x01 and 0x02 (Table 2.11). -/
def instrWord (i : Instr) : Word :=
  match encode i with
  | some w => w.setWidth 64
  | none => 0

/-- The precise traps that name the instruction word. -/
def State.illegal (s : State) (c : CoreId) (w : Word) : State := s.trap c 0x01 w (s.core c).pc
def State.privileged (s : State) (c : CoreId) (w : Word) : State := s.trap c 0x02 w (s.core c).pc

/-! ## Operand forms -/

def sext16 (i : BitVec 16) : Word := i.signExtend 64
def sext21 (i : BitVec 21) : Word := i.signExtend 64
def boolWord (b : Bool) : Word := if b then 1 else 0

/-- Formats R and X with two general sources: rd takes `f rs1 rs2`. -/
def State.opRR (s : State) (c : CoreId) (rd rs1 rs2 : Reg) (f : Word → Word → Word) : Out :=
  s.issue c [.g rs1, .g rs2, .g rd] (fun s =>
    .next (s.modCore c (fun k => (k.setG rd (f (k.getG rs1) (k.getG rs2))).retire)))

/-- One general source: rd takes `f rs1`. -/
def State.opR (s : State) (c : CoreId) (rd rs1 : Reg) (f : Word → Word) : Out :=
  s.issue c [.g rs1, .g rd] (fun s =>
    .next (s.modCore c (fun k => (k.setG rd (f (k.getG rs1))).retire)))

/-- Three general sources. -/
def State.opRRR (s : State) (c : CoreId) (rd rs1 rs2 rs3 : Reg) (f : Word → Word → Word → Word) : Out :=
  s.issue c [.g rs1, .g rs2, .g rs3, .g rd] (fun s =>
    .next (s.modCore c (fun k => (k.setG rd (f (k.getG rs1) (k.getG rs2) (k.getG rs3))).retire)))

/-- No source: rd takes a value of pc. -/
def State.opPc (s : State) (c : CoreId) (rd : Reg) (f : Word → Word) : Out :=
  s.issue c [.g rd] (fun s => .next (s.modCore c (fun k => (k.setG rd (f k.pc)).retire)))

/-- Vector forms. -/
def State.opVV (s : State) (c : CoreId) (vd vs1 vs2 : Reg) (f : VWord → VWord → VWord) : Out :=
  s.issue c [.v vs1, .v vs2, .v vd] (fun s =>
    .next (s.modCore c (fun k => (k.setV vd (f (k.getV vs1) (k.getV vs2))).retire)))

def State.opV (s : State) (c : CoreId) (vd vs1 : Reg) (f : VWord → VWord) : Out :=
  s.issue c [.v vs1, .v vd] (fun s =>
    .next (s.modCore c (fun k => (k.setV vd (f (k.getV vs1))).retire)))

def State.opVVV (s : State) (c : CoreId) (vd vs1 vs2 vs3 : Reg) (f : VWord → VWord → VWord → VWord) : Out :=
  s.issue c [.v vs1, .v vs2, .v vs3, .v vd] (fun s =>
    .next (s.modCore c (fun k => (k.setV vd (f (k.getV vs1) (k.getV vs2) (k.getV vs3))).retire)))

/-- A branch: to pc + 4 x OFF16 when taken, else to the next instruction; counted as a branch (02 R79; 18 0x020). -/
def State.opBranch (s : State) (c : CoreId) (rs1 rs2 : Reg) (off : BitVec 16) (taken : Word → Word → Bool) : Out :=
  s.issue c [.g rs1, .g rs2] (fun s =>
    .next (s.modCore c (fun k =>
      let pc := k.pc
      let k1 := k.retire.count 0x020 1 pc 0
      if taken (k.getG rs1) (k.getG rs2) then { k1 with pc := pc + sext16 off * 4 } else k1)))

/-! ## Vector lanes -/

def laneBits : LaneW → Nat
  | .b8 => 8
  | .b16 => 16
  | .b32 => 32
  | .b64 => 64

/-- Lane `i` of width `w` as a number. -/
def laneNat (v : VWord) (w i : Nat) : Nat := (v >>> (w * i)).toNat % 2 ^ w

/-- Builds a vector register from `n` lanes of width `w`, lane 0 lowest; the bits above are 0. -/
def ofLanes (w n : Nat) (f : Nat → Nat) : VWord :=
  BitVec.ofNat 512 ((List.range n).foldr (fun i acc => f i % 2 ^ w + 2 ^ w * acc) 0)

def map1 (w : Nat) (f : Nat → Nat) (a : VWord) : VWord := ofLanes w (512 / w) (fun i => f (laneNat a w i))

def map2 (w : Nat) (f : Nat → Nat → Nat) (a b : VWord) : VWord :=
  ofLanes w (512 / w) (fun i => f (laneNat a w i) (laneNat b w i))

def map3 (w : Nat) (f : Nat → Nat → Nat → Nat) (a b c : VWord) : VWord :=
  ofLanes w (512 / w) (fun i => f (laneNat a w i) (laneNat b w i) (laneNat c w i))

/-- A lane as a signed number. -/
def laneInt (w x : Nat) : Int := (BitVec.ofNat w x).toInt

/-! ## The data cache -/

/-- The bytes of a vector-sized line. -/
def lineBytes (v : VWord) : List Byte := (List.range 64).map (fun i => (v >>> (8 * i)).setWidth 8)

def bytesVec (bs : List Byte) : VWord := BitVec.ofNat 512 (leValue bs)

/-- A line of the data cache as it reads: a word with two wrong bits carries the poison mark (16 R678). -/
def Core.line (k : Core) (n : Nat) : Option CLine :=
  (Tab.get none k.cache n).map (fun l =>
    { l with poison := (List.range 8).foldl (fun (p : BitVec 8) w =>
        if 2 ≤ Tab.get 0 k.cellErrs (8 * n + w) then p ||| (1 <<< w) else p) l.poison })

/-- Puts a line into the data cache, or takes it out: its cells are written afresh. -/
def Core.setLine (k : Core) (n : Nat) (l : Option CLine) : Core :=
  { k with cache := Tab.put none k.cache n l, cellErrs := k.cellErrs.filter (fun e => decide (e.1 / 8 ≠ n)) }

/-- A read of cached words corrects those that have one wrong bit. -/
def Core.cacheRead (k : Core) (off len : Nat) : Core := { k with cellErrs := correctSingles k.cellErrs off len }

/-- A store to cached words: one that it covers is written afresh, one that it covers in part is read first, and its poison stays. -/
def Core.cacheWrite (k : Core) (off : Nat) (l : CLine) (len : Nat) : Core :=
  { k with cache := Tab.put none k.cache (off / 64) (some l),
           cellErrs := k.cellErrs.filter (fun e => !(decide (8 * e.1 < off + len) && decide (off < 8 * e.1 + 8))) }

/-- A line of the data cache is used: it is its set's most recent one (02 R98). -/
def Core.touch (k : Core) (n : Nat) : Core := { k with recent := Tab.put none k.recent (n % 1024) (some n) }

/-- `len` bytes of a cached line from byte `rel`, and whether a word they lie in is poisoned. -/
def CLine.read (l : CLine) (rel len : Nat) : List Byte × Bool :=
  (((lineBytes l.data).drop rel).take len,
   (List.range 8).any (fun w => l.poison.getLsbD w && decide (8 * w < rel + len) && decide (rel < 8 * w + 8)))

/-- Stores bytes into a cached line: they become dirty, and poison merges by R261 of 05. -/
def CLine.write (l : CLine) (rel : Nat) (bs : List Byte) : CLine :=
  let old := lineBytes l.data
  let new := (List.range 64).map (fun i =>
    if rel ≤ i ∧ i < rel + bs.length then bs.getD (i - rel) 0 else old.getD i 0)
  let dirty := (List.range 64).foldl (fun (d : BitVec 64) i =>
    if rel ≤ i ∧ i < rel + bs.length then d ||| (1 <<< i) else d) l.dirty
  let poison := (List.range 8).foldl (fun (p : BitVec 8) w =>
    if rel ≤ 8 * w ∧ 8 * w + 8 ≤ rel + bs.length then p &&& ~~~((1 : BitVec 8) <<< w) else p) l.poison
  { data := bytesVec new, dirty := dirty, poison := poison }

/-- The dirty bytes of a line with their mask. -/
def CLine.dirtyBytes (l : CLine) : List (Byte × Bool) :=
  (List.range 64).map (fun i => ((lineBytes l.data).getD i 0, l.dirty.getLsbD i))

/-! ## HBM channels (07 R331-R334, R347) -/

def State.stack (s : State) (n : Nat) : Stack := Tab.get Stack.reset s.hbm.stackTab n

def State.setStack (s : State) (n : Nat) (x : Stack) : State :=
  { s with hbm := { s.hbm with stackTab := Tab.put Stack.reset s.hbm.stackTab n x } }

def State.modStack (s : State) (n : Nat) (f : Stack → Stack) : State := s.setStack n (f (s.stack n))

def twoGiB : Nat := 0x80000000

/-- Where a byte of HBM lies: stack, channel and channel address (R331-R334); none outside HBM's part of the span. -/
def HbmSt.loc (h : HbmSt) (off : Nat) : Option (Nat × Nat × Nat) :=
  let tailSize := h.tail.length * twoGiB
  if 0x8000000000 ≤ off then none
  else if off < tailSize then
    match h.tail[off / twoGiB]? with
    | none => none
    | some t => some (t.1, t.2, off % twoGiB)
  else if h.limit ≤ off then none
  else
    let i := off - tailSize
    let n := h.inter.length
    let g := i / 256
    match h.inter[g % n]? with
    | none => none
    | some (stack, chans) =>
      let q := g / n
      match chans[q % chans.length]? with
      | none => none
      | some ch => some (stack, ch, q / chans.length * 256 + i % 256)

/-- A channel that has failed, or whose stack has no power, answers no read and discards writes (R347). -/
def State.channelFailed (s : State) (off : Nat) : Bool :=
  match s.hbm.loc off with
  | none => false
  | some (n, ch, _) => (s.stack n).failed.getLsbD ch || !s.org.memoryOn.getLsbD n

/-- A request completed at an HBM controller: its progress counter, and an event of its counter block. -/
def State.hbmDone (s : State) (off ev : Nat) : State :=
  match s.hbm.loc off with
  | none => s
  | some (n, ch, _) => (s.modStack n (fun x => { x with progress := x.progress + 1 })).countHbm n ev (some ch) 1

/-- A failed channel discards a write and counts it (07 R347). -/
def State.hbmDiscard (s : State) (off : Nat) : State :=
  match s.hbm.loc off with
  | none => s
  | some (n, _, _) => s.modStack n (fun x => { x with discarded := x.discarded + 1 })

/-- Writes a line's dirty bytes back as one masked line write (05 R254); each word carries its own mark. -/
def State.writeBack (s : State) (n : Nat) (l : CLine) : State :=
  if s.channelFailed (64 * n) then s.hbmDiscard (64 * n)
  else
    (s.putBytes (64 * n) (l.dirtyBytes.zipIdx.map (fun b =>
      { val := b.1.1, on := b.1.2, poison := l.poison.getLsbD (b.2 / 8) }))).hbmDone (64 * n) 0x202

/-! ## Accesses -/

/-- The parts of an access (05 Table 5.3): the whole of an aligned one, single bytes of a misaligned one, the eight
8-byte elements of a VLD or VST. -/
def accessParts (vec : Bool) (off len : Nat) (cached : Bool) : List MemPart :=
  if vec then (List.range 8).map (fun i => { rel := 8 * i, len := 8, cached := cached, performed := false })
  else if off % len = 0 then [{ rel := 0, len := len, cached := cached, performed := false }]
  else (List.range len).map (fun i => { rel := i, len := 1, cached := cached, performed := false })

/-- An unperformed part of an older access to any byte of a range: program order to one byte is kept (05 R268). -/
def MemOp.overlaps (m : MemOp) (off len : Nat) : Bool :=
  m.parts.any (fun p => !p.performed && decide (m.off + p.rel < off + len) && decide (off < m.off + p.rel + p.len))

def Core.conflict (k : Core) (off len : Nat) : Bool := k.memops.any (fun m => m.overlaps off len)

/-- Replaces the bytes of a list from `rel`. -/
def spliceBytes (old : List Byte) (rel : Nat) (bs : List Byte) : List Byte :=
  old.take rel ++ bs ++ old.drop (rel + bs.length)

/-- What a checked access is: where it lies and whether it goes through the data cache. -/
inductive Access where
  | ok (off : Nat) (cached : Bool)
  | trap (cause : Nat)
deriving DecidableEq, Repr

/-- The access of a local cached range (02 R89). -/
def Core.cachedAt (k : Core) (off len : Nat) : Bool :=
  match spaceOf off, k.govern off len with
  | .hbm, some e => e.cache
  | _, _ => false

/-- Checks an access of a load, store, VLD, VST or atomic in this order: the CHIP field (R63, R65, R90), the space an
atomic or vector access may reach (R281, R799), alignment (R83, R84), the region attribute table (R87), what is
populated (R67). The spec gives no order among them (log 9). -/
def State.checkAccess (s : State) (c : CoreId) (a : Word) (len : Nat) (wr vec atomic : Bool) : Access :=
  match s.reach a with
  | .fault => .trap 0x03
  | .away _ => .trap 0x03
  | .here =>
    let off := addrOff a
    let sp := spaceOf off
    if sp.isRegs && (vec || atomic) then .trap 0x03
    else if (sp.isRegs || atomic || vec) && decide (off % len ≠ 0) then .trap 0x04
    else if !(s.core c).permits wr off len then .trap 0x03
    else if !s.populated off len then .trap 0x03
    else .ok off ((s.core c).cachedAt off len)

end Sys2Proof.Machine
end

