-- ==== Sys2Proof/Machine/Mesh.lean ====
section
/-! DEFINITION. The two mesh planes of the compute die (01 R24, R25, R33-R35, R51): where stacks and bridges join, the routers that a
packet passes, and traffic that waits at a region in reset. -/
namespace Sys2Proof.Machine

/-- The bridges of the package (01 Table 1.3). -/
inductive Bridge where
  | w0
  | w1
  | e0
  | e1
  | x
deriving DecidableEq, Repr

/-- A rectangle of edge routers, in logical rows and columns, both ends counted. -/
structure EdgeRange where
  rowLo : Nat
  rowHi : Nat
  colLo : Nat
  colHi : Nat
deriving DecidableEq, Repr

/-- Where the controller of a stack joins the mesh (01 Table 1.2). -/
def stackJoin : Nat → EdgeRange
  | 0 => { rowLo := 0, rowHi := 0, colLo := 0, colHi := 15 }
  | 1 => { rowLo := 0, rowHi := 0, colLo := 16, colHi := 31 }
  | 2 => { rowLo := 0, rowHi := 7, colLo := 31, colHi := 31 }
  | 3 => { rowLo := 24, rowHi := 31, colLo := 31, colHi := 31 }
  | 4 => { rowLo := 31, rowHi := 31, colLo := 16, colHi := 31 }
  | 5 => { rowLo := 31, rowHi := 31, colLo := 0, colHi := 15 }
  | 6 => { rowLo := 24, rowHi := 31, colLo := 0, colHi := 0 }
  | _ => { rowLo := 0, rowHi := 7, colLo := 0, colHi := 0 }

/-- The I/O die that a bridge starts from, and where it joins the mesh; bridge X joins the East I/O die, not the mesh (01 Table
1.3). -/
def Bridge.join : Bridge → Die × Option EdgeRange
  | .w0 => (.west, some { rowLo := 8, rowHi := 15, colLo := 0, colHi := 0 })
  | .w1 => (.west, some { rowLo := 16, rowHi := 23, colLo := 0, colHi := 0 })
  | .e0 => (.east, some { rowLo := 8, rowHi := 15, colLo := 31, colHi := 31 })
  | .e1 => (.east, some { rowLo := 16, rowHi := 23, colLo := 31, colHi := 31 })
  | .x => (.west, none)

/-- The router of a range that lies nearest to a router (DESIGN CHOICE, log 101: the spec does not say which router of a range a
packet takes). -/
def EdgeRange.nearest (e : EdgeRange) (p : Nat × Nat) : Nat × Nat :=
  (Nat.max e.rowLo (Nat.min p.1 e.rowHi), Nat.max e.colLo (Nat.min p.2 e.colHi))

/-- The routers of one region. -/
def regionRange (r : Nat) : EdgeRange :=
  { rowLo := 8 * (r / 4), rowHi := 8 * (r / 4) + 7, colLo := 8 * (r % 4), colHi := 8 * (r % 4) + 7 }

/-- The bridge by which a router reaches an I/O die: that of its half of the rows (log 101). -/
def bridgeFor (d : Die) (p : Nat × Nat) : Bridge :=
  match d with
  | .west => if p.1 < 16 then .w0 else .w1
  | .east => if p.1 < 16 then .e0 else .e1

/-- The router of an I/O die's bridge that a packet from or to router `p` uses. -/
def dieRouter (d : Die) (p : Nat × Nat) : Nat × Nat :=
  match (bridgeFor d p).join.2 with
  | some e => e.nearest p
  | none => p

def coreRouter (c : CoreId) : Nat × Nat := (coreRow c, coreCol c)

/-- The router at which the home of an offset joins the mesh, for a packet from or to router `p`; a barrier context lies outside
the regions. -/
def State.homeRouter (s : State) (p : Nat × Nat) (off : Nat) : Option (Nat × Nat) :=
  match spaceOf off with
  | .hbm => (s.hbm.loc off).map (fun l => (stackJoin l.1).nearest p)
  | .vat c _ => some (coreRouter c)
  | .core c _ => some (coreRouter c)
  | .region r _ => some ((regionRange r).nearest p)
  | .hbmCtl n _ => some ((stackJoin n).nearest p)
  | .ioDie d _ => some (dieRouter d p)
  | .barrier _ _ => none
  | .none => none

/-- The physical column at which the shift selectors of a row let a logical column join the rows beside it (R34). -/
def OrgSt.meshCol (o : OrgSt) (row col : Nat) : Nat :=
  let sel := Tab.get 0 o.selectors (4 * row + col / 8)
  bandStart row (col / 8) + col % 8 + (if sel.getLsbD (col % 8) then 1 else 0)

/-- The numbers from `a` to `b`, both counted, up or down. -/
def fromTo (a b : Nat) : List Nat :=
  if a ≤ b then (List.range (b + 1 - a)).map (fun i => a + i) else (List.range (a + 1 - b)).map (fun i => a - i)

/-- The routers, in physical columns, that a packet passes on either plane: along its source row, hidden routers too, then along the
destination's logical column (R33, R35). -/
def OrgSt.routers (o : OrgSt) (a b : Nat × Nat) : List (Nat × Nat) :=
  (fromTo (o.meshCol a.1 a.2) (o.meshCol a.1 b.2)).map (fun p => (a.1, p)) ++
    ((fromTo a.1 b.1).drop 1).map (fun row => (row, o.meshCol row b.2))

def routerRegion (p : Nat × Nat) : Nat := physRegion (34 * p.1 + p.2)

/-- A packet from router `a` to router `b` passes through a region, neither its own nor its destination's, whose neighbours hold
through-traffic on a plane: it waits in their dual-clock queues (R51). -/
def OrgSt.waits (o : OrgSt) (p : MeshPlane) (a b : Nat × Nat) : Bool :=
  decide (p.held ≠ 0) &&
    (o.routers a b).any (fun x =>
      let r := routerRegion x
      p.held.getLsbD r && decide (r ≠ routerRegion (a.1, o.meshCol a.1 a.2)) &&
        decide (r ≠ routerRegion (b.1, o.meshCol b.1 b.2)))

/-- A core's request to the home of an offset waits on the request plane. -/
def State.requestWaits (s : State) (c : CoreId) (off : Nat) : Bool :=
  match s.homeRouter (coreRouter c) off with
  | some h => s.org.waits s.org.requestPlane (coreRouter c) h
  | none => false

/-- What the home of an offset returns to a core waits on the response plane. -/
def State.responseWaits (s : State) (c : CoreId) (off : Nat) : Bool :=
  match s.homeRouter (coreRouter c) off with
  | some h => s.org.waits s.org.responsePlane h (coreRouter c)
  | none => false

/-- What a core sends to another core of the chip waits on the request plane. -/
def State.meshWaits (s : State) (a b : CoreId) : Bool := s.org.waits s.org.requestPlane (coreRouter a) (coreRouter b)

/-- What passes between a die and a core waits at a region, not the core's, that holds through-traffic (R51). -/
def OrgSt.dieWaits (o : OrgSt) (p : MeshPlane) (d : Die) (c : CoreId) (fromCore : Bool) : Bool :=
  let far := dieRouter d (coreRouter c)
  let path := if fromCore then o.routers (coreRouter c) far else o.routers far (coreRouter c)
  decide (p.held ≠ 0) && path.any (fun x =>
    p.held.getLsbD (routerRegion x) && decide (routerRegion x ≠ routerRegion (coreRow c, o.meshCol (coreRow c) (coreCol c))))

/-- The core whose Vat or register window an offset lies in. -/
def coreAt (off : Nat) : Option CoreId :=
  match spaceOf off with
  | .vat c _ => some c
  | .core c _ => some c
  | _ => none

/-- A packet at a die for an offset of this chip waits on its way through the mesh, there or, for what it answers, back (R51). -/
def State.dieAccessWaits (s : State) (d : Die) (off : Nat) (answers : Bool) : Bool :=
  match coreAt off with
  | none => false
  | some c => s.org.dieWaits s.org.requestPlane d c false || (answers && s.org.dieWaits s.org.responsePlane d c true)

end Sys2Proof.Machine
end

