-- ==== Sys2Proof/Machine/System.lean ====
section
/-! DEFINITION. Special registers and the counter page (02 Table 2.3, R85, R800, R803; 18 R767-R776), WFI, TRAP, TRET,
interrupts, illegal instructions, fences, cache-range operations, and the start and halt of a core. -/
namespace Sys2Proof.Machine

def Mode.code : Mode → Nat
  | .job => 0
  | .runtime => 1

/-! ## The timer (R800) -/

/-- INT_PENDING with bit 3 set for as long as FTIME is at or past TIMER_CMP. -/
def Core.latchTimer (k : Core) (ftime : Word) : Core :=
  if k.timerCmp.toNat ≤ ftime.toNat && !k.intPending.getLsbD 3 then k.setInt 3 0 else k

/-- FTIME reaches TIMER_CMP: the timer interrupt becomes pending. -/
def execTimerInterrupt (c : CoreId) (s : State) : Out :=
  let k := s.core c
  if s.coreAlive c && decide (k.timerCmp.toNat ≤ s.ftimeWord.toNat) then
    .next (s.setCore c (k.raiseInt 3 0))
  else .next s

/-! ## Special registers (Table 2.3) -/

/-- LADLE_ERR_REC, Table 2.19. -/
def Core.ladleErrRec (k : Core) : Word :=
  match k.ladleErrs with
  | [] => 0
  | e :: rest => e.sub ++ e.tag ++ e.flowErr ++ (0 : BitVec 8) ++ e.cause ++ (0 : BitVec 6) ++
      BitVec.ofBool (!rest.isEmpty) ++ (1 : BitVec 1)

def Core.ladleErrAddr (k : Core) : Word :=
  match k.ladleErrs with
  | [] => 0
  | e :: _ => e.addr

/-- CORE_ID. -/
def State.coreIdWord (s : State) (c : CoreId) : Word :=
  BitVec.ofNat 64 (c.toNat + s.org.physIndex c * 2 ^ 16 + coreRegion c * 2 ^ 32 + s.fab.chip.toNat * 2 ^ 48)

def Core.trapStatus (k : Core) : Word := BitVec.ofNat 64 (k.prevMode.code + (if k.nest then 2 else 0))

/-- The value of a special register; none for a selector that Table 2.3 does not list. -/
def State.readSr (s : State) (c : CoreId) (sel : Nat) : Option Word :=
  let k := s.core c
  match sel with
  | 0x01 => some (BitVec.ofNat 64 k.mode.code)
  | 0x02 => some (s.coreIdWord c)
  | 0x03 => some k.jobId
  | 0x08 => some k.tvec
  | 0x09 => some k.trapPc
  | 0x0A => some k.trapCause
  | 0x0B => some k.trapAddr
  | 0x0C => some k.trapStatus
  | 0x0D => some (k.intEnable.setWidth 64)
  | 0x0E => some ((k.latchTimer s.ftimeWord).intPending.setWidth 64)
  | 0x10 => some s.ftimeWord
  | 0x11 => some k.timerCmp
  | 0x12 => some k.mrecvTags
  | 0x13 => some (boolWord k.phaseEn)
  | 0x14 => some k.ladleErrRec
  | 0x15 => some k.ladleErrAddr
  | _ => none

/-- Registers that JOB mode may not read. -/
def srReadRuntime (sel : Nat) : Bool := [0x08, 0x09, 0x0A, 0x0B, 0x0C, 0x0D, 0x0E, 0x14, 0x15].contains sel

/-- Registers that a WRSR may write, and whether only in RUNTIME mode; none for the others. -/
def srWriteRuntime (sel : Nat) : Option Bool :=
  if [0x03, 0x08, 0x09, 0x0C, 0x0D, 0x0E, 0x13, 0x14].contains sel then some true
  else if sel = 0x11 then some false else none

/-- A new Ladle error record raises the Ladle-error interrupt (R803). -/
def Core.holdLadleErr (k : Core) (e : LadleErr) : Core :=
  ({ k with ladleErrs := k.ladleErrs ++ [e] }).raiseInt 0 (e.sub.setWidth 64)

/-- Retires the oldest Ladle error record; one that waits for its place takes it (R803). -/
def Core.retireLadleErr (k : Core) : Core :=
  match k.ladleErrs, k.ladleErrWait with
  | [], _ => k
  | _ :: rest, [] => { k with ladleErrs := rest }
  | _ :: rest, e :: more => ({ k with ladleErrs := rest, ladleErrWait := more }).holdLadleErr e

/-- Writes a special register; TVEC keeps 256-byte alignment. -/
def Core.writeSr (k : Core) (ftime : Word) (sel : Nat) (v : Word) : Core :=
  match sel with
  | 0x03 => k.setJobId v
  | 0x08 => { k with tvec := v &&& 0xFFFFFFFFFFFFFF00 }
  | 0x09 => { k with trapPc := v }
  | 0x0C => { k with prevMode := if v.getLsbD 0 then .runtime else .job, nest := v.getLsbD 1 }
  | 0x0D => { k with intEnable := v.setWidth 8 }
  | 0x0E => { k with intPending := k.intPending &&& ~~~(v.setWidth 8) }.latchTimer ftime
  | 0x11 => { k.latchTimer ftime with timerCmp := v }.latchTimer ftime
  | 0x13 => { k with phaseEn := v.getLsbD 0 }
  | 0x14 => if v.getLsbD 0 then k.retireLadleErr else k
  | _ => k

def execRdsr (c : CoreId) (rd : Reg) (imm : BitVec 8) (s : State) : Out :=
  s.issue c [.g rd] (fun s =>
    let k := s.core c
    match s.readSr c imm.toNat with
    | none => .next (s.illegal c (instrWord (.rdsr c rd imm)))
    | some v =>
      if srReadRuntime imm.toNat && decide (k.mode = .job) then
        .next (s.privileged c (instrWord (.rdsr c rd imm)))
      else .next (s.setCore c (k.setG rd v).retire))

/-- WRSR of any selector: shared with the retirement of a Ladle error record. -/
def State.wrsr (s : State) (c : CoreId) (rs1 : Reg) (imm : BitVec 8) : Out :=
  s.issue c [.g rs1] (fun s =>
    let k := s.core c
    let w := instrWord (.wrsr c rs1 imm)
    match srWriteRuntime imm.toNat with
    | none => .next (s.illegal c w)
    | some rt =>
      if rt && decide (k.mode = .job) then .next (s.privileged c w)
      else .next (s.setCore c (k.writeSr s.ftimeWord imm.toNat (k.getG rs1)).retire))

def execWrsr (c : CoreId) (rs1 : Reg) (imm : BitVec 8) (s : State) : Out := s.wrsr c rs1 imm

def execLadleErrRecRetire (c : CoreId) (rs1 : Reg) (s : State) : Out := s.wrsr c rs1 0x14

/-! ## The counter page (18 Table 18.1) -/

/-- CYCLE: the region's cycles since the page was reset or written. -/
def State.cycleWord (s : State) (c : CoreId) : Word :=
  BitVec.ofNat 64 ((s.region (coreRegion c)).cycles / 1000) - (s.core c).pmu.cycleBase

def Pmu.global (p : Pmu) : Word :=
  BitVec.ofBool p.freeze ++ BitVec.ofBool p.abortFrozen ++ BitVec.ofBool p.jobWrite ++ BitVec.ofBool p.freezeOnOvf ++
    (0 : BitVec 60)

def Pmu.ovfWord (p : Pmu) : Word :=
  (0 : BitVec 48) ++ BitVec.ofBool p.sampleValid ++ (0 : BitVec 4) ++ p.sampleCnt ++ p.ovf

/-- The register that a selector names. -/
def State.readCnt (s : State) (c : CoreId) (sel : Nat) : Option Word :=
  let p := (s.core c).pmu
  if sel = 0x00 then some (s.cycleWord c)
  else if 0x01 ≤ sel ∧ sel ≤ 0x08 then some ((Tab.get 0 p.cnt (sel - 1)).setWidth 64)
  else if 0x10 ≤ sel ∧ sel ≤ 0x17 then some (Tab.get 0 p.ctl (sel - 0x10))
  else if sel = 0x20 then some p.global
  else if sel = 0x21 then some p.ovfWord
  else if sel = 0x22 then some p.samplePc
  else if sel = 0x23 then some p.sampleAddr
  else none

/-- The bits written: `v` where the mask is set, the old value elsewhere. -/
def maskIn (old v mask : Word) : Word := (old &&& ~~~mask) ||| (v &&& mask)

/-- The bits of CTLn that can be written: CASCADE is reserved in CTL0. -/
def ctlWritable (n : Nat) : Word := if n = 0 then 0xDC00000000000FFF else 0xFC00000000000FFF

/-- Writes a counter-page register, as WRCNT and a store to page 4 do (R768): `mask` marks the bits written, `rt` whether
the writer is in RUNTIME mode. -/
def State.writeCnt (s : State) (c : CoreId) (sel : Nat) (v mask : Word) (rt : Bool) : State :=
  let k := s.core c
  let p := k.pmu
  let on (i : Nat) : Bool := v.getLsbD i && mask.getLsbD i
  let bit (old : Bool) (i : Nat) : Bool := if mask.getLsbD i then v.getLsbD i else old
  let p1 : Pmu :=
    if sel = 0x00 then
      { p with cycleBase := BitVec.ofNat 64 ((s.region (coreRegion c)).cycles / 1000) - maskIn (s.cycleWord c) v mask }
    else if 0x01 ≤ sel ∧ sel ≤ 0x08 then
      let new := maskIn ((Tab.get 0 p.cnt (sel - 1)).setWidth 64) v mask
      { p with cnt := Tab.put 0 p.cnt (sel - 1) (new.setWidth 48) }
    else if 0x10 ≤ sel ∧ sel ≤ 0x17 then
      let new := maskIn (Tab.get 0 p.ctl (sel - 0x10)) v mask &&& ctlWritable (sel - 0x10)
      { p with ctl := Tab.put 0 p.ctl (sel - 0x10) new }
    else if sel = 0x20 then
      { p with freeze := bit p.freeze 63, abortFrozen := p.abortFrozen && !on 62,
               jobWrite := if rt then bit p.jobWrite 61 else p.jobWrite, freezeOnOvf := bit p.freezeOnOvf 60 }
    else if sel = 0x21 then
      { p with sampleValid := p.sampleValid && !on 15, ovf := p.ovf &&& ~~~((v &&& mask).setWidth 8) }
    else p
  s.setCore c { k with pmu := p1 }

/-- Every bit. -/
def allBits : Word := BitVec.allOnes 64

def execRdcnt (c : CoreId) (rd : Reg) (imm : BitVec 8) (s : State) : Out :=
  s.issue c [.g rd] (fun s =>
    match s.readCnt c imm.toNat with
    | none => .next (s.illegal c (instrWord (.rdcnt c rd imm)))
    | some v => .next (s.modCore c (fun k => (k.setG rd v).retire)))

def execWrcnt (c : CoreId) (rs1 : Reg) (imm : BitVec 8) (s : State) : Out :=
  s.issue c [.g rs1] (fun s =>
    let k := s.core c
    match s.readCnt c imm.toNat with
    | none => .next (s.illegal c (instrWord (.wrcnt c rs1 imm)))
    | some _ =>
      if decide (k.mode = .job) && !k.pmu.jobWrite then .next (s.privileged c (instrWord (.wrcnt c rs1 imm)))
      else .next ((s.writeCnt c imm.toNat (k.getG rs1) allBits (decide (k.mode = .runtime))).modCore c Core.retire))

/-! ## WFI, TRAP, TRET, illegal instructions, interrupts -/

def execWfi (c : CoreId) (s : State) : Out :=
  s.issue c [] (fun s =>
    let k := (s.core c).latchTimer s.ftimeWord
    if k.intReady then .next (s.setCore c k.retire) else .next (s.setCore c { k with stall := .wfi }))

def execTrap (c : CoreId) (imm : BitVec 8) (s : State) : Out :=
  s.issue c [] (fun s => .next (s.trap c 0x06 (imm.setWidth 64) (s.core c).pc))

/-- TRET, RUNTIME mode only (Table 2.2). -/
def execTret (c : CoreId) (s : State) : Out :=
  s.issue c [] (fun s =>
    let k := s.core c
    if decide (k.mode = .job) then .next (s.privileged c (instrWord (.tret c)))
    else .next (s.setCore c ({ k.leave with stall := .none }.retired k.pc)))

/-- A word that R81 defines for no instruction. A word that decodes to one raises nothing. -/
def execIllegalInstruction (c : CoreId) (w : BitVec 32) (s : State) : Out :=
  s.issue c [] (fun s =>
    match decodeWord c w with
    | some _ => .next s
    | none => .next (s.illegal c (w.setWidth 64)))

/-- The lowest-numbered bit set. -/
def lowestBit (b : BitVec 8) : Option Nat := (List.range 8).find? (fun i => b.getLsbD i)

/-- A pending and enabled interrupt is taken between instructions while NEST is clear; of several, the one with the lowest
cause (R153, DEDUCED, log 14). INT_PENDING keeps its bit until it is written. A WFI that it ends retires first, also where
NEST holds the interrupt back (R147). -/
def execInterruptTake (c : CoreId) (s : State) : Out :=
  if s.coreRuns c then
    let k1 := ((s.core c).latchTimer s.ftimeWord).wake
    match lowestBit (k1.intPending &&& k1.intEnable) with
    | none => .next s
    | some n => .next (s.setCore c (if k1.nest then k1 else k1.enter (0x20 + n) (Tab.get 0 k1.intAddr n) k1.pc))
  else .next s

/-- Poisoned data that has reached the core: the trap of R802, with TRAP_PC at the oldest instruction not yet issued. -/
def execPoisonConsumed (c : CoreId) (s : State) : Out :=
  let k := s.core c
  if s.coreRuns c then
    match k.poison with
    | [] => .next s
    | p :: rest => .next ((s.setCore c { k with poison := rest }).trap c 0x08 p.addr k.pc)
  else .next s

/-! ## Start and halt (R77, R801) -/

/-- RUN set: HALTED clears and the core starts at START_PC in the mode it held (R801). A core that is still halting goes on
where it stands, which its START_PC then holds (log 92). An abort that found the core halted is taken at once (log 15). -/
def Core.start (k : Core) : Core :=
  if k.run && !k.halted then k
  else
    let k0 := if k.halted then k else k.nowHalted
    let k1 := { k0 with run := true, halted := false, pc := k0.startPc, stall := .none }
    match k1.abortPending with
    | none => k1
    | some index => { k1.enter 0x3F index k1.pc with abortPending := none }

/-- RUN cleared: a running core halts at its next instruction boundary (R801). -/
def Core.stop (k : Core) : Core := if k.run && !k.halted then k.halt else { k with run := false }

/-- Whether a writer may write a control page: the Rind controller, or a core in RUNTIME mode that runs (R77, R95). -/
def State.mayControl (s : State) : Writer → Bool
  | .rind => true
  | .core w => s.coreRuns w && decide ((s.core w).mode = .runtime)

def execCoreRunSet (w : Writer) (c : CoreId) (s : State) : Out :=
  if s.mayControl w && s.coreAlive c then .next (s.modCore c (fun k => k.start.raiseInt 4 0)) else .next s

def execCoreRunClear (w : Writer) (c : CoreId) (s : State) : Out :=
  if s.mayControl w && s.coreAlive c then .next (s.modCore c (fun k => k.stop.raiseInt 4 0)) else .next s

/-! ## Fences (R110-R115) -/

/-- Every older load has returned and every older store and atomic has been performed. -/
def Core.localDone (k : Core) : Bool := k.memops.isEmpty

/-- Some older store or atomic of the core has not been performed (R269). -/
def Core.storesPending (k : Core) : Bool :=
  k.memops.any (fun m => match m.kind with | .store => true | .amo _ _ _ _ => true | _ => false)

/-- A message to this chip that has not been delivered whole. -/
def State.msgsHere (s : State) (c : CoreId) : Bool :=
  (s.core c).outMsgs.any (fun m => decide (s.reach m.dst = .here))

/-- Packets of a core that its stores for unflowed packets still hold: remote TINCs or messages not acknowledged. -/
def State.unacked (s : State) (c : CoreId) (k : PKind) : Nat :=
  ((s.fab.west.store ++ s.fab.east.store).filter (fun u => u.pkt.srcCore == c && u.pkt.kind == k)).length

/-- An address that names another chip. -/
def State.isAway (s : State) (a : Word) : Bool :=
  match s.reach a with
  | .away _ => true
  | _ => false

/-- A Ladle descriptor writes to another chip: its destination, or one of its list entries, lies there. -/
def State.writesAway (s : State) (w : List Word) : Bool :=
  let w1 := w.getD 1 0
  let op := ((w.getD 2 0).extractLsb' 8 4).toNat
  let n := ((w.getD 5 0).extractLsb' 32 16).toNat
  if op = 2 then (List.range n).any (fun i => s.isAway (s.loadWord (addrOff w1 + 16 * i)))
  else s.isAway w1

/-- A remote write of a Ladle that has not been acknowledged, or has still to be issued (R113). -/
def State.ladleAway (s : State) (c : CoreId) : Bool :=
  let k := s.core c
  k.ladleQ.any (fun d => s.writesAway d.w) ||
  k.ladleRun.any (fun r => !r.issuedAll && s.writesAway r.desc.w) ||
  k.ladleTxs.any (fun t => match t.path with
    | .write _ _ => !t.acked | .tally _ _ => !t.acked | .lost => true | _ => false)

def State.fence (s : State) (c : CoreId) (done : State → Bool) : Out :=
  s.issue c [] (fun s => if done s then .next (s.modCore c (fun k => k.settleDrops.retire)) else .next (s.stallAt c .loadOrFence))

def State.chipDone (s : State) (c : CoreId) : Bool := (s.core c).localDone && !s.msgsHere c

def State.fabricDone (s : State) (c : CoreId) : Bool :=
  s.chipDone c && !s.ladleAway c && decide (s.unacked c .tinc = 0) && decide (s.unacked c .message = 0)

def execFenceLocal (c : CoreId) (s : State) : Out := s.fence c (fun s => (s.core c).localDone)
def execFenceChip (c : CoreId) (s : State) : Out := s.fence c (fun s => s.chipDone c)
def execFenceFabric (c : CoreId) (s : State) : Out := s.fence c (fun s => s.fabricDone c)

/-! ## Cache-range operations (R116-R120) -/

/-- The offsets of a range: none when it names another chip or has length 0; bytes past the top of the span are
ignored (R119). -/
def State.rangeOf (s : State) (base len : Word) : Option (Nat × Nat) :=
  if len = 0 then none
  else match s.reach base with
    | .here => some (addrOff base, Nat.min (addrOff base + len.toNat) (2 ^ 48))
    | _ => none

/-- The lines of a core's cache that overlap a range. -/
def Core.linesIn (k : Core) (r : Option (Nat × Nat)) : List Nat :=
  match r with
  | none => []
  | some (lo, hi) => (k.cache.map (fun e => e.1)).filter (fun n => decide (64 * n < hi) && decide (lo < 64 * n + 64))

/-- A line leaves the cache; how it was stays known to loads that may be performed before. -/
def Core.dropLine (k : Core) (n : Nat) (l : CLine) : Core :=
  let k1 := k.setLine n none
  { k1 with late := Tab.put none k1.late n (some { l with dirty := 0 }) }

/-- One line of a range operation: a dirty line whose write-back the table permits is written back and left clean; one
whose write-back it does not permit stays as it is; a line that is clean is dropped when `drop` is set, though
a younger load may be performed before (05 R268; log 132). -/
def State.rangeLine (s : State) (c : CoreId) (drop : Bool) (n : Nat) : State :=
  let k := s.core c
  match k.line n with
  | none => s
  | some l =>
    if l.dirty = 0 then s.setCore c (if drop then k.dropLine n l else k)
    else if k.permits true (64 * n) 64 then
      (s.writeBack n l).modCore c (fun k =>
        (if drop then k.dropLine n l else k.setLine n (some { l with dirty := 0 })).count 0x034 1 k.pc 0)
    else s

def State.rangeOp (s : State) (c : CoreId) (drop : Bool) (r : Option (Nat × Nat)) : State :=
  ((s.core c).linesIn r).foldl (fun s n => s.rangeLine c drop n) s

/-- An older access to the range has not been performed yet. -/
def Core.rangeBusy (k : Core) (r : Option (Nat × Nat)) : Bool :=
  match r with
  | none => false
  | some (lo, hi) => k.conflict lo (hi - lo)

def State.rangeInstr (s : State) (c : CoreId) (rs1 rs2 : Reg) (drop : Bool) : Out :=
  s.issue c [.g rs1, .g rs2] (fun s =>
    let k := s.core c
    let r := s.rangeOf (k.getG rs1) (k.getG rs2)
    if k.rangeBusy r then .next (s.stallAt c .loadOrFence)
    else .next ((s.rangeOp c drop r).modCore c Core.retire))

def execCflushRange (c : CoreId) (rs1 rs2 : Reg) (s : State) : Out := s.rangeInstr c rs1 rs2 false
def execCinvRange (c : CoreId) (rs1 rs2 : Reg) (s : State) : Out := s.rangeInstr c rs1 rs2 true

/-- Drops the speculative fills in flight to a range (R107). -/
def Core.dropFills (k : Core) (r : Option (Nat × Nat)) : Core :=
  match r with
  | none => k
  | some (lo, hi) =>
    { k with fills := k.fills.filter (fun f =>
        !(f.speculative && decide (64 * f.line < hi) && decide (lo < 64 * f.line + 64))) }

/-- ACQINV retires only after every older load has returned its data (R271). -/
def execAcqinv (c : CoreId) (rs1 rs2 : Reg) (s : State) : Out :=
  s.issue c [.g rs1, .g rs2] (fun s =>
    let k := s.core c
    let r := s.rangeOf (k.getG rs1) (k.getG rs2)
    if k.rangeBusy r || k.memops.any (fun m => decide (m.kind ≠ .store)) then .next (s.stallAt c .acqinv)
    else .next ((s.rangeOp c true r).modCore c (fun k => (k.dropFills r).settleDrops.retire)))

end Sys2Proof.Machine
end

