-- ==== Sys2Proof/Machine/Packets.lean ====
section
/-! DEFINITION. Packets and flow contexts: their fields, their flits, the streams of unflowed packets, and sending on a flow
(09 R407-R430). -/
namespace Sys2Proof.Machine

/-! ## Dies and flow contexts -/

def State.die (s : State) : Die → DieSt
  | .west => s.fab.west
  | .east => s.fab.east

def State.setDie (s : State) (d : Die) (x : DieSt) : State :=
  match d with
  | .west => { s with fab := { s.fab with west := x } }
  | .east => { s with fab := { s.fab with east := x } }

def State.modDie (s : State) (d : Die) (f : DieSt → DieSt) : State := s.setDie d (f (s.die d))

/-- The die that holds a flow context (R417). -/
def flowDie (i : Nat) : Die := if i < 8192 then .west else .east

/-- The die at which a core's messages enter: West for columns 0-15, East for 16-31 (DESIGN CHOICE, log 21). -/
def coreDie (c : CoreId) : Die := if coreCol c < 16 then .west else .east

/-- The die at which remote TINCs, barrier arrivals and aborts enter: one for all, so that one stream keeps the issue order of the
Signal class (05 Table 5.5; DESIGN CHOICE, logs 21, 22). -/
def signalDie : Die := .west

def State.flow (s : State) (i : Nat) : Flow := Tab.get Flow.reset s.fab.flows i

def State.setFlow (s : State) (i : Nat) (f : Flow) : State :=
  { s with fab := { s.fab with flows := Tab.put Flow.reset s.fab.flows i f } }

def State.modFlow (s : State) (i : Nat) (f : Flow → Flow) : State := s.setFlow i (f (s.flow i))

/-- IN_FLIGHT: BYTES - RETURNED. -/
def Flow.inFlight (f : Flow) : Nat := (f.bytes - f.returned).toNat

/-! ## Packets -/

def Packet.off (p : Packet) : Nat := p.dstOff.toNat

/-- Data flits: the aligned lines that the payload touches (R409). -/
def Packet.lines (p : Packet) : Nat :=
  if p.data.isEmpty then 0 else (Packet.off p % 64 + p.data.length + 63) / 64

def Packet.flits (p : Packet) : Nat := 1 + Packet.lines p

/-- Window bytes: 64 for each flit. -/
def Packet.window (p : Packet) : Nat := 64 * Packet.flits p

/-- The classes that a kind may travel in (Table 9.4). -/
def PKind.allows : PKind → TClass → Bool
  | .write, c => decide (c ≠ .signal)
  | .readReq, c => decide (c ≠ .signal)
  | .readResp, c => decide (c ≠ .signal)
  | .tallyWrite, c => decide (c ≠ .signal)
  | .message, c => decide (c = .adaptive)
  | .pieceReq, c => decide (c = .service)
  | .piece, c => decide (c = .service)
  | .reserved _, _ => false
  | _, c => decide (c = .signal)

/-- Kinds that are refused back to their source (R815). -/
def PKind.refusable : PKind → Bool
  | .ack => false
  | .nak => false
  | .beacon => false
  | .audit => false
  | .reserved _ => false
  | _ => true

/-- Kinds that streams number (R425). -/
def PKind.unflowed : PKind → Bool
  | .tinc => true
  | .message => true
  | .barrierArrive => true
  | .barrierRelease => true
  | .abort => true
  | _ => false

def noCore : BitVec 10 := 0x3FF
def noFlow : BitVec 14 := 0x3FFF

def Packet.arg (p : Packet) (i : Nat) : Word := p.args.getD i 0

/-- A packet of this chip with its kind, class, destination and arguments. -/
def State.newPacket (s : State) (chip : BitVec 16) (off : Nat) (core : BitVec 10) (cls : TClass) (kind : PKind)
    (die : Die) (args : List Word) : Packet :=
  { dstChip := chip, dstOff := BitVec.ofNat 48 off, srcChip := s.fab.chip, srcCore := core, cls := cls, kind := kind,
    vl := 0, hops := 0, nonmin := false, ackNow := false, last := false, offSched := false, srcDie := die, flow := noFlow, epoch := 0, seq := 0, schedId := 0, injectTime := 0, args := args, data := [],
    poison := [] }

/-- The input of the die's own sources in Table 9.13: it follows the 48 ports and the bridges W0, W1, E0, E1 and X. -/
def ownInput : Nat := 53

/-- Bridge X as an input. -/
def inputX : Nat := 52

/-- The input by which a packet made in this package reaches a die: the bridge nearest its core, or the die's own sources. -/
def inputOf (d : Die) (core : BitVec 10) : Nat :=
  if core = noCore then ownInput
  else match bridgeFor d (coreRouter core) with
    | .w0 => 48
    | .w1 => 49
    | .e0 => 50
    | .e1 => 51
    | .x => inputX

/-- A packet made in this package, at a die. -/
def RoutePkt.own (d : Die) (p : Packet) : RoutePkt :=
  { input := inputOf d p.srcCore, origin := ownInput, globals := 0, arriving := none, buf := none, pkt := p }

/-- Puts a packet at its die, to be routed, with the time of its injection. -/
def State.inject (s : State) (d : Die) (p : Packet) : State :=
  s.modDie d (fun x => { x with toRoute := x.toRoute ++
    [RoutePkt.own d { p with injectTime := BitVec.ofInt 48 s.ftime }] })

/-! ## Streams of unflowed packets (R425, R426) -/

/-- The oldest sequence of a stream that its store still holds. -/
def DieSt.oldest (x : DieSt) (chip : BitVec 16) : Option (BitVec 32) :=
  (x.store.find? (fun u => u.pkt.dstChip == chip)).map (fun u => u.pkt.seq)

/-- Sends the stored packets of a stream whose sequence lies less than 64 above its oldest. -/
def State.pumpStream (s : State) (d : Die) (chip : BitVec 16) : State :=
  let x := s.die d
  match x.oldest chip with
  | none => s
  | some low =>
    let ready (u : Unflowed) : Bool := u.pkt.dstChip == chip && !u.sent && decide ((u.pkt.seq - low).toNat < 64)
    let s1 := (x.store.filter ready).foldl (fun s u => s.inject d u.pkt) s
    s1.modDie d (fun x => { x with store := mapIf ready (fun u => { u with sent := true, sentTime := s.now }) x.store })

/-- The store of a die has room (R426). -/
def State.storeRoom (s : State) (d : Die) : Bool := decide ((s.die d).store.length < 4096)

/-- Gives a packet the next sequence of its stream, keeps it until it is acknowledged, and sends it when the stream's
window allows. -/
def State.sendUnflowed (s : State) (d : Die) (p : Packet) : State :=
  let x := s.die d
  let next : BitVec 32 := match x.tx.find? (fun t => t.chip == p.dstChip) with | some t => t.next | none => 0
  let tx := match x.tx.find? (fun t => t.chip == p.dstChip) with
    | some _ => mapIf (fun (t : TxStream) => t.chip == p.dstChip) (fun t => { t with next := t.next + 1 }) x.tx
    | none => x.tx ++ [{ chip := p.dstChip, next := 1 }]
  let u : Unflowed :=
    { pkt := { p with seq := next, flow := noFlow, srcDie := d }, sent := false, sentTime := 0, wait := 100000 }
  (s.setDie d { x with tx := tx, store := x.store ++ [u] }).pumpStream d p.dstChip

/-! ## Sending on a flow (R419) -/

/-- The flow may send a packet of so many window bytes: at most 1,024 sequences beyond ACK_SEQ, and inside its window. -/
def Flow.canSend (f : Flow) (w : Nat) : Bool :=
  f.valid && !f.sink && decide (f.err = 0) && decide ((f.seq - f.ackSeq).toNat < 1024) &&
    (!f.winEn || decide (f.inFlight + w ≤ f.window.toNat))

/-- Gives a packet the next sequence of its flow and sends it. A WRITE is a data packet and counts (R429, R430). -/
def State.flowSend (s : State) (i : Nat) (p : Packet) : State :=
  let f := s.flow i
  let p1 := { p with flow := f.peerFlow, epoch := f.epoch, seq := f.seq, srcDie := flowDie i,
                     schedId := if p.cls = .scheduled then f.schedId else 0,
                     offSched := decide (p.cls = .scheduled) && f.offSched }
  let f1 := { f with seq := f.seq + 1, count := if p.kind = .write then f.count + 1 else f.count,
                     bytes := f.bytes + BitVec.ofNat 64 (Packet.window p), lastTime := BitVec.ofInt 48 s.ftime,
                     sentAt := f.sentAt ++ [(f.seq, s.now)] }
  (s.setFlow i f1).inject (flowDie i) p1

/-- CLASS of a flow context or a Ladle descriptor. -/
def classOfCode (c : BitVec 2) : TClass :=
  if c = 0 then .service else if c = 1 then .adaptive else if c = 2 then .scheduled else .signal

/-- A region discards what reaches it, or one of its cores, while it cannot take it: counted in DISCARDED of object 0x6020,
reported as a contained error and as a region notice to the core (01 R52, 06 R299). -/
def State.regionDiscard (s : State) (r n : Nat) (affected : List CoreId) : State :=
  let o := s.org
  let s1 := { s with org := { o with
    regionDiscarded := Tab.put 0 o.regionDiscarded r (satAdd 0xFFFFFFFF (Tab.get 0 o.regionDiscarded r) n) } }
  let s2 := s1.modCores affected (fun _ k => k.raiseInt 6 (BitVec.ofNat 64 r))
  s2.contained { unit := 5, cls := 3, cause := 0x42, index := r, detail := BitVec.ofNat 32 n } 1

end Sys2Proof.Machine
end

