-- ==== Sys2Proof/Machine/Barriers.lean ====
section
/-! DEFINITION. Barrier contexts: arrival, combining across chips, completion, the release wave, and the context's registers
(02 R143, R144; 06 R309-R325, R811-R813). -/
namespace Sys2Proof.Machine

def State.ctx (s : State) (n : Nat) : Barrier := Tab.get Barrier.reset s.barriers.ctxs n

def State.setCtx (s : State) (n : Nat) (b : Barrier) : State :=
  { s with barriers := { s.barriers with ctxs := Tab.put Barrier.reset s.barriers.ctxs n b } }

/-- The address of a context (R309), as a trap's TRAP_ADDR holds it: in the CHIP field that names the package itself, 0xFFFF, whatever
address the core used (DESIGN CHOICE, log 134). -/
def ctxAddr (n : Nat) : Word := BitVec.ofNat 64 (0xFFFF * 2 ^ 48 + 0x10500000000 + n * 0x1000)

def Barrier.memberChips (b : Barrier) : List (BitVec 16) := (List.range b.members.toNat).map (Tab.get 0 b.list)

def Barrier.leaderChips (b : Barrier) : List (BitVec 16) :=
  (List.range b.otherLeaders.toNat).map (fun i => Tab.get 0 b.list (b.members.toNat + i))

/-! ## The release wave (R320-R322) -/

/-- The first time at or after `t` that lies 250 ns from every release already placed. -/
def freeSlot (t : Nat) : List Nat → Nat
  | [] => t
  | d :: ds => freeSlot (if t < d + 250 ∧ d < t + 250 then d + 250 else t) ds

/-- The regions that a context names, from the rotation pointer on, ascending modulo 16. -/
def releaseOrder (b : Barrier) (start : Nat) : List Nat :=
  ((List.range 16).map (fun i => (start + i) % 16)).filter (fun r => b.regions.getLsbD r)

/-- Inserts a time in a rising list. -/
def insertTime (t : Nat) : List Nat → List Nat
  | [] => [t]
  | d :: ds => if t ≤ d then t :: d :: ds else d :: insertTime t ds

/-- Places the releases of a completed generation, the first at `from'` and each next one 250 ns later, where a slot is free. -/
def BarrierSt.placeReleases (x : BarrierSt) (n : Nat) (gen : BitVec 32) (from' : Nat) (regions : List Nat) : BarrierSt :=
  let taken := (x.releases.map (fun r => r.due)).foldl (fun l t => insertTime t l)
    (match x.lastRelease with | none => [] | some t => [t])
  let placed := regions.zipIdx.foldl (fun (st : List Release × List Nat) r =>
    let t := freeSlot (from' + 250 * r.2) st.2
    (st.1 ++ [Release.mk n gen r.1 t], insertTime t st.2)) ([], taken)
  { x with releases := x.releases ++ placed.1, rotation := (x.rotation + 1) % 16 }

/-- Completes a generation: GEN advances, the counts of NEXT move in, the release begins (R319, R321). -/
def State.barrierComplete (s : State) (n : Nat) : State :=
  let b := s.ctx n
  let order := releaseOrder b s.barriers.rotation
  let b1 := { b with gen := b.gen + 1, arrived := b.nArrived, membersIn := b.nMembers, leadersIn := b.nLeaders,
                     nArrived := 0, nMembers := 0, nLeaders := 0, state := if order.isEmpty then 0 else 2 }
  let s1 := s.setCtx n b1
  let start := s.now + (if b.cross then 1000 * s.barriers.releaseOffset else 0)
  { s1 with barriers := s1.barriers.placeReleases n b.gen start order }

/-- Queues single-flit sends of the barrier engine (R316, R317). -/
def State.barrierSend (s : State) (kind : PKind) (n : Nat) (gen : BitVec 32) (chips : List (BitVec 16)) : State :=
  let new := chips.map (fun d => EngineSend.mk d kind [BitVec.ofNat 64 n, gen.setWidth 64])
  { s with barriers := { s.barriers with sends := s.barriers.sends ++ new } }

/-- What the counts of the present generation call for (R315-R317). -/
def State.barrierTurn (s : State) (n : Nat) : State :=
  let b := s.ctx n
  if !b.valid || b.frozen || b.state = 3 || b.arrived.toNat < b.localCount.toNat || b.localCount = 0 then s
  else if !b.cross then s.barrierComplete n
  else if !b.leader then
    if b.state = 1 then s
    else (s.setCtx n { b with state := 1 }).barrierSend .barrierArrive n b.gen [b.leaderChip]
  else if b.membersIn.toNat < b.members.toNat then s
  else
    let s1 := if b.state = 1 then s
      else (s.setCtx n { b with state := 1 }).barrierSend .barrierArrive n b.gen b.leaderChips
    if (s1.ctx n).leadersIn.toNat < b.otherLeaders.toNat then s1
    else (s1.barrierSend .barrierRelease n b.gen b.memberChips).barrierComplete n

/-- What a context does once its counts have changed: the counts that a completed generation moves in from NEXT may call for
more at once (R319). -/
def State.barrierCheck (s : State) (n : Nat) : State := (s.barrierTurn n).barrierTurn n

/-! ## BARRIER (R143, R144, R311, R313) -/

/-- The generation at which a core has arrived, where it has. -/
def Core.arrivedGen (k : Core) (n : Nat) : Option (BitVec 32) :=
  (k.barrierArrived.find? (fun e => e.1 = n)).map (fun e => e.2)

def Core.forgetArrival (k : Core) (n : Nat) : Core :=
  { k with barrierArrived := k.barrierArrived.filter (fun e => e.1 ≠ n) }

/-- A region has been released for a generation. -/
def State.released (s : State) (n : Nat) (gen : BitVec 32) (region : Nat) : Bool :=
  let b := s.ctx n
  b.regions.getLsbD region && !(b.gen - gen - 1).msb &&
    !s.barriers.releases.any (fun r => decide (r.ctx = n) && r.gen == gen && decide (r.region = region))

def execBarrier (c : CoreId) (rs1 : Reg) (s : State) : Out :=
  s.issue c [.g rs1] (fun s =>
    let k := s.core c
    let v := k.getG rs1
    let n := v.toNat
    if 255 < n then .next (s.trap c 0x03 v k.pc)
    else if !(s.ctx n).valid || (s.ctx n).frozen then .next (s.trap c 0x03 (ctxAddr n) k.pc)
    else if !s.chipDone c then .next (s.stallAt c .barrierFence)
    else
      let b := s.ctx n
      match k.arrivedGen n with
      | some g =>
        if s.released n g (coreRegion c) then .next (s.setCore c (k.forgetArrival n).retire)
        else .next (s.stallAt c (.barrier n g))
      | none =>
        let early := decide (b.localCount.toNat ≤ b.arrived.toNat)
        let b1 := if early then { b with nArrived := b.nArrived + 1 } else { b with arrived := b.arrived + 1 }
        let g := if early then b.gen + 1 else b.gen
        let s1 := s.setCore c { k.settleDrops with barrierArrived := k.barrierArrived ++ [(n, g)], stall := .barrier n g }
        .next ((s1.setCtx n b1).barrierCheck n))

/-- The next region is released in its slot: every core of it that stalls on the context for the generation resumes. -/
def execRegionRelease (s : State) : Out :=
  match takeFirst (fun (r : Release) => s.barriers.releases.all (fun x => decide (r.due ≤ x.due))) s.barriers.releases with
  | none => .next s
  | some (r, rest) =>
    let early := match s.barriers.lastRelease with | none => false | some t => decide (s.now < t + 250)
    if decide (s.now < r.due) || early then .next s
    else
      let s1 := { s with barriers := { s.barriers with releases := rest, lastRelease := some s.now } }
      let s1 := s1.modRegion r.region (fun x => { x with releasedAt := some s.now })
      let cores := (s.org.regionCores r.region).filter (fun c => decide ((s.core c).stall = .barrier r.ctx r.gen))
      let s2 := s1.modCores cores (fun _ k => (k.forgetArrival r.ctx).retire)
      let b := s2.ctx r.ctx
      if b.state = 2 && !rest.any (fun x => x.ctx = r.ctx) then .next (s2.setCtx r.ctx { b with state := 0 })
      else .next s2

/-! ## The engine and the packets (R316-R318, R811-R813) -/

/-- The barrier engine sends the next packet, one every 2 ns; the engine of the West die sends them (DESIGN CHOICE, log
22), on the stream that remote TINCs use too (05 Table 5.5). -/
def execBarrierEngineSend (s : State) : Out :=
  match s.barriers.sends with
  | [] => .next s
  | e :: rest =>
    let early := match s.barriers.lastSend with | none => false | some t => decide (s.now < t + 2)
    if early || !s.storeRoom .west then .next s
    else
      let s1 := { s with barriers := { s.barriers with sends := rest, lastSend := some s.now } }
      .next (s1.sendUnflowed .west (s.newPacket e.dstChip 0 noCore .signal e.kind .west e.args))

/-- An error of a context: STATE 0b11 and a contained error (R318). -/
def State.barrierError (s : State) (n : Nat) (skew : Bool) (chip : BitVec 16) : State :=
  let b := s.ctx n
  let b1 := if skew then { b with genSkew := true, state := 3 } else { b with unknownPeer := true, state := 3 }
  (s.setCtx n b1).contained { unit := 9, cls := 3, cause := if skew then 0x47 else 0x48, index := n,
                              detail := chip.setWidth 32 } 1

/-- A packet for a context that is not in use, or frozen, is discarded and counted. -/
def State.barrierDiscard (s : State) (n : Nat) : State :=
  s.setCtx n { s.ctx n with discarded := satAdd 0xFFFFFFFF (s.ctx n).discarded 1 }

/-- An arrival reaches a context. -/
def State.barrierArrival (s : State) (n : Nat) (gen : BitVec 32) (chip : BitVec 16) : State :=
  let b := s.ctx n
  if !b.valid || b.frozen then s.barrierDiscard n
  else if !(b.cross && b.leader) then s.barrierError n false chip
  else
    let member := b.memberChips.contains chip
    if !member && !b.leaderChips.contains chip then s.barrierError n false chip
    else if gen = b.gen then
      let b1 := if member then { b with membersIn := b.membersIn + 1 } else { b with leadersIn := b.leadersIn + 1 }
      (s.setCtx n b1).barrierCheck n
    else if gen = b.gen + 1 then
      s.setCtx n (if member then { b with nMembers := b.nMembers + 1 } else { b with nLeaders := b.nLeaders + 1 })
    else s.barrierError n true chip

/-- The engine has sent the arrival of a member context: none waits to be sent. -/
def State.arrivalSent (s : State) (n : Nat) : Bool :=
  !s.barriers.sends.any (fun e => decide (e.kind = .barrierArrive) && decide (e.args.head? = some (BitVec.ofNat 64 n)))

/-- A release reaches a context (R813). -/
def State.barrierReleased (s : State) (n : Nat) (gen : BitVec 32) (chip : BitVec 16) : State :=
  let b := s.ctx n
  if !b.valid || b.frozen then s.barrierDiscard n
  else if !b.cross || b.leader || b.leaderChip ≠ chip then s.barrierError n false chip
  else if gen = b.gen ∧ b.state = 1 ∧ s.arrivalSent n = true then (s.barrierComplete n).barrierCheck n
  else s.barrierError n true chip

/-! ## Registers (Table 6.5) -/

def Barrier.cfg0 (b : Barrier) : Word :=
  BitVec.ofBool b.valid ++ BitVec.ofBool b.cross ++ BitVec.ofBool b.leader ++ (0 : BitVec 13) ++ b.leaderChip ++
    (0 : BitVec 11) ++ b.members ++ (0 : BitVec 7) ++ b.otherLeaders

def Barrier.cfg1 (b : Barrier) : Word := (0 : BitVec 16) ++ b.regions ++ (0 : BitVec 21) ++ b.localCount

def Barrier.status (b : Barrier) : Word :=
  b.gen ++ b.arrived ++ b.membersIn ++ b.leadersIn ++ (0 : BitVec 5) ++ b.state

/-- NEXT holds the counts for GEN + 1 in the positions of 0x010 31:7. -/
def Barrier.next (b : Barrier) : Word :=
  (0 : BitVec 32) ++ b.nArrived ++ b.nMembers ++ b.nLeaders ++ (0 : BitVec 7)

def Barrier.flags (b : Barrier) : Word :=
  (0 : BitVec 59) ++ BitVec.ofBool b.frozen ++ (0 : BitVec 1) ++ BitVec.ofBool b.unknownPeer ++ BitVec.ofBool b.genSkew ++
    BitVec.ofBool b.configBusy

/-- Four chip numbers of LIST, the first lowest. -/
def Barrier.listWord (b : Barrier) (i : Nat) : Word :=
  Tab.get 0 b.list (4 * i + 3) ++ Tab.get 0 b.list (4 * i + 2) ++ Tab.get 0 b.list (4 * i + 1) ++ Tab.get 0 b.list (4 * i)

def Barrier.read (b : Barrier) (off : Nat) : Word :=
  if off = 0x000 then b.cfg0
  else if off = 0x008 then b.cfg1
  else if off = 0x010 then b.status
  else if off = 0x018 then b.next
  else if off = 0x020 then b.flags
  else if off = 0x028 then BitVec.ofNat 64 b.discarded
  else if 0x400 ≤ off ∧ off < 0xC00 then b.listWord ((off - 0x400) / 8)
  else 0

/-- No count stands and the context collects (R310). -/
def Barrier.idle (b : Barrier) : Bool :=
  b.state = 0 && !b.frozen && b.arrived = 0 && b.membersIn = 0 && b.leadersIn = 0 && b.nArrived = 0 &&
    b.nMembers = 0 && b.nLeaders = 0

/-- Writes the configuration at 0x000 or 0x008; any write at another time is ignored and sets CONFIG_BUSY (R310). -/
def Barrier.writeCfg (b : Barrier) (second : Bool) (v mask : Word) : Barrier :=
  if !b.idle then { b with configBusy := true }
  else if second then
    let w := maskIn b.cfg1 v mask
    { b with regions := w.extractLsb' 32 16, localCount := w.extractLsb' 0 11 }
  else
    let w := maskIn b.cfg0 v mask
    { b with valid := w.getLsbD 63, cross := w.getLsbD 62, leader := w.getLsbD 61, leaderChip := w.extractLsb' 32 16,
             members := w.extractLsb' 16 5, otherLeaders := w.extractLsb' 0 9 }

/-- RESET (R312): ignored, with CONFIG_BUSY, while a core stalls on the context. -/
def State.barrierReset (s : State) (n : Nat) : State :=
  let b := s.ctx n
  let stalls := allCores.any (fun c => match (s.core c).stall with | .barrier m _ => decide (m = n) | _ => false)
  if stalls then s.setCtx n { b with configBusy := true }
  else
    let s1 := s.setCtx n
      { b with gen := 0, arrived := 0, membersIn := 0, leadersIn := 0, nArrived := 0, nMembers := 0, nLeaders := 0,
               discarded := 0, unknownPeer := false, genSkew := false, frozen := false, state := 0 }
    let s2 := s1.modCores (allCores.filter (fun c => ((s.core c).arrivedGen n).isSome)) (fun _ k => k.forgetArrival n)
    { s2 with barriers := { s2.barriers with releases := s2.barriers.releases.filter (fun r => r.ctx ≠ n) } }

/-- A write to a context's block. -/
def State.barrierWrite (s : State) (n off : Nat) (v mask : Word) : State :=
  let b := s.ctx n
  if off = 0x000 then s.setCtx n (b.writeCfg false v mask)
  else if off = 0x008 then s.setCtx n (b.writeCfg true v mask)
  else if off = 0x020 then
    let m := v &&& mask
    let s1 := s.setCtx n { b with unknownPeer := b.unknownPeer && !m.getLsbD 2, genSkew := b.genSkew && !m.getLsbD 1,
                                  configBusy := b.configBusy && !m.getLsbD 0 }
    if m.getLsbD 3 then s1.barrierReset n else s1
  else if 0x400 ≤ off ∧ off < 0xC00 then
    let i := (off - 0x400) / 8
    let w := maskIn (b.listWord i) v mask
    s.setCtx n { b with list := (List.range 4).foldl (fun t j =>
      Tab.put 0 t (4 * i + j) (w.extractLsb' (16 * j) 16)) b.list }
  else s

/-- A write to the configuration of a context by RUNTIME software or the Rind controller. -/
def execBarrierConfigWrite (w : Writer) (n : BitVec 8) (second : Bool) (v : Word) (s : State) : Out :=
  if s.mayControl w then .next (s.barrierWrite n.toNat (if second then 0x008 else 0x000) v allBits) else .next s

/-- A write of 1 to RESET of a context. -/
def execBarrierContextReset (w : Writer) (n : BitVec 8) (s : State) : Out :=
  if s.mayControl w then .next (s.barrierWrite n.toNat 0x020 0x8 allBits) else .next s

end Sys2Proof.Machine
end

