-- ==== Sys2Proof/Machine/Control.lean ====
section
/-! DEFINITION. The meanings of branches and jumps, opcodes 0x20 to 0x27 (02 R79, R81). -/
namespace Sys2Proof.Machine

def execBeq (c : CoreId) (rs1 rs2 : Reg) (off : BitVec 16) (s : State) : Out := s.opBranch c rs1 rs2 off (fun a b => a == b)
def execBne (c : CoreId) (rs1 rs2 : Reg) (off : BitVec 16) (s : State) : Out := s.opBranch c rs1 rs2 off (fun a b => a != b)
def execBlt (c : CoreId) (rs1 rs2 : Reg) (off : BitVec 16) (s : State) : Out := s.opBranch c rs1 rs2 off (fun a b => a.slt b)
def execBge (c : CoreId) (rs1 rs2 : Reg) (off : BitVec 16) (s : State) : Out := s.opBranch c rs1 rs2 off (fun a b => !a.slt b)
def execBltu (c : CoreId) (rs1 rs2 : Reg) (off : BitVec 16) (s : State) : Out := s.opBranch c rs1 rs2 off (fun a b => a.ult b)
def execBgeu (c : CoreId) (rs1 rs2 : Reg) (off : BitVec 16) (s : State) : Out := s.opBranch c rs1 rs2 off (fun a b => !a.ult b)

/-- A jump: rd takes the address of the next instruction, pc the target, which is formed from the registers as they were
before. Jumps count as branches (18 0x020, log 10). -/
def State.opJump (s : State) (c : CoreId) (refs : List RegRef) (rd : Reg) (target : Core → Word) : Out :=
  s.issue c (.g rd :: refs) (fun s =>
    .next (s.modCore c (fun k =>
      let pc := k.pc
      let t := target k
      { (k.setG rd (pc + 4)).retire.count 0x020 1 pc 0 with pc := t })))

def execJal (c : CoreId) (rd : Reg) (imm : BitVec 21) (s : State) : Out :=
  s.opJump c [] rd (fun k => k.pc + sext21 imm * 4)

/-- The target's low two bits are cleared (Table 2.2). -/
def execJalr (c : CoreId) (rd rs1 : Reg) (imm : BitVec 16) (s : State) : Out :=
  s.opJump c [.g rs1] rd (fun k => (k.getG rs1 + sext16 imm) &&& ~~~3)

end Sys2Proof.Machine
end

