-- ==== Sys2Proof/Machine/Answer.lean ====
section
/-! DEFINITION. Answers to OAP writes (15 Table 15.9), values in their little-endian encoding, and the image slots that several
chapters read (17 Tables 17.1, 17.3). -/
namespace Sys2Proof.Machine

/-- STATUS of an answer and its body. -/
structure Ans where
  status : Nat
  body : List Byte
deriving DecidableEq, Repr

abbrev WriteOut := Ans × State

def stOk : Nat := 0x00
def stUnknownObject : Nat := 0x01
def stUnknownSub : Nat := 0x02
def stAccess : Nat := 0x03
def stRole : Nat := 0x04
def stInvalid : Nat := 0x05
def stLength : Nat := 0x06
def stBusy : Nat := 0x07
def stHold : Nat := 0x08
def stNotReady : Nat := 0x09
def stSuperseded : Nat := 0x0A
def stRefused : Nat := 0x0B
def stTooLarge : Nat := 0x0C
def stMalformed : Nat := 0x0D
def stLimit : Nat := 0x0E

/-- The write is performed. -/
def State.done (s : State) : WriteOut := ({ status := stOk, body := [] }, s)

/-- The write is refused with a code. -/
def State.deny (s : State) (code : Nat) : WriteOut := ({ status := code, body := [] }, s)

/-- REFUSED with its detail code. -/
def State.refuse (s : State) (detail : Nat) : WriteOut := ({ status := stRefused, body := leBytes 2 detail }, s)

/-- BUSY with RETRY_MS. -/
def State.busy (s : State) (ms : Nat) : WriteOut := ({ status := stBusy, body := leBytes 2 ms }, s)

/-- The `i`-th 64-bit word of bytes; 0 past their end. -/
def wordOf (bs : List Byte) (i : Nat) : Nat := leValue ((bs.drop (8 * i)).take 8)

/-- Bits `hi` to `lo` of a number. -/
def bitsOf (w hi lo : Nat) : Nat := w / 2 ^ lo % 2 ^ (hi + 1 - lo)

/-- Exactly `n` bytes: cut, or filled with 0. -/
def padTo (n : Nat) (bs : List Byte) : List Byte := (bs ++ List.replicate n 0).take n

/-- Whether an index lies in a run of `n` objects from `lo`. -/
def inRun (index lo n : Nat) : Bool := decide (lo ≤ index) && decide (index < lo + n)

/-! ## Images (17 R728, R730) -/

def State.image (s : State) (t : Nat) : Image := Tab.get Image.reset s.fw.images t

def State.setImage (s : State) (t : Nat) (i : Image) : State :=
  { s with fw := { s.fw with images := Tab.put Image.reset s.fw.images t i } }

def Image.slot (i : Image) (n : Nat) : Slot := if n = 0 then i.slot0 else i.slot1

def Image.setSlot (i : Image) (n : Nat) (x : Slot) : Image :=
  if n = 0 then { i with slot0 := x } else { i with slot1 := x }

def Image.running (i : Image) : Slot := i.slot i.active

/-- The descriptor, block 0. -/
def Slot.desc (x : Slot) : List Byte := Tab.get [] x.blocks 0

/-- MAJOR, MINOR and PATCH of a descriptor. -/
def versionOf (d : List Byte) : Nat × Nat × Nat :=
  let w := wordOf d 1
  (bitsOf w 63 56, bitsOf w 55 48, bitsOf w 47 32)

def securityVersion (d : List Byte) : BitVec 16 := BitVec.ofNat 16 (bitsOf (wordOf d 1) 31 16)

/-- The running image's version. -/
def State.imageVersion (s : State) (t : Nat) : Nat × Nat × Nat := versionOf (s.image t).running.desc

end Sys2Proof.Machine
end

