-- ==== Sys2Proof/Machine/Float.lean ====
section
/-! DEFINITION. The number formats of 04: exact values, decoding, the one rounding of each operation, and the
arithmetic of the scalar and vector floating-point instructions. -/
namespace Sys2Proof.Machine

/-- What the codes of a format's all-ones exponent mean (04 Table 4.1). -/
inductive FSpecial where
  | ieee
  | e4m3
  | finite
deriving DecidableEq, Repr

/-- A floating-point format: exponent bits, mantissa bits, special codes (04 Table 4.1), and whether a conversion to it
saturates in every mode (Table 4.5, R245). -/
structure FFmt where
  ew : Nat
  mw : Nat
  special : FSpecial
  saturates : Bool
deriving DecidableEq, Repr

def FFmt.e2m1 : FFmt := { ew := 2, mw := 1, special := .finite, saturates := true }
def FFmt.e3m2 : FFmt := { ew := 3, mw := 2, special := .finite, saturates := true }
def FFmt.e2m3 : FFmt := { ew := 2, mw := 3, special := .finite, saturates := true }
def FFmt.e4m3 : FFmt := { ew := 4, mw := 3, special := .e4m3, saturates := true }
def FFmt.e5m2 : FFmt := { ew := 5, mw := 2, special := .ieee, saturates := true }
def FFmt.bf16 : FFmt := { ew := 8, mw := 7, special := .ieee, saturates := false }
def FFmt.fp16 : FFmt := { ew := 5, mw := 10, special := .ieee, saturates := false }
def FFmt.fp32 : FFmt := { ew := 8, mw := 23, special := .ieee, saturates := false }
def FFmt.fp64 : FFmt := { ew := 11, mw := 52, special := .ieee, saturates := false }

def FFmt.width (f : FFmt) : Nat := 1 + f.ew + f.mw
def FFmt.bias (f : FFmt) : Nat := 2 ^ (f.ew - 1) - 1

/-- The largest finite code without its sign. -/
def FFmt.maxCode (f : FFmt) : Nat :=
  match f.special with
  | .ieee => (2 ^ f.ew - 1) * 2 ^ f.mw - 1
  | .e4m3 => 2 ^ (f.ew + f.mw) - 2
  | .finite => 2 ^ (f.ew + f.mw) - 1

/-- The canonical NaN (04 Table 4.2). -/
def FFmt.nan (f : FFmt) : Nat :=
  match f.special with
  | .ieee => (2 ^ f.ew - 1) * 2 ^ f.mw + 2 ^ (f.mw - 1)
  | .e4m3 => 2 ^ (f.ew + f.mw) - 1
  | .finite => 0

def FFmt.signBit (f : FFmt) (neg : Bool) : Nat := if neg then 2 ^ (f.ew + f.mw) else 0

/-- The code of an infinity; formats without one hold their largest finite value (04 Table 4.5). -/
def FFmt.inf (f : FFmt) (neg : Bool) : Nat :=
  f.signBit neg + (match f.special with | .ieee => (2 ^ f.ew - 1) * 2 ^ f.mw | _ => f.maxCode)

/-- An exact value: NaN, an infinity, or (-1)^neg * m * 2^e; m = 0 is a zero of that sign. -/
inductive FVal where
  | nan
  | inf (neg : Bool)
  | fin (neg : Bool) (m : Nat) (e : Int)
deriving DecidableEq, Repr

def FVal.isNan : FVal → Bool
  | .nan => true
  | _ => false

def FVal.isInf : FVal → Bool
  | .inf _ => true
  | _ => false

def FVal.neg : FVal → FVal
  | .nan => .nan
  | .inf n => .inf (!n)
  | .fin n m e => .fin (!n) m e

def FVal.sign : FVal → Bool
  | .nan => false
  | .inf n => n
  | .fin n _ _ => n

/-- The value of a code (04 R203). -/
def FFmt.decode (f : FFmt) (code : Nat) : FVal :=
  let neg := code / 2 ^ (f.ew + f.mw) % 2 = 1
  let ex := code / 2 ^ f.mw % 2 ^ f.ew
  let m := code % 2 ^ f.mw
  let top := 2 ^ f.ew - 1
  let num : FVal :=
    if ex = 0 then .fin neg m (1 - (f.bias : Int) - f.mw)
    else .fin neg (2 ^ f.mw + m) ((ex : Int) - f.bias - f.mw)
  match f.special with
  | .ieee => if ex = top then (if m = 0 then .inf neg else .nan) else num
  | .e4m3 => if ex = top ∧ m = 2 ^ f.mw - 1 then .nan else num
  | .finite => num

/-- Rounding modes (04 Table 4.4); a stochastic rounding carries its draw. -/
inductive Rnd where
  | rne
  | rtz
  | sto (draw : Nat)
deriving DecidableEq, Repr

/-- Whether to take the value of larger magnitude, where `rem` of `2^d` was discarded and `odd` is the lowest kept bit
(04 Table 4.4, R225). -/
def Rnd.up (r : Rnd) (odd : Bool) (rem d : Nat) : Bool :=
  match r with
  | .rne => decide (2 ^ d < 2 * rem) || (decide (2 * rem = 2 ^ d) && odd)
  | .rtz => false
  | .sto draw => decide (2 ^ 32 ≤ rem * 2 ^ 32 / 2 ^ d + draw)

/-- A rounded code with what the rounding did: whether it saturated to the largest finite value. -/
structure Rounded where
  code : Nat
  sat : Bool
deriving DecidableEq, Repr

/-- The magnitude code of a nonzero `m * 2^e` rounded once as if the exponent had no upper limit. -/
def FFmt.roundMag (f : FFmt) (r : Rnd) (m : Nat) (e : Int) : Nat :=
  let emin : Int := 1 - (f.bias : Int)
  let ex : Int := (Nat.log2 m : Int) + e
  let q : Int := (if ex < emin then emin else ex) - f.mw
  let kept : Nat :=
    if q ≤ e then m * 2 ^ (e - q).toNat
    else
      let d := (q - e).toNat
      let k := m / 2 ^ d
      if r.up (k % 2 = 1) (m % 2 ^ d) d then k + 1 else k
  if kept < 2 ^ f.mw then kept
  else (q + f.mw + f.bias).toNat * 2 ^ f.mw + (kept - 2 ^ f.mw)

/-- Whether `m * 2^e` lies beyond the largest finite value. -/
def FFmt.beyond (f : FFmt) (m : Nat) (e : Int) : Bool :=
  match f.decode f.maxCode with
  | .fin _ mm me =>
    let lo := if e < me then e else me
    decide (mm * 2 ^ (me - lo).toNat < m * 2 ^ (e - lo).toNat)
  | _ => false

/-- One rounding of a value to a format: an overflow gives an infinity, or the largest finite value where the format
saturates or the mode keeps it (04 R238, Table 4.5). `sat` tells that a value beyond the largest finite one was written
as the largest finite one. -/
def FFmt.round (f : FFmt) (r : Rnd) (v : FVal) : Rounded :=
  match v with
  | .nan => { code := f.nan, sat := false }
  | .inf neg =>
    if f.saturates then { code := f.signBit neg + f.maxCode, sat := true }
    else { code := f.inf neg, sat := false }
  | .fin neg m e =>
    if m = 0 then { code := f.signBit neg, sat := false }
    else
      let c := f.roundMag r m e
      if c ≤ f.maxCode then { code := f.signBit neg + c, sat := f.beyond m e }
      else if f.saturates || decide (r = .rtz) then { code := f.signBit neg + f.maxCode, sat := true }
      else { code := f.inf neg, sat := false }

/-- The sum of two finite values as a signed integer times a power of two. -/
def alignSum (n1 : Bool) (m1 : Nat) (e1 : Int) (n2 : Bool) (m2 : Nat) (e2 : Int) : Int × Int :=
  let e := if e1 < e2 then e1 else e2
  let a : Int := (m1 * 2 ^ (e1 - e).toNat : Nat)
  let b : Int := (m2 * 2 ^ (e2 - e).toNat : Nat)
  ((if n1 then -a else a) + (if n2 then -b else b), e)

/-- The exact sum, with IEEE 754's sign of an exact zero under rounding to nearest (04 R212, R238). -/
def FVal.add (x y : FVal) : FVal :=
  match x, y with
  | .nan, _ => .nan
  | _, .nan => .nan
  | .inf a, .inf b => if a = b then .inf a else .nan
  | .inf a, .fin _ _ _ => .inf a
  | .fin _ _ _, .inf b => .inf b
  | .fin n1 m1 e1, .fin n2 m2 e2 =>
    let s := alignSum n1 m1 e1 n2 m2 e2
    if s.1 = 0 then .fin (n1 && n2) 0 0 else .fin (decide (s.1 < 0)) s.1.natAbs s.2

/-- The exact product. -/
def FVal.mul (x y : FVal) : FVal :=
  match x, y with
  | .nan, _ => .nan
  | _, .nan => .nan
  | .inf a, .inf b => .inf (a != b)
  | .inf a, .fin n m _ => if m = 0 then .nan else .inf (a != n)
  | .fin n m _, .inf b => if m = 0 then .nan else .inf (n != b)
  | .fin n1 m1 e1, .fin n2 m2 e2 => .fin (n1 != n2) (m1 * m2) (e1 + e2)

/-- The quotient to more bits than any format keeps, with a sticky lowest bit, so that one rounding of it is the correct
rounding of the exact quotient. -/
def FVal.div (f : FFmt) (x y : FVal) : FVal :=
  match x, y with
  | .nan, _ => .nan
  | _, .nan => .nan
  | .inf _, .inf _ => .nan
  | .inf a, .fin n _ _ => .inf (a != n)
  | .fin n _ _, .inf b => .fin (n != b) 0 0
  | .fin n1 m1 e1, .fin n2 m2 e2 =>
    if m2 = 0 then (if m1 = 0 then .nan else .inf (n1 != n2))
    else if m1 = 0 then .fin (n1 != n2) 0 0
    else
      let k := f.mw + 4 + Nat.log2 m2
      let q := m1 * 2 ^ k / m2
      let st := if m1 * 2 ^ k % m2 = 0 then 0 else 1
      .fin (n1 != n2) (2 * q + st) (e1 - e2 - k - 1)

/-- The integer square root, one bit at a time from bit `k` down. -/
def isqrtFrom (n : Nat) : Nat → Nat → Nat
  | 0, r => r
  | k + 1, r =>
    let t := r + 2 ^ k
    isqrtFrom n k (if t * t ≤ n then t else r)

def isqrt (n : Nat) : Nat := isqrtFrom n (Nat.log2 n / 2 + 1) 0

/-- The square root, sticky as in `FVal.div`; the root of -0 is -0 and of a negative number NaN (IEEE 754). -/
def FVal.sqrt (f : FFmt) (x : FVal) : FVal :=
  match x with
  | .nan => .nan
  | .inf n => if n then .nan else .inf false
  | .fin n m e =>
    if m = 0 then .fin n 0 0
    else if n then .nan
    else
      let k := 2 * (f.mw + 4)
      let odd : Nat := (e % 2).toNat
      let m' := m * 2 ^ (k + odd)
      let s := isqrt m'
      let st := if s * s = m' then 0 else 1
      .fin false (2 * s + st) ((e - odd - k) / 2 - 1)

/-- The fused product and sum: `x * y + z` exactly. -/
def FVal.fma (x y z : FVal) : FVal := FVal.add (FVal.mul x y) z

/-- The order of two values that are not NaN; -0 equals +0. -/
def FVal.lt (x y : FVal) : Bool :=
  match x, y with
  | .nan, _ => false
  | _, .nan => false
  | .inf a, .inf b => a && !b
  | .inf a, .fin _ _ _ => a
  | .fin _ _ _, .inf b => !b
  | .fin n1 m1 e1, .fin n2 m2 e2 => decide ((alignSum n1 m1 e1 (!n2) m2 e2).1 < 0)

def FVal.eq (x y : FVal) : Bool :=
  match x, y with
  | .nan, _ => false
  | _, .nan => false
  | .inf a, .inf b => a == b
  | .inf _, .fin _ _ _ => false
  | .fin _ _ _, .inf _ => false
  | .fin n1 m1 e1, .fin n2 m2 e2 => decide ((alignSum n1 m1 e1 (!n2) m2 e2).1 = 0)

/-- The order of R240, with -0 below +0. -/
def FVal.ltZ (x y : FVal) : Bool := FVal.lt x y || (FVal.eq x y && FVal.sign x && !FVal.sign y)

/-- FADD, FSUB, FMUL, FDIV, FSQRT, the fused forms: one rounding to nearest even (04 R238). -/
def FFmt.addC (f : FFmt) (a b : Nat) : Nat := (f.round .rne (FVal.add (f.decode a) (f.decode b))).code
def FFmt.subC (f : FFmt) (a b : Nat) : Nat := (f.round .rne (FVal.add (f.decode a) (f.decode b).neg)).code
def FFmt.mulC (f : FFmt) (a b : Nat) : Nat := (f.round .rne (FVal.mul (f.decode a) (f.decode b))).code
def FFmt.divC (f : FFmt) (a b : Nat) : Nat := (f.round .rne (FVal.div f (f.decode a) (f.decode b))).code
def FFmt.sqrtC (f : FFmt) (a : Nat) : Nat := (f.round .rne (FVal.sqrt f (f.decode a))).code
def FFmt.fmaC (f : FFmt) (a b c : Nat) : Nat :=
  (f.round .rne (FVal.fma (f.decode a) (f.decode b) (f.decode c))).code
def FFmt.fmsC (f : FFmt) (a b c : Nat) : Nat :=
  (f.round .rne (FVal.fma (f.decode a) (f.decode b) (f.decode c).neg)).code
def FFmt.fnmaC (f : FFmt) (a b c : Nat) : Nat :=
  (f.round .rne (FVal.fma (f.decode a).neg (f.decode b) (f.decode c))).code

/-- FMIN and FMAX: the number when one operand is NaN, -0 below +0 (04 R240). -/
def FFmt.minC (f : FFmt) (a b : Nat) : Nat :=
  match f.decode a, f.decode b with
  | .nan, .nan => f.nan
  | .nan, y => (f.round .rne y).code
  | x, .nan => (f.round .rne x).code
  | x, y => (f.round .rne (if FVal.ltZ y x then y else x)).code

def FFmt.maxC (f : FFmt) (a b : Nat) : Nat :=
  match f.decode a, f.decode b with
  | .nan, .nan => f.nan
  | .nan, y => (f.round .rne y).code
  | x, .nan => (f.round .rne x).code
  | x, y => (f.round .rne (if FVal.ltZ x y then y else x)).code

def FFmt.eqC (f : FFmt) (a b : Nat) : Bool := FVal.eq (f.decode a) (f.decode b)
def FFmt.ltC (f : FFmt) (a b : Nat) : Bool := FVal.lt (f.decode a) (f.decode b)
def FFmt.leC (f : FFmt) (a b : Nat) : Bool := FFmt.ltC f a b || FFmt.eqC f a b
def FFmt.unC (f : FFmt) (a b : Nat) : Bool := (f.decode a).isNan || (f.decode b).isNan

/-- A value to an integer in `lo` to `hi`, toward zero, saturating; NaN gives 0 (02 Table 2.15, 04 R242). -/
def FVal.toIntSat (lo hi : Int) (v : FVal) : Int :=
  match v with
  | .nan => 0
  | .inf n => if n then lo else hi
  | .fin n m e =>
    let mag : Nat := if 0 ≤ e then m * 2 ^ e.toNat else m / 2 ^ (-e).toNat
    let x : Int := if n then -(mag : Int) else mag
    if x < lo then lo else if hi < x then hi else x

/-- An integer as an exact value. -/
def FVal.ofInt (x : Int) : FVal := .fin (decide (x < 0)) x.natAbs 0

/-- Conversion between formats with one rounding. -/
def FFmt.convert (src dst : FFmt) (r : Rnd) (a : Nat) : Rounded := dst.round r (src.decode a)

end Sys2Proof.Machine
end

