-- ==== Sys2Proof/Machine/PressMath.lean ====
section
/-! DEFINITION. The Press's descriptor, its checks, where its operands lie in the Vat, and the numbers that it computes (03
R160-R172, R178, R183-R185; 04 R206-R237). -/
namespace Sys2Proof.Machine

/-! ## Descriptor fields (03 Table 3.2) -/

def fld (w : Word) (hi lo : Nat) : Nat := w.toNat / 2 ^ lo % 2 ^ (hi + 1 - lo)

def PressCmd.opcode (p : PressCmd) : Nat := fld p.w0 63 60
def PressCmd.aFmt (p : PressCmd) : Nat := fld p.w0 59 56
def PressCmd.bFmt (p : PressCmd) : Nat := fld p.w0 55 52
def PressCmd.cFmt (p : PressCmd) : Nat := fld p.w0 51 48
def PressCmd.outFmt (p : PressCmd) : Nat := fld p.w0 47 44
def PressCmd.accMode (p : PressCmd) : Nat := fld p.w0 43 41
def PressCmd.rnd (p : PressCmd) : Nat := fld p.w0 40 39
def PressCmd.seedSel (p : PressCmd) : Nat := fld p.w0 38 35
def PressCmd.order (p : PressCmd) : Bool := p.w0.getLsbD 34
def PressCmd.m (p : PressCmd) : Nat := fld p.w0 33 24 + 1
def PressCmd.n (p : PressCmd) : Nat := fld p.w0 23 14 + 1
def PressCmd.aAddr (p : PressCmd) : Nat := fld p.w1 63 48
def PressCmd.bAddr (p : PressCmd) : Nat := fld p.w1 47 32
def PressCmd.cAddr (p : PressCmd) : Nat := fld p.w1 31 16
def PressCmd.dAddr (p : PressCmd) : Nat := fld p.w1 15 0
def PressCmd.aScale (p : PressCmd) : Nat := fld p.w2 63 48
def PressCmd.bScale (p : PressCmd) : Nat := fld p.w2 47 32
def PressCmd.aStride (p : PressCmd) : Nat := fld p.w2 31 16
def PressCmd.bStride (p : PressCmd) : Nat := fld p.w2 15 0
def PressCmd.tEn (p : PressCmd) : Bool := p.w3.getLsbD 63
def PressCmd.tId (p : PressCmd) : Nat := fld p.w3 62 57
def PressCmd.tAdd (p : PressCmd) : Nat := fld p.w3 56 47
def PressCmd.k (p : PressCmd) : Nat := fld p.w3 46 32 + 1
def PressCmd.recAddr (p : PressCmd) : Nat := fld p.w3 31 16
def PressCmd.tag (p : PressCmd) : Nat := fld p.w3 15 0
def PressCmd.tm (p : PressCmd) : Nat := (p.m + 63) / 64
def PressCmd.tn (p : PressCmd) : Nat := (p.n + 63) / 64
def PressCmd.tiles (p : PressCmd) : Nat := p.tm * p.tn

/-- The operand classes of Table 3.1. -/
inductive PClass where
  | mx
  | fp8
  | int8
  | h16
  | fp32
  | fp64
deriving DecidableEq, Repr

/-- The class of an operand format code (Tables 3.1, 3.3). -/
def classOf (code : Nat) : Option PClass :=
  if code ≤ 4 then some .mx
  else if code ≤ 6 then some .fp8
  else if code = 7 then some .int8
  else if code ≤ 9 then some .h16
  else if code = 10 then some .fp32
  else if code = 11 then some .fp64
  else none

/-- Element bits of a format code (Table 3.3). -/
def fmtBits (code : Nat) : Nat :=
  if code = 0 then 4 else if code ≤ 2 then 6 else if code ≤ 7 then 8 else if code ≤ 9 then 16
  else if code = 10 then 32 else if code = 11 then 64 else 32

/-- The floating-point format of a code; codes 0x7 and 0xC are integers and have none. -/
def fmtOf (code : Nat) : Option FFmt :=
  match code with
  | 0 => some .e2m1
  | 1 => some .e3m2
  | 2 => some .e2m3
  | 3 => some .e4m3
  | 4 => some .e5m2
  | 5 => some .e4m3
  | 6 => some .e5m2
  | 8 => some .bf16
  | 9 => some .fp16
  | 10 => some .fp32
  | 11 => some .fp64
  | _ => none

/-- C_FMT and OUT_FMT that a class allows (Table 3.4). -/
def cAllowed : PClass → List Nat
  | .int8 => [12]
  | .fp32 => [10]
  | .fp64 => [11]
  | _ => [8, 9, 10]

def outAllowed : PClass → List Nat
  | .int8 => [12]
  | .fp32 => [10]
  | .fp64 => [11]
  | _ => [5, 6, 8, 9, 10]

/-- The class of a MATMUL, when both operands are of one (R162). -/
def PressCmd.cls (p : PressCmd) : Option PClass :=
  match classOf p.aFmt, classOf p.bFmt with
  | some a, some b => if a = b then some a else none
  | _, _ => none

def PressCmd.isMx (p : PressCmd) : Bool := decide (p.opcode = 1) && decide (p.cls = some .mx)

/-- The command reads C at C_ADDR, or D as C under IN_PLACE (Table 3.5). -/
def PressCmd.readsCAddr (p : PressCmd) : Bool := p.opcode = 2 || (p.opcode = 1 && (p.accMode = 1 || p.accMode = 2))
def PressCmd.inPlace (p : PressCmd) : Bool := p.opcode = 1 && p.accMode = 3

/-- Format and first line of the C that is read. -/
def PressCmd.cCode (p : PressCmd) : Nat := if p.inPlace then p.outFmt else p.cFmt
def PressCmd.cLine (p : PressCmd) : Nat := if p.inPlace then p.dAddr else p.cAddr

/-- Lines of an A or B panel, and of a scale panel (Table 3.6). -/
def PressCmd.panelLines (p : PressCmd) (code : Nat) : Nat := (p.k * fmtBits code + 7) / 8

/-- A range of Vat lines: first, and one past the last. -/
abbrev Lines := Nat × Nat

def PressCmd.aRange (p : PressCmd) : Lines :=
  (p.aAddr, p.aAddr + (if 64 < p.m then (p.tm - 1) * p.aStride else 0) + p.panelLines p.aFmt)
def PressCmd.bRange (p : PressCmd) : Lines :=
  (p.bAddr, p.bAddr + (if 64 < p.n then (p.tn - 1) * p.bStride else 0) + p.panelLines p.bFmt)
def PressCmd.aScaleRange (p : PressCmd) : Lines := (p.aScale, p.aScale + p.tm * (p.k / 32))
def PressCmd.bScaleRange (p : PressCmd) : Lines := (p.bScale, p.bScale + p.tn * (p.k / 32))
def PressCmd.cRange (p : PressCmd) : Lines := (p.cAddr, p.cAddr + p.tiles * (8 * fmtBits p.cFmt))
def PressCmd.dRange (p : PressCmd) : Lines := (p.dAddr, p.dAddr + p.tiles * (8 * fmtBits p.outFmt))
def PressCmd.recRange (p : PressCmd) : Lines := (p.recAddr, p.recAddr + 1)

/-- The ranges that a command reads, D under IN_PLACE left out. -/
def PressCmd.reads (p : PressCmd) : List Lines :=
  (if p.opcode = 1 then [p.aRange, p.bRange] else []) ++
  (if p.isMx then [p.aScaleRange, p.bScaleRange] else []) ++
  (if p.readsCAddr then [p.cRange] else [])

/-- The D range, where the command has one. -/
def PressCmd.writes (p : PressCmd) : List Lines := if p.opcode = 1 ∨ p.opcode = 2 then [p.dRange] else []

def linesOverlap (x y : Lines) : Bool := decide (x.1 < y.2) && decide (y.1 < x.2)

/-- Cause 0x03, BAD_FORMAT. -/
def PressCmd.badFormat (p : PressCmd) : Bool :=
  if p.opcode = 2 then !([8, 9, 10].contains p.cFmt) || !((outAllowed .mx).contains p.outFmt)
  else if p.opcode = 1 then
    match p.cls with
    | none => true
    | some cl =>
      !((outAllowed cl).contains p.outFmt) ||
        (decide (p.accMode ≠ 0) && !((cAllowed cl).contains p.cFmt)) ||
        (decide (p.accMode = 3) && decide (p.cFmt ≠ p.outFmt))
  else false

/-- Cause 0x07, OVERLAP. -/
def PressCmd.overlaps (p : PressCmd) : Bool :=
  let rec' := p.recRange
  p.reads.any (linesOverlap rec') || p.writes.any (linesOverlap rec') ||
  p.writes.any (fun d =>
    (if p.opcode = 1 then [p.aRange, p.bRange] else []).any (linesOverlap d) ||
    (if p.isMx then [p.aScaleRange, p.bScaleRange] else []).any (linesOverlap d) ||
    (p.readsCAddr && linesOverlap d p.cRange && !(decide (d = p.cRange) && decide (p.cFmt = p.outFmt))))

/-- The region attribute table permits an access to a range of lines of the core's own Vat. The spec names no access size for
this check: one entry has to govern the whole range, gaps between panels included (R87; DESIGN CHOICE, log 98). -/
def State.permitsLines (s : State) (c : CoreId) (wr : Bool) (r : Lines) : Bool :=
  (s.core c).permits wr (vatBase c + 64 * r.1) (64 * (r.2 - r.1))

/-- The checks of Table 3.7 in table order; 0 when none fails. ACC_MODE is ignored by a CONVERT (R165). -/
def State.pressCheck (s : State) (c : CoreId) (p : PressCmd) : Nat :=
  if 2 < p.opcode then 0x01
  else if fld p.w0 13 0 ≠ 0 ∨ p.rnd = 3 ∨ (p.opcode ≠ 2 ∧ 4 ≤ p.accMode) then 0x02
  else if p.badFormat then 0x03
  else if p.isMx && decide (p.k % 32 ≠ 0) then 0x04
  else if (p.recRange :: (p.reads ++ p.writes)).any (fun r => decide (0xC000 < r.2)) then 0x05
  else if p.opcode = 1 ∧ ((64 < p.m ∧ p.aStride < p.panelLines p.aFmt) ∨ (64 < p.n ∧ p.bStride < p.panelLines p.bFmt)) then
    0x06
  else if p.overlaps then 0x07
  else if !(p.reads ++ (if p.inPlace then p.writes else [])).all (s.permitsLines c false) ||
      !(p.recRange :: p.writes).all (s.permitsLines c true) then 0x08
  else 0

/-! ## Elements (Table 3.6) -/

/-- The `b` bits at bit `bit` of the own Vat. -/
def State.vatBits (s : State) (c : CoreId) (bit b : Nat) : Nat :=
  leValue (s.loadBytes (vatBase c + bit / 8) ((bit % 8 + b + 7) / 8)) / 2 ^ (bit % 8) % 2 ^ b

/-- First line of A panel `i`, B panel `j`. -/
def PressCmd.aPanel (p : PressCmd) (i : Nat) : Nat := p.aAddr + (if 64 < p.m then i * p.aStride else 0)
def PressCmd.bPanel (p : PressCmd) (j : Nat) : Nat := p.bAddr + (if 64 < p.n then j * p.bStride else 0)

/-- The code of A[64i + r][k], and of B[k][64j + c]. -/
def State.pressA (s : State) (c : CoreId) (p : PressCmd) (i r k : Nat) : Nat :=
  let b := fmtBits p.aFmt
  s.vatBits c (512 * p.aPanel i + 64 * b * k + b * r) b
def State.pressB (s : State) (c : CoreId) (p : PressCmd) (j col k : Nat) : Nat :=
  let b := fmtBits p.bFmt
  s.vatBits c (512 * p.bPanel j + 64 * b * k + b * col) b

/-- The E8M0 scale of an A row and of a B column at step k. -/
def State.pressAScale (s : State) (c : CoreId) (p : PressCmd) (i r k : Nat) : Nat :=
  s.vatBits c (512 * (p.aScale + i * (p.k / 32) + k / 32) + 8 * r) 8
def State.pressBScale (s : State) (c : CoreId) (p : PressCmd) (j col k : Nat) : Nat :=
  s.vatBits c (512 * (p.bScale + j * (p.k / 32) + k / 32) + 8 * col) 8

/-- The code of the C element of tile `t`, row `r`, column `col`. -/
def State.pressC (s : State) (c : CoreId) (p : PressCmd) (t r col : Nat) : Nat :=
  let o := fmtBits p.cCode
  s.vatBits c (512 * (p.cLine + t * (8 * o)) + 64 * o * r + o * col) o

/-! ## Numbers (04) -/

/-- An element with its block scale left out: a scale of 0xFF makes it NaN (R208). -/
def elemVal (code : Nat) (x scale : Nat) : FVal :=
  match fmtOf code with
  | none => FVal.ofInt (laneInt (fmtBits code) x)
  | some f => if scale = 0xFF then .nan else f.decode x

def FVal.finite (v : FVal) : FVal :=
  match v with
  | .fin n m e => .fin n m e
  | _ => .fin false 0 0

/-- The value multiplied by a power of two. -/
def FVal.shift (v : FVal) (k : Int) : FVal :=
  match v with
  | .fin n m e => .fin n m (e + k)
  | x => x

def negZero : FVal := .fin true 0 0

def FVal.isNegZero : FVal → Bool
  | .fin n m _ => n && decide (m = 0)
  | _ => false

/-- What the special inputs of an output element decide (R210, R211): NaN, an infinity, or nothing. -/
inductive Special where
  | none
  | nan
  | inf (neg : Bool)
deriving DecidableEq, Repr

def Special.join : Special → Special → Special
  | .none, y => y
  | x, .none => x
  | .inf a, .inf b => if a = b then .inf a else .nan
  | _, _ => .nan

def FVal.special : FVal → Special
  | .nan => .nan
  | .inf n => .inf n
  | .fin _ _ _ => .none

/-- One rounding into the FP32 accumulator (Table 4.3, R215). -/
def accAdd (acc unit : FVal) : FVal := FFmt.fp32.decode (FFmt.fp32.round .rne (FVal.add acc unit)).code

/-- A part of the three-way split: the value truncated to BF16, and what is left (R226). A zero part takes the sign of the
operand (log 16). -/
def splitBf16 (v : FVal) : FVal × FVal :=
  match v with
  | .fin n m e =>
    let a0 := FFmt.bf16.decode (FFmt.bf16.round .rtz (.fin n m e)).code
    match FVal.add (.fin n m e) a0.neg with
    | .fin n' m' e' => (a0, if m' = 0 then .fin n 0 0 else .fin n' m' e')
    | x => (a0, x)
  | x => (x, x)

/-- The exact sum of the six partial products (R228). -/
def fp32Unit (a b : FVal) : FVal :=
  let (a0, ra) := splitBf16 a
  let (a1, ra1) := splitBf16 ra
  let (a2, _) := splitBf16 ra1
  let (b0, rb) := splitBf16 b
  let (b1, rb1) := splitBf16 rb
  let (b2, _) := splitBf16 rb1
  [(a0, b0), (a0, b1), (a1, b0), (a1, b1), (a0, b2), (a2, b0)].foldl (fun acc q => FVal.add acc (FVal.mul q.1 q.2))
    negZero

/-! ### FP64-split (R231-R237) -/

/-- The exponent of a finite nonzero element, subnormals counted at -1022 (R231). -/
def fp64Exp (v : FVal) : Option Int :=
  match v with
  | .fin _ m e =>
    if m = 0 then none
    else
      let x : Int := (Nat.log2 m : Int) + e
      some (if x < -1022 then -1022 else x)
  | _ => none

/-- The alignment exponent of a list: the largest exponent, or -1022 when there are none. -/
def alignExp (vs : List FVal) : Int :=
  match vs.foldl (fun m v => match m, fp64Exp v with
    | none, y => y
    | x, none => x
    | some a, some b => some (if a < b then b else a)) none with
  | some e => e
  | none => -1022

/-- Every exponent of the list lies within 8 of the largest (R232). -/
def inWindow (vs : List FVal) : Bool :=
  vs.all (fun v => match fp64Exp v with | none => true | some e => decide (alignExp vs - e ≤ 8))

/-- X of R233: the value times 2^(53 - e), rounded to nearest even to an integer. -/
def alignInt (v : FVal) (e : Int) : Int :=
  match v with
  | .fin n m ex =>
    let k := ex + 53 - e
    let mag : Nat :=
      if 0 ≤ k then m * 2 ^ k.toNat
      else
        let d := (-k).toNat
        let q := m / 2 ^ d
        if Rnd.up .rne (q % 2 = 1) (m % 2 ^ d) d then q + 1 else q
    if n then -(mag : Int) else mag
  | _ => 0

/-- The seven balanced slices of X, s0 first (R233). -/
def slicesFrom : Nat → Int → List Int → List Int
  | 0, _, acc => acc
  | n + 1, x, acc =>
    let low := x % 256
    let sl := if 128 ≤ low then low - 256 else low
    slicesFrom n ((x - sl) / 256) (sl :: acc)

def slices (x : Int) : List Int := slicesFrom 7 x []

/-- The retained slice products of one k step (R234). -/
def sliceSum (sa sb : List Int) : Int :=
  (List.range 7).foldl (fun acc i =>
    (List.range (7 - i)).foldl (fun acc j => acc + sa.getD i 0 * sb.getD j 0 * 2 ^ (8 * (12 - i - j))) acc) 0

/-- The dot product of one pair of groups, as S and the exponent it is scaled by (R233-R235). -/
def groupDot (xs ys : List FVal) (ea eb : Int) : FVal :=
  let sum := (List.zip xs ys).foldl (fun (acc : Int) q =>
    acc + sliceSum (slices (alignInt q.1 ea)) (slices (alignInt q.2 eb))) 0
  (FVal.ofInt sum).shift (ea + eb - 106)

/-- The elements of a list within 8 of its alignment exponent, the others as zeros; and the converse (R237). -/
def highGroup (vs : List FVal) : List FVal :=
  vs.map (fun v => match fp64Exp v with
    | some e => if alignExp vs - e ≤ 8 then v else .fin false 0 0 | none => .fin false 0 0)
def lowGroup (vs : List FVal) : List FVal :=
  vs.map (fun v => match fp64Exp v with
    | some e => if alignExp vs - e ≤ 8 then .fin false 0 0 else v | none => .fin false 0 0)

/-- The dot product of a row and a column, in the window or in four-pass mode. -/
def fp64Dot (fallback : Bool) (xs ys : List FVal) : FVal :=
  if fallback then
    let xh := highGroup xs
    let xl := lowGroup xs
    let yh := highGroup ys
    let yl := lowGroup ys
    [(xh, yh), (xh, yl), (xl, yh), (xl, yl)].foldl (fun acc q =>
      FVal.add acc (groupDot q.1 q.2 (alignExp q.1) (alignExp q.2))) (.fin false 0 0)
  else groupDot xs ys (alignExp xs) (alignExp ys)

/-! ### One output element -/

/-- An output element before its conversion: a floating-point value, or an INT32 with whether it saturated. -/
inductive Elem where
  | val (v : FVal)
  | int (x : Int) (sat : Bool)
deriving DecidableEq, Repr

def int32Lo : Int := -2147483648
def int32Hi : Int := 2147483647

/-- One saturating INT32 addition (R216). -/
def satInt (st : Int × Bool) (x : Int) : Int × Bool :=
  let y := st.1 + x
  if y < int32Lo then (int32Lo, true) else if int32Hi < y then (int32Hi, true) else (y, st.2)

/-- Cuts a list into blocks of 32 (R207). -/
def blocks32 {α : Type} : Nat → List α → List (List α)
  | 0, _ => []
  | n + 1, l => match l with
    | [] => []
    | _ => l.take 32 :: blocks32 n (l.drop 32)

/-- The numeric path of one element (R213-R216, R235): `xs` and `ys` the operands along K, `scales` the exponent of each
block's scales, `cv` the C value where one is read, `sub` for SUB_C. -/
def dotElem (cl : PClass) (xs ys : List FVal) (scales : List Int) (cv : Option FVal) (sub fallback : Bool) : FVal :=
  let flip (v : FVal) : FVal := if sub then v.neg else v
  let start : FVal := match cv with | some v => v.finite | none => negZero
  match cl with
  | .mx =>
    (List.zip (blocks32 xs.length (List.zip xs ys)) scales).foldl (fun acc q =>
      let unit := (q.1.foldl (fun a e => FVal.add a (FVal.mul e.1.finite e.2.finite)) negZero).shift q.2
      accAdd acc (flip unit)) start
  | .fp32 => (List.zip xs ys).foldl (fun acc e => accAdd acc (flip (fp32Unit e.1.finite e.2.finite))) start
  | .fp64 =>
    let xf := xs.map FVal.finite
    let yf := ys.map FVal.finite
    let d := flip (fp64Dot fallback xf yf)
    let total := FVal.add start d
    match total with
    | .fin n m e =>
      let allNegZero :=
        start.isNegZero && (List.zip xf yf).all (fun q => (flip (FVal.mul q.1 q.2)).isNegZero)
      if m = 0 then .fin allNegZero 0 0 else .fin n m e
    | v => v
  | _ => (List.zip xs ys).foldl (fun acc e => accAdd acc (flip (FVal.mul e.1.finite e.2.finite))) start

/-- The special inputs of one element (R210, R211). -/
def dotSpecial (xs ys : List FVal) (cv : Option FVal) (sub : Bool) : Special :=
  let c0 : Special := match cv with | some v => v.special | none => .none
  (List.zip xs ys).foldl (fun acc e =>
    let p := FVal.mul e.1 e.2
    let sp : Special := if e.1.isNan || e.2.isNan then .nan else (if sub then p.neg else p).special
    Special.join acc sp) c0

/-- The operands of one element of a MATMUL along K, as values with MX scales left out, and the scale of each block. -/
def State.pressRow (s : State) (c : CoreId) (p : PressCmd) (i r : Nat) : List FVal :=
  (List.range p.k).map (fun k =>
    elemVal p.aFmt (s.pressA c p i r k) (if p.isMx then s.pressAScale c p i r k else 0))
def State.pressCol (s : State) (c : CoreId) (p : PressCmd) (j col : Nat) : List FVal :=
  (List.range p.k).map (fun k =>
    elemVal p.bFmt (s.pressB c p j col k) (if p.isMx then s.pressBScale c p j col k else 0))
def State.pressScales (s : State) (c : CoreId) (p : PressCmd) (i r j col : Nat) : List Int :=
  if p.isMx then
    (List.range (p.k / 32)).map (fun b =>
      (s.pressAScale c p i r (32 * b) : Int) + s.pressBScale c p j col (32 * b) - 254)
  else []

/-- Whether tile (i, j) of an FP64-split MATMUL falls back (R232). -/
def State.pressFallback (s : State) (c : CoreId) (p : PressCmd) (i j : Nat) : Bool :=
  decide (p.opcode = 1) && decide (p.cls = some .fp64) &&
  !((List.range (Nat.min 64 (p.m - 64 * i))).all (fun r => inWindow (s.pressRow c p i r)) &&
    (List.range (Nat.min 64 (p.n - 64 * j))).all (fun col => inWindow (s.pressCol c p j col)))

/-- One output element before its conversion. -/
def State.pressElem (s : State) (c : CoreId) (p : PressCmd) (fallback : Bool) (i r j col : Nat) : Elem :=
  let t := i * p.tn + j
  if p.opcode = 2 then .val (elemVal p.cFmt (s.pressC c p t r col) 0)
  else
    let xs := s.pressRow c p i r
    let ys := s.pressCol c p j col
    let readC := decide (p.accMode ≠ 0)
    match p.cls with
    | some .int8 =>
      let start : Int := if readC then laneInt 32 (s.pressC c p t r col) else 0
      let sum := (List.range p.k).foldl (fun st k =>
        let x := laneInt 8 (s.pressA c p i r k) * laneInt 8 (s.pressB c p j col k)
        satInt st (if p.accMode = 2 then -x else x)) (start, false)
      .int sum.1 sum.2
    | some cl =>
      let cv := if readC then some (elemVal p.cCode (s.pressC c p t r col) 0) else none
      match dotSpecial xs ys cv (decide (p.accMode = 2)) with
      | .nan => .val .nan
      | .inf n => .val (.inf n)
      | .none => .val (dotElem cl xs ys (s.pressScales c p i r j col) cv (decide (p.accMode = 2)) fallback)
    | none => .val .nan

/-! ## Tiles and lines (R178) -/

def PressCmd.tileRows (p : PressCmd) (t : Nat) : Nat := Nat.min 64 (p.m - 64 * (t / p.tn))
def PressCmd.tileCols (p : PressCmd) (t : Nat) : Nat := Nat.min 64 (p.n - 64 * (t % p.tn))

/-- Lines of a row of a tile that hold a column below N, for elements of `o` bits. -/
def rowLines (cols o : Nat) : Nat := (cols * o + 511) / 512

/-- L_C and L_D of R184. -/
def PressCmd.lC (p : PressCmd) (t : Nat) : Nat :=
  if p.readsCAddr || p.inPlace then p.tileRows t * rowLines (p.tileCols t) (fmtBits p.cCode) else 0
def PressCmd.lD (p : PressCmd) (t : Nat) : Nat := p.tileRows t * rowLines (p.tileCols t) (fmtBits p.outFmt)

/-- Kc of R183. -/
def PressCmd.kc (p : PressCmd) (fallback : Bool) : Nat :=
  match p.cls with
  | some .mx => if p.aFmt = 0 ∧ p.bFmt = 0 then (p.k + 1) / 2 else p.k
  | some .h16 => 2 * p.k
  | some .fp32 => 6 * p.k
  | some .fp64 => if fallback then 112 * p.k else 28 * p.k
  | _ => p.k

/-- Lines that the side port reads before the first tile's period, and in the period of tile `t`: the tile's scales and the next
tile's C; for a CONVERT the tile's own C (R184, R185). -/
def PressCmd.leadReads (p : PressCmd) : Nat := if p.opcode = 1 then p.lC 0 else 0
def PressCmd.sideReads (p : PressCmd) (t : Nat) : Nat :=
  if p.opcode = 1 then (if p.isMx then 2 * (p.k / 32) else 0) + (if t + 1 < p.tiles then p.lC (t + 1) else 0) else p.lC t

/-- S_t of R184: those reads, and the previous tile's D; for a CONVERT the tile's own D. -/
def PressCmd.sideLines (p : PressCmd) (t : Nat) : Nat :=
  p.sideReads t + (if p.opcode = 1 then (if t = 0 then 0 else p.lD (t - 1)) else p.lD t)

/-- Cycles from the start to the first tile's period: 24 + X + L_C(0), or 24 for a CONVERT. -/
def PressCmd.lead (p : PressCmd) : Nat :=
  24 + (if p.opcode = 1 ∧ p.cls = some .fp64 then 4 * p.k else 0) + p.leadReads

/-- Tiles that a command works on; a NOP has none. -/
def PressCmd.workTiles (p : PressCmd) : Nat := if p.opcode = 1 ∨ p.opcode = 2 then p.tiles else 0

/-- What tile `t` reads, as first lines and numbers of lines of the Vat: its panels, its scales, and the C lines that it reads. -/
def PressCmd.tileSpans (p : PressCmd) (t : Nat) : List (Nat × Nat) :=
  let i := t / p.tn
  let j := t % p.tn
  let o := fmtBits p.cCode
  (if p.opcode = 1 then [(p.aPanel i, p.panelLines p.aFmt), (p.bPanel j, p.panelLines p.bFmt)] else []) ++
  (if p.isMx then [(p.aScale + i * (p.k / 32), p.k / 32), (p.bScale + j * (p.k / 32), p.k / 32)] else []) ++
  (if p.readsCAddr || p.inPlace then
    (List.range (p.tileRows t)).map (fun r => (p.cLine + t * (8 * o) + r * o / 8, rowLines (p.tileCols t) o))
  else [])

/-- Whether tile `t` is poisoned (R170): a mark on any word of its panels, scales, or the C lines that it reads. -/
def State.tilePoisoned (s : State) (c : CoreId) (p : PressCmd) (t : Nat) : Bool :=
  (p.tileSpans t).any (fun e => s.rangePoisoned (vatBase c + 64 * e.1) (64 * e.2))

/-- Reading a tile's operands corrects their words (16 R678). -/
def State.tileRead (s : State) (c : CoreId) (p : PressCmd) (t : Nat) : State :=
  (p.tileSpans t).foldl (fun (s : State) e => s.vatRead (vatBase c + 64 * e.1) (64 * e.2)) s

/-- The rounding mode has an effect on the command (R217). -/
def PressCmd.rounds (p : PressCmd) : Bool := p.outFmt ≠ 10 && p.outFmt ≠ 12

/-- The next draw of a stream (R222). -/
def Draws.next (d : Draws) : Nat × Draws :=
  match d.half with
  | some h => (h, { d with half := none })
  | none =>
    let (w, st) := streamNext d.state
    (w.toNat % 2 ^ 32, { state := st, half := some (w.toNat / 2 ^ 32) })

/-- What a command has produced so far. -/
structure PressAcc where
  lines : List PressLine
  draws : Draws
  satCount : Nat
  nanOut : Bool
  infOut : Bool
  fallbackTiles : Nat
  poisonMap : BitVec 256
deriving DecidableEq, Repr

/-- Converts one element and counts what the conversion did (R217-R220). -/
def PressAcc.emit (a : PressAcc) (p : PressCmd) (e : Elem) : Nat × PressAcc :=
  match e with
  | .int x sat =>
    ((x % 4294967296).toNat, if sat then { a with satCount := satAdd 0xFFFFFFFF a.satCount 1 } else a)
  | .val v =>
    match fmtOf p.outFmt with
    | none => (0, a)
    | some f =>
      let (rnd, d) : Rnd × Draws :=
        if p.rounds && decide (p.rnd = 2) then
          let (x, d) := a.draws.next
          (.sto x, d)
        else (if p.rounds && decide (p.rnd = 1) then .rtz else .rne, a.draws)
      let r := f.round rnd v
      let out := f.decode r.code
      (r.code, { a with draws := d, satCount := if r.sat then satAdd 0xFFFFFFFF a.satCount 1 else a.satCount,
                        nanOut := a.nanOut || out.isNan, infOut := a.infOut || out.isInf })

/-- One row of a tile: its elements in column order, then its lines. -/
def State.pressTileRow (s : State) (c : CoreId) (p : PressCmd) (t : Nat) (fb poison : Bool) (a : PressAcc) (r : Nat) :
    PressAcc :=
  let o := fmtBits p.outFmt
  let cols := p.tileCols t
  let (row, a1) := (List.range cols).foldl (fun (st : Nat × PressAcc) col =>
    let (code, a') := st.2.emit p (s.pressElem c p fb (t / p.tn) r (t % p.tn) col)
    (st.1 + code * 2 ^ (o * col), a')) (0, a)
  let base := p.dAddr + t * (8 * o) + r * o / 8
  let new := (List.range (rowLines cols o)).map (fun l =>
    let used := Nat.min 512 (cols * o - 512 * l) / 8
    ({ line := base + l, data := BitVec.ofNat 512 (row / 2 ^ (512 * l)),
       mask := BitVec.ofNat 64 (2 ^ used - 1), poison := poison } : PressLine))
  { a1 with lines := a1.lines ++ new }

/-- One tile, its panels read as they now stand (R177), in four-pass mode or not. -/
def State.pressTile (s : State) (c : CoreId) (p : PressCmd) (fb : Bool) (a : PressAcc) (t : Nat) : PressAcc :=
  let poison := s.tilePoisoned c p t
  let a1 := { a with fallbackTiles := a.fallbackTiles + (if fb then 1 else 0),
                     poisonMap := if poison then a.poisonMap ||| (1 <<< t) else a.poisonMap }
  (List.range (p.tileRows t)).foldl (s.pressTileRow c p t fb poison) a1

end Sys2Proof.Machine
end

