-- ==== Sys2Proof/Machine/Press.lean ====
section
/-! DEFINITION. The Press: submission, the start and completion of its commands, its activity level (03 R121-R202). -/
namespace Sys2Proof.Machine

/-! ## Progress of a running command (R176, R177, R184, R185, R193) -/

/-- Cycles among the first `x` in which the array may issue k-step work at level `n`: at most the first `n` of each aligned
group of 8 (R193). -/
def issueSlots (n x : Nat) : Nat := x / 8 * n + Nat.min (x % 8) n

/-- The cycle that ends the `r`th such cycle from `a` on. -/
def slotEnd (n a r : Nat) : Nat :=
  let t := issueSlots n a + r - 1
  t / n * 8 + t % n + 1

/-- The period of the tile in work is over, but for its last `gap` cycles. -/
def PressRun.computed (r : PressRun) : Bool := decide (r.wait = 0) && decide (r.steps = r.need) && decide (r.side = 0)

/-- The cycles from `a` to `b` at level `n`, as far as the tile in work takes them; and the cycle at which it stops taking
them. Banks that the fetchers or the side port lose (R182) are left out (log 20). -/
def PressRun.pass (r : PressRun) (n a b : Nat) : PressRun × Nat :=
  let w := Nat.min r.wait (b - a)
  let a1 := a + w
  let left := r.need - r.steps
  let all := decide (n ≠ 0) && decide (slotEnd n a1 left ≤ b)
  let e := if left = 0 ∨ a1 = b then a1 else if all then slotEnd n a1 left else b
  let issued := if left = 0 ∨ a1 = b then 0 else if all then left else issueSlots n b - issueSlots n a1
  let side1 := r.side - (e - a1)
  let d := if issued = left then Nat.min side1 (b - e) else 0
  let r1 := { r with wait := r.wait - w, steps := r.steps + issued, side := side1 - d, throttle := r.throttle + (e - a1 - issued) }
  let g := if r1.computed then Nat.min r.gap (b - (e + d)) else 0
  ({ r1 with gap := r.gap - g }, e + d + g)

/-- Tile `t` becomes the tile in work; whether it falls back depends on its panels as they now stand (04 R232). -/
def State.openTile (s : State) (c : CoreId) (r : PressRun) (t : Nat) : PressRun :=
  let p := r.cmd
  let fb := s.pressFallback c p (t / p.tn) (t % p.tn)
  { r with
    tile := t, steps := 0, need := if p.opcode = 1 then p.kc fb else 0, side := p.sideLines t,
    gap := if p.opcode = 1 then 4 else 0, fallback := fb, written := false }

/-- The lines of the tile in work, from its operands as they now stand (R177), and what its elements count. -/
def State.writeTile (s : State) (c : CoreId) (r : PressRun) : PressRun :=
  let a := s.pressTile c r.cmd r.fallback
    { lines := r.lines, draws := r.draws, satCount := r.satCount, nanOut := r.nanOut, infOut := r.infOut,
      fallbackTiles := r.fallbackTiles, poisonMap := r.poisonMap } r.tile
  { r with
    lines := a.lines, draws := a.draws, satCount := a.satCount, nanOut := a.nanOut, infOut := a.infOut,
    fallbackTiles := a.fallbackTiles, poisonMap := a.poisonMap, written := true }

/-- The command still works on a tile. -/
def PressRun.working (r : PressRun) : Bool := decide (r.cause = 0) && decide (r.tile < r.cmd.workTiles)

/-- What the progress counter gains from a whole tile, D left out: its k steps, and the lines that the side port reads (R202). -/
def PressCmd.tileWork (p : PressCmd) (t : Nat) : Nat :=
  (if p.opcode = 1 then p.k else 0) + p.sideReads t + (if t = 0 then p.leadReads else 0)

/-- A command goes on from cycle `a` to `b` at level `n`, tile after tile in ascending order (R176). -/
def State.pressGo (s : State) (c : CoreId) (n b : Nat) : Nat → PressRun → Nat → PressRun
  | 0, r, _ => r
  | fuel + 1, r, a =>
    if !r.working then r
    else
      let (r1, a1) := r.pass n a b
      let r2 := if r1.computed && !r1.written then s.writeTile c r1 else r1
      if r1.computed && decide (r1.gap = 0) then
        let r3 := { r2 with moved := r2.moved + r2.cmd.tileWork r2.tile, arrayEnd := a1, tile := r2.tile + 1 }
        s.pressGo c n b fuel (if r3.working then s.openTile c r3 r3.tile else r3) a1
      else r2

/-- The Press between two moments: the cycle, the level that it obeys, and its commands. -/
structure PressClock where
  cycle : Nat
  level : Nat
  runs : List PressRun
deriving DecidableEq, Repr

def State.pressUntil (s : State) (c : CoreId) (t : PressClock) (b : Nat) : PressClock :=
  if b ≤ t.cycle then t
  else { t with cycle := b, runs := t.runs.map (fun r => s.pressGo c t.level b (r.cmd.workTiles + 1) r t.cycle) }

/-- Advances the running commands of a Press to the present array cycle, level by level; after a job abort no further than
the cycle in which it came (R201). -/
def State.pressSync (s : State) (c : CoreId) : State :=
  let k := s.core c
  let now := s.arrayCycle c
  let stop := match k.pressStop with | some x => Nat.min x now | none => now
  let t := k.pressChanges.foldl (fun (t : PressClock) e =>
    if e.1 ≤ stop then { s.pressUntil c t e.1 with level := e.2 } else t) (PressClock.mk k.pressSeen k.pressObeyed k.pressRun)
  let t1 := s.pressUntil c t stop
  let s1 := if s.cellErrs.isEmpty then s
    else k.pressRun.foldl (fun (s : State) r =>
      (List.range (((t1.runs.find? (fun x => x.cmd.sub == r.cmd.sub)).map (fun x => x.tile)).getD r.tile + 1 - r.tile)).foldl
        (fun (s : State) i => s.tileRead c r.cmd (r.tile + i)) s) s
  s1.setCore c { k with
    pressRun := t1.runs, pressSeen := Nat.max k.pressSeen stop, pressObeyed := t1.level,
    pressChanges := k.pressChanges.filter (fun e => decide (stop < e.1)) }

/-- What a running command has added to the progress counter from the tile in work. -/
def PressRun.inTile (r : PressRun) : Nat :=
  let p := r.cmd
  if !r.working then 0
  else
    (if r.need = 0 then 0 else p.k * r.steps / r.need) + Nat.min (p.sideReads r.tile) (p.sideLines r.tile - r.side) +
      (if r.tile = 0 then p.leadReads - Nat.min r.wait p.leadReads else 0)

/-- PRESS_PROGRESS (R202): each k step that the array issued and each line that the side port moved. -/
def Core.pressCount (k : Core) : BitVec 32 :=
  k.pressRun.foldl (fun acc r => acc + BitVec.ofNat 32 (r.moved + r.inTile)) k.pressProgress

/-- PRESS_PROGRESS at this moment. -/
def State.pressProgressNow (s : State) (c : CoreId) : BitVec 32 := ((s.pressSync c).core c).pressCount

/-! ## The activity level (R193-R198) -/

/-- Array work is left: some k step of the command has not issued, or the command fails its checks and has not yet left the Press
(R194, R195). -/
def PressRun.arrayWork (r : PressRun) : Bool :=
  decide (r.cmd.opcode = 1) && (decide (r.cause ≠ 0) ||
    (r.working && !(decide (r.tile + 1 = r.cmd.workTiles) && decide (r.steps = r.need))))

/-- A MATMUL with array work left is queued or running, and the Press may issue it (R194, R195, R201). -/
def Core.pressRequests (k : Core) : Bool :=
  !k.pressHeld && !k.engineInReset && (k.pressQ.any (fun q => q.opcode = 1) || k.pressRun.any PressRun.arrayWork)

/-- The Press holds commands, and only NOPs and CONVERTs: it stays at its level (R195). A MATMUL that waits, as in a parked package,
makes it fall. -/
def Core.pressStays (k : Core) : Bool :=
  !k.pressHeld && !k.engineInReset && k.pressQ.all (fun q => q.opcode ≠ 1) && !k.pressRun.any PressRun.arrayWork &&
    (k.pressQ.any (fun q => q.opcode ≠ 1) || k.pressRun.any (fun r => r.cmd.opcode ≠ 1))

/-- The request begins: the first step from level 0 is granted at once (R194); from any other level the Press rises on from
there (R196), by its first step 512 array cycles after the request, a time that the spec does not state (DESIGN CHOICE, log
119). -/
def Core.beginRequest (k : Core) (ceiling cycle : Nat) : Core :=
  if k.pressRising then k
  else
    let k1 := { k with pressRising := true, pressStepCycle := cycle }
    if k.pressLevel = 0 ∧ 1 ≤ ceiling then k1.stepLevel 1 cycle else k1

/-- The ballast fall of a reset is over (R200); a core found defective stays in reset until the next remap (01 R45). -/
def State.leaveReset (s : State) (c : CoreId) (k : Core) : Core :=
  let held := decide (s.org.capCode c = 1)
  { k with coreInReset := held, engineInReset := held }

/-- One step of the level: down to the ceiling where that has fallen; up for a requesting Press, until 8 or the ceiling; down
for any other, the first step at once and each later one 512 array cycles after the one before, though a Press that holds
only NOPs and CONVERTs stays where it is (R194, R195, R197). Where array work ends while NOPs or CONVERTs are queued, the Press
takes the first step down and then stays (DESIGN CHOICE, log 119). -/
def execPressLevelStep (c : CoreId) (s : State) : Out :=
  let s1 := (s.pressSync c).obeyCeiling c
  let k := s1.core c
  let now := s.arrayCycle c
  let top := s.pressCeiling c
  let due := decide (k.pressStepCycle + 512 ≤ now)
  if !s.corePowered c then .next s
  else if k.pressRequests && !s.regionParked c then
    if !k.pressRising then .next (s1.setCore c (k.beginRequest top now))
    else if due && decide (k.pressLevel < top) then .next (s1.setCore c (k.nextLevel (k.pressLevel + 1) now))
    else .next s1
  else if k.pressLevel = 0 then .next (s1.setCore c { s.leaveReset c k with pressRising := false })
  else if k.pressRising || (due && !k.pressStays) then
    let k1 := if k.pressRising then k.beginFall now else k.nextLevel (k.pressLevel - 1) now
    .next (s1.setCore c (if k1.pressLevel = 0 then s.leaveReset c k1 else k1))
  else .next s1

/-! ## Submission (02 R121, R123; 03 R166, R171) -/

/-- An own-Vat address: its Vat offset, where `len` bytes from it lie in the core's own Vat. -/
def State.ownVat (s : State) (c : CoreId) (a : Word) (len : Nat) : Option Nat :=
  match s.reach a with
  | .here =>
    match spaceOf (addrOff a) with
    | .vat o off => if o = c ∧ off + len ≤ vatSize then some off else none
    | _ => none
  | _ => none

/-- The descriptor that PSUB and LSUB read: `n` words at an own-Vat address that `8 * n` bytes align, none poisoned, in a
range that the table lets the core read; or the trap (R88, R123; log 9). -/
def State.readDescriptor (s : State) (c : CoreId) (a : Word) (n : Nat) : Except Nat (List Word) :=
  match s.ownVat c a (8 * n) with
  | none => .error 0x07
  | some off =>
    if off % (8 * n) ≠ 0 then .error 0x07
    else if !(s.core c).permits false (vatBase c + off) (8 * n) then .error 0x03
    else if s.rangePoisoned (vatBase c + off) (8 * n) then .error 0x07
    else .ok ((List.range n).map (fun i => s.loadWord (vatBase c + off + 8 * i)))

def execPsub (c : CoreId) (rd rs1 : Reg) (s : State) : Out :=
  s.issue c [.g rs1, .g rd] (fun s =>
    let k := s.core c
    let a := k.getG rs1
    if k.storesPending then .next (s.stallAt c .loadOrFence)
    else match s.readDescriptor c a 4 with
    | .error cause => .next (s.trap c cause a k.pc)
    | .ok w =>
      let s := s.vatRead (addrOff a) 32
      let q : PressCmd :=
        { w0 := w.getD 0 0, w1 := w.getD 1 0, w2 := w.getD 2 0, w3 := w.getD 3 0, sub := k.pressSub }
      if 0xBFFF < q.recAddr then .next (s.trap c 0x07 a k.pc)
      else if k.abortClosed || k.engineInReset || decide (16 ≤ k.pressQ.length + k.pressRun.length) then
        .next (s.stallAt c .pressFull)
      else
        let k1 := { k with pressQ := k.pressQ ++ [q], pressSub := k.pressSub + 1 }
        let k2 := if q.opcode = 1 then
            k1.beginRequest (s.pressCeiling c) (s.arrayCycle c) else k1
        .next (s.setCore c (k2.setG rd (q.sub.setWidth 64)).retire))

/-! ## Start (R172-R176, R224) -/

/-- The previous commands have reached the point at which the next may start (R174): a MATMUL its last tile's period, a CONVERT its
side port's last line; a NOP and a failed command complete first. -/
def PressRun.passed (r : PressRun) : Bool :=
  decide (r.cause = 0) && decide (r.cmd.opcode ≠ 0) && !r.working

def Core.pressReady (k : Core) (order : Bool) : Bool :=
  !k.pressHeld && !k.engineInReset && (if order then k.pressRun.isEmpty else k.pressRun.all PressRun.passed)

/-- A stream after `n` further draws (04 R222). -/
def streamAfter : Nat → Word → Word
  | 0, w => w
  | n + 1, w => streamAfter n (streamNext w).2

/-- The stream of a core after a command: one 32-bit half for each element of D when its rounding is stochastic (04 R222-R224). -/
def Core.pressStreams (k : Core) (c : CoreId) (p : PressCmd) : Tab (Option Word) :=
  if p.workTiles ≠ 0 && p.rounds && decide (p.rnd = 2) then
    Tab.put none k.streams p.seedSel (some (streamAfter ((p.m * p.n + 1) / 2) (k.stream c p.seedSel)))
  else k.streams

/-- A command as it starts. -/
def PressRun.begin (p : PressCmd) (cause cycle : Nat) (noRecord : Bool) (stream : Word) : PressRun :=
  { cmd := p, cause := cause, noRecord := noRecord, startCycle := cycle, tile := 0, wait := p.lead, steps := 0, need := 0,
    side := 0, gap := 0, fallback := false, written := false, arrayEnd := cycle, moved := 0, throttle := 0,
    draws := { state := stream, half := none }, lines := [], satCount := 0, nanOut := false, infOut := false,
    fallbackTiles := 0, poisonMap := 0 }

/-- Takes the command at the head of the queue: checks it, and begins its first tile (R172, R174, R176). -/
def State.pressStart (s : State) (c : CoreId) (accept : Nat → Bool) : Out :=
  let s1 := s.pressSync c
  let k := s1.core c
  match k.pressQ with
  | [] => .next s
  | p :: rest =>
    if !s.coreAlive c || !accept p.opcode || !k.pressReady p.order then .next s
    else
      let cause := s1.pressCheck c p
      let r := PressRun.begin p cause (s.arrayCycle c) (cause = 8 && !s1.permitsLines c true p.recRange) (k.stream c p.seedSel)
      let r1 := if r.working then s1.openTile c r 0 else r
      .next (s1.setCore c { k with
        pressQ := rest, pressRun := k.pressRun ++ [r1], streams := if cause = 0 then k.pressStreams c p else k.streams })

/-- A NOP, or a command whose OPCODE is reserved, which fails its checks (log 18). -/
def execPressNop (c : CoreId) (s : State) : Out := s.pressStart c (fun op => op ≠ 1 && op ≠ 2)
def execPressMatmul (c : CoreId) (s : State) : Out := s.pressStart c (fun op => op = 1)
def execPressConvert (c : CoreId) (s : State) : Out := s.pressStart c (fun op => op = 2)

/-! ## Completion (R184, R185, R187-R192) -/

/-- Writes one line of D in the own Vat with its byte mask. The line of a poisoned tile carries the mark on every word (R192). -/
def State.writePressLine (s : State) (c : CoreId) (l : PressLine) : State :=
  let bytes := (List.range 64).map (fun i => ((lineBytes l.data).getD i 0, l.mask.getLsbD i))
  let off := vatBase c + 64 * l.line
  let s1 := s.storeBytes off bytes l.poison
  if l.poison then { s1 with poison := setMarks s1.poison (off / 8) 8 true } else s1

/-- The completion record (Table 3.8); of a failed command only SUBMISSION, TAG, CAUSE and CYCLES are set (R190). -/
def PressRun.record (r : PressRun) (cycles endTime : Nat) : List Word :=
  let tiles := ((List.range 256).filter (fun i => r.poisonMap.getLsbD i)).length
  let bit (b : Bool) (i : Nat) : Nat := if b then 2 ^ i else 0
  let w0 := r.cmd.sub.toNat * 2 ^ 48 + r.cmd.tag * 2 ^ 32 + r.cause * 2 ^ 24
  if r.cause ≠ 0 then [BitVec.ofNat 64 w0, BitVec.ofNat 64 (30 * 2 ^ 32), 0, 0, 0, 0, 0, 0]
  else
    [BitVec.ofNat 64 (w0 + bit (decide (0 < tiles)) 23 + bit (decide (0 < r.satCount)) 22 + bit r.nanOut 21 +
        bit r.infOut 20 + bit (decide (0 < r.fallbackTiles)) 19 + bit (decide (0 < r.throttle)) 18),
     BitVec.ofNat 64 (Nat.min cycles 0xFFFFFFFF * 2 ^ 32 + Nat.min r.throttle 0xFFFFFFFF),
     BitVec.ofNat 64 (endTime % 2 ^ 48 * 2 ^ 16 + r.fallbackTiles % 65536),
     BitVec.ofNat 64 (r.satCount * 2 ^ 32 + tiles * 2 ^ 16),
     r.poisonMap.extractLsb' 0 64, r.poisonMap.extractLsb' 64 64, r.poisonMap.extractLsb' 128 64,
     r.poisonMap.extractLsb' 192 64]

/-- The bytes of a list of words. -/
def wordBytes (ws : List Word) : List Byte := ws.flatMap (fun w => leBytes 8 w.toNat)

/-- The earliest cycle of completion (R184, R185, R190); none while tiles are left. -/
def PressRun.due (r : PressRun) : Option Nat :=
  if r.cause ≠ 0 then some (r.startCycle + 30)
  else if r.working then none
  else if r.cmd.opcode = 0 then some (r.startCycle + 8)
  else some (r.arrayEnd + (if r.cmd.opcode = 1 then r.cmd.lD (r.cmd.tiles - 1) else 0) + 6)

/-- What a completed command adds to the progress counter: its tiles, the lines of D still to write, its record (R202). -/
def PressRun.lastWork (r : PressRun) : Nat := r.moved + r.lines.length + (if r.noRecord then 0 else 1)

/-- A started command completes: every line of D, then the record, then the tally (R188); a failed one raises the interrupt
(R190, R191). -/
def execPressComplete (c : CoreId) (sub : BitVec 16) (s : State) : Out :=
  let s1 := s.pressSync c
  let k := s1.core c
  let cycle := s.arrayCycle c
  match takeFirst (fun r => r.cmd.sub == sub) k.pressRun with
  | none => .next s
  | some (r, rest) =>
    let ready : Bool := match r.due with | some t => decide (t ≤ cycle) | none => false
    if !s.coreAlive c || k.pressHeld || k.engineInReset || !ready then .next s
    else
      let s2 := r.lines.foldl (fun s l => s.writePressLine c l) s1
      let s3 := if r.noRecord then s2
        else s2.storeAll (vatBase c + 64 * r.cmd.recAddr) (wordBytes (r.record (cycle - r.startCycle) s.ftimeWord.toNat)) false
      .next (s3.modCore c (fun k =>
        let k1 := { k with pressRun := rest, pressProgress := k.pressProgress + BitVec.ofNat 32 r.lastWork }
        let k2 := (k1.count 0x054 1 k1.pc 0).wake
        if r.cause ≠ 0 then k2.raiseInt 1 (sub.setWidth 64)
        else if r.cmd.tEn then k2.addTally r.cmd.tId (BitVec.ofNat 32 r.cmd.tAdd) else k2))

end Sys2Proof.Machine
end

