-- ==== Sys2Proof/Machine/Messages.lean ====
section
/-! DEFINITION. Messages: MSEND and MRECV, admission to a queue, the arrival of words, truncation (02 R136-R138; 06
R287-R299, R810). -/
namespace Sys2Proof.Machine

/-! ## Queues -/

def Core.queue (k : Core) (q : Nat) : Queue := Tab.get Queue.reset k.queues q

def Core.setQueue (k : Core) (q : Nat) (x : Queue) : Core := { k with queues := Tab.put Queue.reset k.queues q x }

/-- WORDS: arrived and not yet returned. -/
def Queue.words (q : Queue) : Nat := q.msgs.foldl (fun n m => n + m.held.length) 0

/-- FREE: neither held nor reserved. -/
def Queue.free (q : Queue) : Nat := 2048 - q.msgs.foldl (fun n m => n + (m.len - m.returned)) 0

/-- The parity bit of a word: even parity over the data and the bit (R287). -/
def parityOf (w : Word) : Bool := ((List.range 64).filter (fun i => w.getLsbD i)).length % 2 = 1

/-- A doorbell's core and queue, where an offset is one (R290). -/
def doorbellOf (off : Nat) : Option (CoreId × Nat) :=
  match spaceOf off with
  | .core o r => if r < 0x1000 ∧ r % 0x400 = 0 then some (o, r / 0x400) else none
  | _ => none

/-! ## MSEND -/

/-- The `n` words at an own-Vat offset with their poison marks. -/
def State.vatWords (s : State) (c : CoreId) (off n : Nat) : List (Word × Bool) :=
  (List.range n).map (fun i =>
    (s.loadWord (vatBase c + off + 8 * i), s.readsPoisoned ((vatBase c + off) / 8 + i)))

/-- Checks the source of an MSEND, then its destination (R136, R290, R88; log 9): the trap with its address, or the source's
Vat offset. -/
def State.msendCheck (s : State) (c : CoreId) (dst src : Word) (n : Nat) : Except (Nat × Word) Nat :=
  if addrOff src % 8 ≠ 0 then .error (0x04, src)
  else match s.ownVat c src (8 * n) with
    | none => .error (0x03, src)
    | some off =>
      if !(s.core c).permits false (addrOff src) (8 * n) then .error (0x03, src)
      else if (doorbellOf (addrOff dst)).isNone then .error (0x03, dst)
      else match s.reach dst with
        | .fault => .error (0x03, dst)
        | .here =>
          if (s.core c).permits true (addrOff dst) 8 && s.populated (addrOff dst) 8 then .ok off
          else .error (0x03, dst)
        | .away _ => if (s.core c).permitsAway true (addrOff dst) 8 then .ok off else .error (0x03, dst)

/-- The core whose queue an offset names, where its ENGINE domain is in reset: a message that arrives then is discarded (R299). -/
def State.queueAsleep (s : State) (off : Nat) : Option CoreId :=
  match doorbellOf off with
  | none => none
  | some (o, _) => if (s.core o).engineInReset || (s.region (coreRegion o)).inReset then some o else none

/-- A message of `n` words to a core is discarded and reported (R299). -/
def State.discardMsg (s : State) (o : CoreId) (n : Nat) : State := s.regionDiscard (coreRegion o) ((n + 7) / 8 + 1) [o]

/-- Messages that are still leaving a core (Table 2.10): those in its slots and those not acknowledged by another chip. -/
def State.leaving (s : State) (c : CoreId) : Nat := (s.core c).outMsgs.length + s.unacked c .message

def execMsend (c : CoreId) (rs1 rs2 : Reg) (imm : BitVec 8) (s : State) : Out :=
  s.issue c [.g rs1, .g rs2] (fun s =>
    let k := s.core c
    let n := imm.toNat + 1
    let dst := k.getG rs1
    match s.msendCheck c dst (k.getG rs2) n with
    | .error (cause, a) => .next (s.trap c cause a k.pc)
    | .ok off =>
      if k.storesPending then .next (s.stallAt c .loadOrFence)
      else if k.abortClosed || decide (8 ≤ s.leaving c) then .next (s.stallAt c .msend)
      else
        let words := s.vatWords c off n
        let s := s.vatRead (vatBase c + off) (8 * n)
        match s.reach dst with
        | .away chip =>
          if !s.storeRoom (coreDie c) || s.org.dieWaits s.org.requestPlane (coreDie c) c true then .next (s.stallAt c .msend)
          else
            let p := s.newPacket chip (addrOff dst) c .adaptive .message (coreDie c) [BitVec.ofNat 64 n]
            let p1 := { p with data := wordBytes (words.map (fun w => w.1)), poison := words.map (fun w => w.2) }
            .next ((s.sendUnflowed (coreDie c) p1).modCore c (fun k => k.retire.count 0x070 n k.pc 0))
        | _ =>
          match s.queueAsleep (addrOff dst) with
          | some o => .next ((s.modCore c (fun k => k.retire.count 0x070 n k.pc 0)).discardMsg o n)
          | none =>
          let m : OutMsg := { id := k.nextId, srcChip := s.fab.chip, srcCore := c, dst := dst, words := words,
                              admitted := false }
          .next (s.setCore c
            (({ k with outMsgs := k.outMsgs ++ [m], nextId := k.nextId + 1 }).retire.count 0x070 n k.pc 0)))

/-! ## Admission (R292, R293, R299) -/

/-- An acknowledgement of an unflowed packet: FLOW is 0x3FFF, and SRC_DIE names the die that holds the stream (R425). -/
def State.ackUnflowed (s : State) (chip : BitVec 16) (d : Die) (seq : BitVec 32) : State :=
  s.inject d (s.newPacket chip 0 noCore .signal .ack d [seq.setWidth 64, 0, 0])

/-- The queue that a message is for. -/
def OutMsg.target (m : OutMsg) : Option (CoreId × Nat) := doorbellOf (addrOff m.dst)

/-- The message that a sender, or a receiving die, has waited with longest for a queue. -/
def State.waiting (s : State) (src : MsgSrc) (c : CoreId) (q : Nat) : Option OutMsg :=
  match src with
  | .core o => (s.core o).outMsgs.find? (fun m => !m.admitted && decide (m.target = some (c, q)))
  | .die d => (s.dieMsgs.find? (fun e => e.1 == d && decide (e.2.target = some (c, q)))).map (fun e => e.2)

/-- Takes a message out of the place it waits in. -/
def State.dropMsg (s : State) (src : MsgSrc) (m : OutMsg) : State :=
  match src with
  | .core o => s.modCore o (fun k => { k with outMsgs := k.outMsgs.filter (fun x => x.id ≠ m.id) })
  | .die d => { s with dieMsgs := s.dieMsgs.filter (fun e => !(e.1 == d && decide (e.2 = m))) }

/-- Lets a message's sender know that it is delivered, or discarded for good: the slot is free, or the packet is
acknowledged. -/
def State.msgDone (s : State) (via : Option Die) (srcChip : BitVec 16) (srcCore : CoreId) (id : Nat) : State :=
  match via with
  | none => s.modCore srcCore (fun k => { k with outMsgs := k.outMsgs.filter (fun x => x.id ≠ id) })
  | some d => s.ackUnflowed srcChip d (BitVec.ofNat 32 id)

def MsgSrc.die : MsgSrc → Option Die
  | .core _ => none
  | .die d => some d

/-- A message waits on its way at a region in reset (01 R51). -/
def State.messageWaits (s : State) (src : MsgSrc) (c : CoreId) : Bool :=
  match src with
  | .core o => s.meshWaits o c
  | .die d => s.org.waits s.org.requestPlane (dieRouter d (coreRouter c)) (coreRouter c)

/-- A waiting message is admitted once FREE holds all its words; one for a core whose ENGINE domain is in reset is
discarded and reported. -/
def execMessageAdmit (c : CoreId) (q : BitVec 2) (src : MsgSrc) (s : State) : Out :=
  match s.waiting src c q.toNat with
  | none => .next s
  | some m =>
    let k := s.core c
    let n := m.words.length
    let x := k.queue q.toNat
    if !s.coreAlive c || k.engineInReset then
      .next (((s.dropMsg src m).msgDone (MsgSrc.die src) m.srcChip m.srcCore m.id).discardMsg c n)
    else if x.free < n || s.messageWaits src c then .next s
    else
      let qm : QMsg :=
        { id := m.id, srcChip := m.srcChip, srcCore := m.srcCore, via := MsgSrc.die src, len := n,
          threshold := x.threshM1.toNat + 1, held := [], coming := m.words, arrived := 0, returned := 0,
          readable := false, ended := false, lastTime := s.now }
      let s1 := match src with
        | .core o => s.modCore o (fun k =>
            { k with outMsgs := mapIf (fun x => decide (x.id = m.id)) (fun x => { x with admitted := true }) k.outMsgs })
        | .die _ => s.dropMsg src m
      .next (s1.modCore c (fun k => k.setQueue q.toNat { x with msgs := x.msgs ++ [qm] }))

/-! ## Words (R294-R297) -/

/-- A message becomes readable: counted, and the arrival tally adds 1 (R297). -/
def Core.msgReadable (k : Core) (q : Nat) : Core :=
  let x := k.queue q
  let k1 := k.setQueue q { x with received := x.received + 1 }
  if x.arrEn then k1.addTally x.arrTally.toNat 1 else k1

def QMsg.reached (m : QMsg) : Bool := decide (Nat.min m.threshold m.len ≤ m.arrived)

/-- The next word of a message that a queue has admitted. -/
def QMsg.take (m : QMsg) (now : Nat) : QMsg :=
  match m.coming with
  | [] => m
  | (w, p) :: rest =>
    let word : QWord :=
      { data := w, poison := p, first := decide (m.arrived = 0), last := decide (m.arrived + 1 = m.len), trunc := false,
        parity := parityOf w, index := m.arrived }
    { m with held := m.held ++ [word], coming := rest, arrived := m.arrived + 1, ended := rest.isEmpty, lastTime := now }

/-- Ends a message with a terminating word (R295). -/
def QMsg.truncate (m : QMsg) : QMsg :=
  let word : QWord :=
    { data := 0, poison := true, first := false, last := true, trunc := true, parity := false, index := m.arrived }
  { m with held := m.held ++ [word], coming := [], arrived := m.arrived + 1, len := m.arrived + 1, ended := true }

/-- Words of an ended message are discarded and counted (R295, R296). -/
def Core.discardWords (k : Core) (q n : Nat) : Core :=
  k.setQueue q { k.queue q with discarded := satAdd 0xFFFF (k.queue q).discarded n }

/-- Ends the `i`-th message of a queue; the words still to come are discarded as they arrive. -/
def State.truncateMsg (s : State) (c : CoreId) (q i : Nat) (m : QMsg) (left : Nat) : State :=
  let s1 := s.modCore c (fun k =>
    let x := k.queue q
    let late := if left = 0 then x.late else
      x.late ++ [QLate.mk m.id m.srcChip m.srcCore m.via left]
    let k1 := k.setQueue q { x with msgs := x.msgs.set i { m.truncate with readable := true },
                                    truncated := satAdd 0xFFFF x.truncated 1, late := late }
    if m.readable then k1 else k1.msgReadable q)
  if left = 0 then s1.msgDone m.via m.srcChip m.srcCore m.id else s1

/-- The next word of the `i`-th admitted message arrives, or with `late` a word of the `i`-th message that was ended before;
`fabricEnd` marks a message from the fabric that ends with a poison indication (R296). -/
def execMessageWordArrive (c : CoreId) (q : BitVec 2) (late : Bool) (i : Nat) (fabricEnd : Bool) (s : State) : Out :=
  let k := s.core c
  let x := k.queue q.toNat
  if !s.coreAlive c || k.engineInReset then .next s
  else if late then
    match x.late[i]? with
    | none => .next s
    | some l =>
      let rest := if l.left ≤ 1 then x.late.eraseIdx i else x.late.set i { l with left := l.left - 1 }
      let s1 := s.setCore c ((k.setQueue q.toNat { x with late := rest }).discardWords q.toNat 1)
      .next (if l.left ≤ 1 then s1.msgDone l.via l.srcChip l.srcCore l.id else s1)
  else
    match x.msgs[i]? with
    | none => .next s
    | some m =>
      if m.coming.isEmpty then .next s
      else if fabricEnd && m.via.isSome then
        .next ((s.truncateMsg c q.toNat i m 0).modCore c (fun k => k.discardWords q.toNat m.coming.length))
      else
        let m1 := m.take s.now
        let becomes := !m.readable && m1.reached
        let s1 := s.modCore c (fun k =>
          let k1 := k.setQueue q.toNat { x with msgs := x.msgs.set i { m1 with readable := m.readable || becomes } }
          if becomes then k1.msgReadable q.toNat else k1)
        .next (if m1.ended then s1.msgDone m.via m.srcChip m.srcCore m.id else s1)

/-- A word 100 µs overdue ends the message (R295). -/
def execMessageTruncate (c : CoreId) (q : BitVec 2) (i : Nat) (s : State) : Out :=
  let k := s.core c
  match (k.queue q.toNat).msgs[i]? with
  | none => .next s
  | some m =>
    if !s.coreAlive c || k.engineInReset || m.coming.isEmpty || decide (s.now < m.lastTime + 100000) then .next s
    else .next (s.truncateMsg c q.toNat i m m.coming.length)

/-! ## MRECV (R138, R291, R294, R298) -/

/-- MRECV_TAGS of a returned word, Table 6.3. -/
def tagsOf (m : QMsg) (w : QWord) (poison : Bool) : Word :=
  let b (x : Bool) (i : Nat) : Nat := if x then 2 ^ i else 0
  BitVec.ofNat 64 (m.srcChip.toNat * 2 ^ 48 + m.srcCore.toNat * 2 ^ 38 + w.index % 256 * 2 ^ 16 + b w.trunc 4 + b w.last 3
    + b w.first 2 + b poison 1 + 1)

def execMrecv (c : CoreId) (rd : Reg) (imm : BitVec 8) (s : State) : Out :=
  s.issue c [.g rd] (fun s =>
    let k := s.core c
    let q := imm.toNat % 4
    let x := k.queue q
    let none' : Core := (({ k with mrecvTags := 0 }).setG rd 0).retire.count 0x072 1 k.pc 0
    match x.msgs with
    | [] => .next (s.setCore c none')
    | m :: rest =>
      match m.held with
      | [] => .next (s.setCore c none')
      | w :: held =>
        if !m.readable then .next (s.setCore c none')
        else
          let bad := decide (w.parity ≠ parityOf w.data)
          let poison := w.poison || bad
          let m1 := { m with held := held, returned := m.returned + 1 }
          let msgs := if m1.len ≤ m1.returned then rest else m1 :: rest
          let x1 := { x with msgs := msgs, parityErr := if bad then satAdd 0xFFFF x.parityErr 1 else x.parityErr }
          let k1 := ({ k with mrecvTags := tagsOf m w poison,
                              qProgress := Tab.modify 0 k.qProgress q (fun n => n + 1) }).setQueue q x1
          let k2 := (k1.setG rd w.data).retire.count 0x071 1 k.pc 0
          .next (s.setCore c (if poison then
            { k2 with poison := k2.poison ++
                [PoisonHit.mk (BitVec.ofNat 64 q) (if rd = 0 then none else some (.g rd))] } else k2)))

end Sys2Proof.Machine
end

