-- ==== Sys2Proof/Machine/Service.lean ====
section
/-! DEFINITION. What the service chapters share: replacement reasons (16 R722, R723), pending entries of the field
appendix (01 R42-R44), flash writes that wait (13 R597, 15 R647), service tiers (16 R720, R721), package-fatal errors
(16 R682), parking (11 R531). -/
namespace Sys2Proof.Machine

/-! ## Flash -/

/-- Queues a flash write that is not queued yet. -/
def State.queueFlash (s : State) (i : FlashItem) : State :=
  if s.tray.flash.contains i then s else { s with tray := { s.tray with flash := s.tray.flash ++ [i] } }

/-- A value that is stored in flash has changed (15 R647). -/
def State.storeValue (s : State) (index sub : Nat) : State := s.queueFlash (.value index sub)

/-- Every test has passed within the last 2 s, and the mirror is recent (15 R640). -/
def State.standbyHealthy (s : State) : Bool :=
  s.rind.healthy && s.rind.lastPass.all (fun p => decide (s.now ≤ p + 2000000000))

/-! ## Notices to the tray (13 Table 13.5, R601) -/

/-- Sets or clears a bit of NOTICE; TRAY_ALERT_N is asserted while NOTICE is not 0 and not acknowledged whole, a new
bit not having been seen yet. -/
def State.setNotice (s : State) (bit : Nat) (on : Bool) : State :=
  let n := if on then s.tray.notice ||| (1 <<< bit) else s.tray.notice &&& ~~~((1 : BitVec 8) <<< bit)
  let again := on && !s.tray.notice.getLsbD bit
  { s with tray := { s.tray with notice := n, trayAlert := decide (n ≠ 0) && (again || s.tray.trayAlert) } }

/-! ## Replacement reasons (16 R722, R723) -/

/-- Raises a reason: it is counted, and object 0x8001 changes when it was not set. -/
def State.raiseReason (s : State) (bit : Nat) : State :=
  let f := s.faults
  let s1 := { s with faults := { f with raised := f.raised + 1 } }
  if f.reasons.getLsbD bit then s1
  else
    let s2 := { s1 with faults := { s1.faults with
      reasons := f.reasons ||| (1 <<< bit),
      firstNs := if f.reasons = 0 then s.stamp else f.firstNs,
      reasonEpoch := f.reasonEpoch + 1 } }
    ((s2.setNotice 2 true).storeValue 0x8001 1).notify 0x8001

/-- A reason whose condition is not in other state stands, or no longer does. -/
def State.standReason (s : State) (bit : Nat) (on : Bool) : State :=
  { s with faults := { s.faults with
      standing := if on then s.faults.standing ||| (1 <<< bit) else s.faults.standing &&& ~~~((1 : BitVec 32) <<< bit) } }

/-- The reasons whose condition stands now. -/
def State.standingReasons (s : State) : BitVec 32 :=
  let bit (i : Nat) (b : Bool) : BitVec 32 := if b then 1 <<< i else 0
  bit 0 (!s.org.anyBody) ||| bit 1 (decide (s.org.fieldFree = 0)) |||
  bit 2 (s.hbm.stackTab.any (fun e => decide (e.2.retired ≠ 0))) |||
  bit 3 (s.hbm.stackTab.any (fun e => decide (e.2.state = 6))) |||
  bit 4 (s.org.capacity.any (fun e => decide (e.2 = 2))) |||
  bit 5 (s.therm.marks.any (fun e => decide (e.2 ≠ 0))) ||| bit 6 (decide (s.therm.leak = 2)) |||
  bit 7 s.therm.suspect ||| bit 8 (decide (1000000 < s.therm.lifeUsed)) ||| bit 9 (decide (s.tray.mainState = 3)) |||
  bit 10 (decide (s.rind.a = .halted) || decide (s.rind.b = .halted)) |||
  bit 11 (s.faults.phasesLost.any (fun e => decide (e.2 ≠ 0))) ||| bit 14 s.faults.tierLost ||| s.faults.standing

/-- Raises again each reason that stands and is not set (R723). -/
def State.reraise (s : State) : State :=
  (List.range 15).foldl (fun s i =>
    if s.standingReasons.getLsbD i && !s.faults.reasons.getLsbD i then s.raiseReason i else s) s

/-! ## The field appendix (01 R42-R44) -/

/-- A defect found in service waits to be appended to both copies; past 4,096 entries it is not recorded. -/
def State.pendEntry (s : State) (kind : AppKind) (location cause : Nat) : State :=
  if s.org.fieldFree ≤ s.org.unwritten then s.raiseReason 1
  else
    let e : AppEntry := { seq := 0, time := s.stamp, kind := kind, location := location, cause := cause }
    ({ s with org := { s.org with pendingEntries := s.org.pendingEntries ++ [e] } }).queueFlash .appendix

/-! ## Service tiers (16 Table 16.15, R721) -/

def State.rindActive (s : State) : Bool := decide (s.rind.a = .active) || decide (s.rind.b = .active)

/-- The stacks fitted. -/
def OrgSt.fitted (o : OrgSt) : List Nat := (List.range 8).filter (fun n => o.record.hbmFitted.getLsbD n)

/-- A training has ended since the stacks last lost power: it leaves a stack in the set, in the tail or failed. -/
def State.laidOut (s : State) : Bool := s.org.fitted.any (fun n => decide (4 ≤ (s.stack n).state))

/-- A layout is in force on stacks that serve (07 R335, R336). -/
def State.hbmServes (s : State) : Bool := decide (s.hbm.set ≠ 0) && s.laidOut

/-- LACKING of object 0x8002. -/
def State.lackingBits (s : State) : BitVec 16 :=
  let bit (i : Nat) (b : Bool) : BitVec 16 := if b then 1 <<< i else 0
  bit 0 (!s.tray.auxPg) ||| bit 1 (!s.rindActive) ||| bit 2 (!s.oap.portA.up && !s.oap.portB.up) |||
  bit 3 (!(s.tray.mainPg && s.tray.holdsMain)) ||| bit 4 (!s.org.transitOn) |||
  bit 5 (!s.org.anyBody) ||| bit 6 (!s.tray.refFab) |||
  bit 7 (!(List.range 16).all (fun r => (s.region r).risen)) ||| bit 8 (!allCores.any s.org.present) |||
  bit 9 (!s.hbmServes)

/-- The highest tier whose needs hold. -/
def tierOf (l : BitVec 16) : Nat :=
  if l &&& 0x0047 ≠ 0 then 0
  else if l &&& 0x0038 ≠ 0 then 1
  else if l &&& 0x0380 ≠ 0 then 2
  else 3

/-- Brings TIER and LACKING up to date; a tier lost to a package-fatal error does not return by itself. -/
def State.evalTier (s : State) : State :=
  let l := s.lackingBits
  let t := tierOf l
  let t1 := if s.faults.tierLost then Nat.min t s.faults.tier else t
  if t1 = s.faults.tier then { s with faults := { s.faults with lacking := l } }
  else ({ s with faults := { s.faults with lacking := l, tier := t1, tierEpoch := s.faults.tierEpoch + 1 } }).notify 0x8002

/-- A ladder step, a start after main power is granted, or an AUX power-up lets a lost tier return. -/
def State.restoreTier (s : State) : State := { s with faults := { s.faults with tierLost := false } }.evalTier

/-- A dump is due, triggered by the newest record. -/
def State.wantDump (s : State) (job : Word) : State :=
  { s with faults := { s.faults with dumpDue := true, dumpTrigger := s.faults.seq, dumpJob := job } }

/-- A package-fatal error: its record, the end of the loaded job, and the tier that is left (R682). -/
def State.fatal (s : State) (i : FaultInfo) : State :=
  let s1 := s.faultRecord { i with cls := 4 }
  let s2 := if s1.jobLoaded then s1.jobEnd 4 3 else s1
  let want := s2.org.transitOn && s2.rindActive && !s2.faults.dumpDue
  let s3 := if want then s2.wantDump (if s1.jobLoaded then s1.job.jobId else 0) else s2
  ({ s3 with faults := { s3.faults with tierLost := true } }).evalTier

/-! ## What holds a region down (11 Tables 11.6, 11.12) -/

/-- A thermal or coolant row of Table 11.6 demands the lowest operating state. -/
def State.thermalForced (s : State) : Bool :=
  s.therm.heatTrip || s.therm.fastStop || decide (s.therm.leak = 1) || s.therm.dieForced || s.therm.hbmForced

def State.capStatus (s : State) : BitVec 32 :=
  let p := s.pow
  let bit (i : Nat) (b : Bool) : BitVec 32 := if b then 1 <<< i else 0
  bit 0 p.capLimiting ||| bit 1 (decide (p.effCap < p.windowAvg)) ||| bit 2 (!p.attainable) |||
  bit 3 (decide (p.floorMode = 1)) ||| bit 4 (decide (p.parked ≠ 0)) ||| bit 5 (decide (s.therm.allowance < p.effCap)) |||
  bit 6 p.limiter ||| bit 7 p.alertHeld ||| bit 8 s.thermalForced ||| bit 9 p.throttleOpen.isSome |||
  bit 10 (s.regions.any (fun e => decide (2000 < e.2.current))) ||| bit 11 (decide (p.hold = 1)) |||
  bit 12 (decide (p.effective = 2))

/-- Object 0x2010 follows the state; an EVENT goes with each change. -/
def State.showCaps (s : State) : State :=
  if s.capStatus = s.pow.shown then s
  else ({ s with pow := { s.pow with shown := s.capStatus } }).notify 0x2010

/-- LIMIT_CAUSE of the highest source above the grant that binds every region; 1 under the floor of Table 11.10, 0 for none (R507). -/
def State.causeAll (s : State) : Nat :=
  if s.therm.heatTrip || s.therm.fastStop || decide (s.therm.leak = 1) then 8
  else if s.pow.alertHeld then 4
  else if s.therm.dieForced || s.therm.hbmForced then 8
  else if s.pow.limiter then 2
  else if decide (s.pow.parked = 0xFFFF) || decide (s.pow.effective = 2) then 16
  else if s.pow.floorMode = 1 then 1
  else 0

/-- The same for one region, which can be parked while others have been released. -/
def State.forcedCause (s : State) (r : Nat) : Nat :=
  if decide (s.causeAll ≤ 1) && s.pow.parked.getLsbD r then 16 else s.causeAll

/-- A source that binds every region shows at once as the cause of each, and no ceiling rises under it. -/
def State.showCauses (s : State) : State :=
  if s.causeAll = 0 then s
  else
    { s with regions := Tab.mapVals Region.reset (fun r =>
        if r.risen then { r with limitCause := s.causeAll, ceilRise := false } else r) s.regions }

/-- Every ceiling begins to fall to 1 (R498). -/
def State.lowerCeilings (s : State) : State :=
  { s with regions := Tab.mapVals Region.reset Region.fallCeiling s.regions }

/-- Every ceiling begins to fall to 1 and every clock to 800 MHz (Table 11.8). -/
def State.fallLowest (s : State) : State :=
  ({ s with regions := Tab.mapVals Region.reset Region.fallLowest s.regions }).showCauses

/-! ## Parking (11 R531, R532) -/

def PowSt.parkReason (p : PowSt) : Bool := p.parkOrder || p.parkSlice || p.parkFloor || p.parkCool || p.parkOff

/-- STATE of object 0x1201 shows a running job as parked while any reason but a slice parks it. -/
def State.jobPark (s : State) : State :=
  let p := s.pow
  let long := p.parkOrder || p.parkFloor || p.parkCool || p.parkOff
  if s.job.state = 1 && long then
    ({ s with job := { s.job with state := 2, epoch := s.job.epoch + 1 } }).notify 0x1201
  else if s.job.state = 2 && !long && p.parked = 0 then
    ({ s with job := { s.job with state := 1, epoch := s.job.epoch + 1 } }).notify 0x1201
  else s

/-- The clock of a parked region: 800 MHz, at the end of the fall where one is under way. -/
def Region.parkClock (r : Region) : Region := if r.clockFall then r else { r with current := 800, target := 800 }

/-- Parks the package when a reason stands: every core stops at its next instruction boundary, no further Press command or
Ladle transaction issues, and the region clocks hold 800 MHz. -/
def State.park (s : State) : State :=
  if s.pow.parkReason then
    (({ s with pow := { s.pow with parked := 0xFFFF, tickCauses := s.pow.tickCauses ||| 0x20 },
               regions := Tab.mapVals Region.reset Region.parkClock s.regions }).showCauses.jobPark).showCaps
  else s

/-- Every region that has risen stands in the lowest operating state. -/
def State.atLowest (s : State) : Bool :=
  s.regions.all (fun e => !e.2.risen || (decide (e.2.ceiling ≤ 1) && decide (e.2.current ≤ 800)))

/-- The package parks for the coolant or the leak loop while either asks for it, from when it has reached the lowest operating
state (12 R552, R563). -/
def State.coolPark (s : State) : State :=
  let on := (s.therm.fastStop || s.therm.leakPark) && (s.pow.parkCool || s.atLowest)
  if on = s.pow.parkCool then s
  else ({ s with pow := { s.pow with parkCool := on } }).park.jobPark

end Sys2Proof.Machine
end

