-- ==== Sys2Proof/Machine/Domains.lean ====
section
/-! DEFINITION. The power and reset domains (01 Table 1.8, R51-R58): what the reset of each leaves of the state. -/
namespace Sys2Proof.Machine

/-- Leaves `n` bytes undefined (log 6): free bytes, with no poison mark. -/
def State.havoc (s : State) (off n : Nat) : State :=
  { s with mem := Memory.havoc s.mem off s.freeCount n, freeCount := s.freeCount + n,
           poison := Tab.filterKeys (fun w => decide (w < off / 8) || decide ((off + n) / 8 ≤ w)) s.poison,
           uncorrectable := Tab.filterKeys (fun w => decide (w < off / 32) || decide ((off + n) / 32 ≤ w)) s.uncorrectable,
           cellErrs := Tab.filterKeys (fun w => decide (w < off / 8) || decide ((off + n) / 8 ≤ w)) s.cellErrs,
           symbolErrs := Tab.filterKeys (fun w => decide (w < off / 32) || decide ((off + n) / 32 ≤ w)) s.symbolErrs }

/-! ## Messages that a reset discards (06 R299) -/

/-- The data flits of a message's words, as a discard counts them: one flit for 8 words, and one more where its header goes with them. The
spec gives the mesh no flit size; these are the fabric's (DESIGN CHOICE, log 135). -/
def flitsOf (words : Nat) : Nat := (words + 7) / 8

def OutMsg.isFor (m : OutMsg) (c : CoreId) : Bool :=
  match m.target with
  | some (x, _) => x == c
  | none => false

/-- Messages to a core that wait in senders' slots of this chip, with how many flits they are. -/
def State.purgeSenders (s : State) (c : CoreId) : Nat × State :=
  let hit (m : OutMsg) : Bool := !m.admitted && m.isFor c
  let gone := s.cores.flatMap (fun e => e.2.outMsgs.filter hit)
  (gone.foldl (fun n m => n + 1 + flitsOf m.words.length) 0,
   { s with cores := Tab.mapVals Core.reset (fun k => { k with outMsgs := k.outMsgs.filter (fun m => !hit m) }) s.cores })

/-- Messages to a core that wait in a receiving die: acknowledged to their source. -/
def State.purgeDies (s : State) (c : CoreId) : Nat × State :=
  let gone := s.dieMsgs.filter (fun e => e.2.isFor c)
  let s1 := { s with dieMsgs := s.dieMsgs.filter (fun e => !e.2.isFor c) }
  (gone.foldl (fun n e => n + 1 + flitsOf e.2.words.length) 0,
   gone.foldl (fun s e => s.msgDone (some e.1) e.2.srcChip e.2.srcCore e.2.id) s1)

/-- The later words of messages that a core's queues have admitted. -/
def State.purgeComing (s : State) (c : CoreId) : Nat × State :=
  let qs := [0, 1, 2, 3].map (s.core c).queue
  let ms := qs.flatMap (fun q => q.msgs.filter (fun m => !m.coming.isEmpty))
  let ls := qs.flatMap (fun q => q.late)
  let s1 := ms.foldl (fun s m => s.msgDone m.via m.srcChip m.srcCore m.id) s
  (ls.foldl (fun n l => n + flitsOf l.left) (ms.foldl (fun n m => n + flitsOf m.coming.length) 0),
   ls.foldl (fun s l => s.msgDone l.via l.srcChip l.srcCore l.id) s1)

def State.purge (s : State) (c : CoreId) : Nat × State :=
  let a := s.purgeSenders c
  let b := a.2.purgeDies c
  let d := b.2.purgeComing c
  (a.1 + b.1 + d.1, d.2)

/-- Reports the flits of a purge, as a region's discards (01 R52). -/
def State.reportPurge (s : State) (c : CoreId) (n : Nat) : State :=
  if n = 0 then s else s.regionDiscard (coreRegion c) n [c]

/-! ## ENGINE and CORE (R56, R57; 02 R77; 03 R199, R200) -/

/-- Each line of a running command's D holds its old or its new value: one free bit chooses for each. -/
def State.tornLines (s : State) (c : CoreId) (ls : List PressLine) : State :=
  let (f, s1) := s.drawFree
  ls.zipIdx.foldl (fun s e =>
    if f.testBit e.2 then s.writePressLine c e.1 else s) s1

/-- The Press, the Ladle and the message queues start afresh; the Press begins its fall at once, and leaves reset at level 0
(03 R200). The progress counter keeps what the commands had done (16 R692). -/
def Core.engineReset (k : Core) (cycle : Nat) : Core :=
  let k1 := k.beginFall cycle
  { k1 with
    pressQ := [], pressRun := [], pressSub := 0, pressHeld := false, pressStop := none, streams := [], ladleQ := [],
    ladleRun := [], ladleTxs := [], ladleSub := 0, ladleLast := 0, ladleHeld := false,
    queues := [], abortClosed := false, pressProgress := k.pressCount, engineInReset := decide (0 < k1.pressLevel),
    hung := k.hung &&& 0x81 }

/-- A unit of a core under hang detection; with `engine`, only one of its ENGINE domain. -/
def hangOf (c : CoreId) (engine : Bool) : HangUnit → Bool
  | .core x => decide (x = c) && !engine
  | .press x => decide (x = c)
  | .ladle x => decide (x = c)
  | .queue x _ => decide (x = c)
  | _ => false

/-- The hang window in progress does not count for units whose domain is reset in it (16 R690). -/
def State.dropSnaps (s : State) (p : HangUnit → Bool) : State :=
  { s with faults := { s.faults with snaps := s.faults.snaps.filter (fun e => !p e.1) } }

/-- The lines of D that an ENGINE reset catches on their way to the Vat; after a job abort no further line is written (R201). -/
def Core.linesComing (k : Core) : List PressLine := if k.pressHeld then [] else k.pressRun.flatMap (fun r => r.lines)

/-- An ENGINE reset: what the Press has done until now stands; the lines of D that it has not yet written are torn. -/
def State.engineReset (s : State) (c : CoreId) : State :=
  let p := (s.pressSync c).purge c
  let s1 := (p.2.dropSnaps (hangOf c true)).tornLines c (p.2.core c).linesComing
  (s1.modCore c (fun k => k.engineReset (s.arrayCycle c))).reportPurge c p.1

/-- A core as CORE reset leaves it: dirty cache lines are lost; the progress page, which the region serves, stays (16
R692). A core whose Press falls, or that has been found defective, stays in reset; a fall that an ENGINE reset has begun goes on (R58). -/
def Core.coreReset (k : Core) (cycle : Nat) (failed : Bool) : Core :=
  let k1 := if k.engineInReset then k else k.beginFall cycle
  let held := decide (0 < k1.pressLevel) || failed
  { Core.reset with
    pmu := { Pmu.reset with cycleBase := BitVec.ofNat 64 cycle }, pressLevel := k1.pressLevel,
    pressStepCycle := k1.pressStepCycle, pressSeen := k.pressSeen, pressObeyed := k.pressObeyed,
    pressChanges := k1.pressChanges, engineInReset := held, coreInReset := held, coreProgress := k.coreProgress,
    pressProgress := k.pressCount, ladleProgress := k.ladleProgress, qProgress := k.qProgress, hung := k.hung &&& 0x80,
    shadows := k.shadows, nextId := k.nextId }

/-- What a CORE reset leaves of a core and its Vat. -/
def State.coreClear (s : State) (c : CoreId) : State :=
  let failed := decide (s.org.capCode c = 1)
  ((s.dropSnaps (hangOf c false)).modCore c (fun k => k.coreReset (s.arrayCycle c) failed)).havoc (vatBase c) vatSize

def State.coreReset (s : State) (c : CoreId) : State :=
  let p := (s.pressSync c).purge c
  (p.2.coreClear c).reportPurge c p.1

/-! ## REGION and COMPUTE (R51; 14 R617) -/

/-- The region's registers after its reset, its rails and clock running at 800 MHz, its gates as the part record has them (11
Table 11.14). -/
def Region.restart (r : Region) (gates : BitVec 68) : Region :=
  { Region.reset with gate := gates, on := gates, cycles := r.cycles, risen := true }

/-- What the neighbours of a region hold on both planes goes on (R52). -/
def OrgSt.releaseMesh (o : OrgSt) (r : Nat) : OrgSt :=
  let m : BitVec 16 := ~~~((1 : BitVec 16) <<< r)
  { o with requestPlane := { held := o.requestPlane.held &&& m }, responsePlane := { held := o.responsePlane.held &&& m } }

/-- The neighbours of a region hold new through-traffic on both planes (R51). -/
def OrgSt.holdMesh (o : OrgSt) (r : Nat) : OrgSt :=
  let m : BitVec 16 := (1 : BitVec 16) <<< r
  { o with requestPlane := { held := o.requestPlane.held ||| m }, responsePlane := { held := o.responsePlane.held ||| m } }

def State.setRegionState (s : State) (r code : Nat) : State :=
  if Tab.get 3 s.org.regionState r = code then s
  else
    ({ s with org := { s.org with regionState := Tab.put 3 s.org.regionState r code,
                                  regionEpoch := s.org.regionEpoch + 1 } }).notify 0x6020

/-- The progress page of a core, which lies in the REGION domain (16 R692). -/
def Core.pageReset (k : Core) : Core :=
  { k with coreProgress := 0, pressProgress := 0, ladleProgress := 0, qProgress := [], hung := 0, shadows := [] }

/-- The region and every core of it are reset. -/
def State.regionReset (s : State) (r : Nat) : State :=
  let s1 := ((List.range 1024).map (BitVec.ofNat 10)).foldl (fun s c =>
    if coreRegion c = r then (s.coreReset c).modCore c Core.pageReset else s) s
  let s2 := s1.modRegion r (fun x => x.restart (s1.org.recordGates r))
  let o := s2.org.releaseMesh r
  ({ s2 with pow := { s2.pow with riseWait := s2.pow.riseWait.filter (fun y => y ≠ r) },
             org := { o with regionDrainUntil := Tab.put none o.regionDrainUntil r none } }).showCaps

/-- A core without power: no ballast falls, and no level is left. -/
def Core.powerDown (k : Core) : Core :=
  let k1 := k.pageReset
  { k1 with pressLevel := 0, pressStepCycle := 0, pressSeen := 0, pressObeyed := 0, pressChanges := [],
            engineInReset := false, coreInReset := false }

/-- COMPUTE loses power or is held in reset: every region and core with it. Barrier contexts and the rotation pointer lie
in it (06 R322; DEDUCED, log 26). A region reset in progress is absorbed (R58). -/
def State.computeDown (s : State) : State :=
  let s1 := allCores.foldl (fun s c => (s.purge c).2.coreClear c) s
  let s2 := { s1 with
    cores := Tab.mapVals Core.reset Core.powerDown s1.cores,
    regions := (List.range 16).filterMap (fun r =>
      let x := { Region.reset with cycles := (s1.region r).cycles }
      if x = Region.reset then none else some (r, x)),
    barriers := { BarrierSt.reset with releaseOffset := s1.barriers.releaseOffset },
    pow := { s1.pow with riseWait := [], grantsDue := none },
    start := { s1.start with rising := false, ran := false },
    org := { s1.org with
      computeOn := false, regionDrainUntil := [], selectors := [], requestPlane := { held := 0 },
      responsePlane := { held := 0 } } }
  ((List.range 16).foldl (fun s r => s.setRegionState r 3) s2).showCaps

/-- An image type is neither rejected nor under repair (17 R751). -/
def State.imageOk (s : State) (t : Nat) : Bool := decide ((s.image t).state ≠ 2) && decide ((s.image t).state ≠ 3)

/-- COMPUTE may be powered: TRANSIT, its parent, is (R53), main power is held (13 R593), its images pass (14 R614), and the effective
power state is not OFF (11 R504). -/
def State.computeAllowed (s : State) : Bool :=
  s.org.transitOn && s.tray.mainPg && s.tray.holdsMain && s.imageOk 3 && s.imageOk 5 && decide (s.pow.effective ≠ 2)

/-- The region rise begins (14 R617), with A_J at 4,800 W (12 R567). Until its own rise a region's STATE stays 0x03 (DESIGN
CHOICE, log 100: Table 1.15 has no code of its own for that time). -/
def State.computeUp (s : State) : State :=
  { s with org := { s.org with computeOn := true },
           start := { s.start with rising := true, rises := 0, lastRise := none, ran := false },
           therm := { s.therm with aj := 4800 } }

/-- COMPUTE is powered if it may be. -/
def State.computePower (s : State) : State := if s.computeAllowed then s.computeUp else s

/-! ## MEMORY (07 R335, R355) -/

/-- The controllers stop serving. The layout stays until a training completes (R335); counts since AUX power-up stay. -/
def State.memoryDown (s : State) : State :=
  { s with org := { s.org with memoryOn := 0 },
           hbm := { s.hbm with
             stackTab := Tab.mapVals Stack.reset (fun x =>
               { x with state := 1, healthy := 0, chanCorrected := [], chanUncorrectable := [], progress := 0 }) s.hbm.stackTab,
             lastPowered := none, trainingSince := none, trainingRecovery := false },
           counters := { s.counters with hbm := [] },
           faults := { s.faults with snaps := s.faults.snaps.filter (fun e => match e.1 with | .hbm _ => false | _ => true) } }

/-- One write of the tray's register 0x100 (13 Table 13.5). Its MODULE_CMD keeps every module as it is. -/
def State.trayWrite (s : State) : State := { s with tray := { s.tray with reqSeq := s.tray.reqSeq + 1, moduleCmd := 0 } }

/-! ## TRANSIT and the loss of main power (13 R594; 16 R683) -/

/-- A port after TRANSIT reset keeps what its plan gave it. -/
def Port.cold (p : Port) : Port :=
  { Port.reset with logical := p.logical, congSeq := p.congSeq, schedShadow := p.schedShadow }

/-- Every port that is not DOWN becomes DOWN: each change advances EPOCH of object 0x4001, and DEGRADED reads 1 (08 R393, R396). -/
def State.portsDown (s : State) : State :=
  let gone := (List.range 48).filter (fun p => decide ((Tab.get Port.reset s.fab.ports p).state ≠ 0))
  let s1 := gone.foldl (fun (t : State) p => (t.notify (0x4101 + p)).notify 0x4001) s
  { s1 with fab := { s1.fab with degraded := 1, epoch := s.fab.epoch + BitVec.ofNat 32 gone.length } }

/-- No site port is in site mode (10 R485, R486). -/
def State.sitesDown (s : State) : State :=
  let gone := [44, 45, 46, 47].filter (fun p => decide ((Tab.get SitePort.reset s.site.ports p).state ≠ 0))
  let s1 := gone.foldl (fun (t : State) p => t.notify (0x4501 + (p - 44))) s
  let s2 := if s.site.active = 0 then s1 else s1.notify 0x4500
  { s2 with site := { s2.site with
      active := 0, epoch := if s.site.active = 0 then s.site.epoch else s.site.epoch + 1,
      ports := Tab.mapVals SitePort.reset (fun p =>
        { p with state := 0, epoch := if p.state = 0 then p.epoch else p.epoch + 1 }) s2.site.ports } }

/-- Fabric time ends; EPOCH of object 0x4010 follows a change of STATE or PARENT (09 R435). -/
def State.timeDown (s : State) : State :=
  let t := s.time
  let t1 := { TimeSt.reset with role := t.role, epoch := t.epoch }
  if t.state = 0 ∧ t.parent = 0x3F then { s with time := t1 }
  else { s with time := { t1 with epoch := t.epoch + 1 } }.notify 0x4010

/-- Both I/O dies lose power: flow contexts, ports, dies, the active route bank, fabric time and schedules. Numbers from the
plan, which lies in flash, stay. The spec gives SHADOW_PLAN_ID and CAUSE of the route tables no domain: they go with the banks, and EPOCH
stays (DESIGN CHOICE, log 140). -/
def State.transitDown (s : State) : State :=
  let s1 := s.portsDown.sitesDown.timeDown
  let f := s1.fab
  { s1 with
    org := { s.org with transitOn := false },
    fab := { FabSt.reset with
      chip := f.chip, group := f.group, member := f.member, degraded := f.degraded, epoch := f.epoch,
      planBlob := f.planBlob, signer := f.signer, planSigner := f.planSigner, planId := f.planId, plan := f.plan,
      planCause := f.planCause, swaps := f.swaps, planEpoch := f.planEpoch, routeEpoch := f.routeEpoch, flashRoutes := f.flashRoutes,
      ports := Tab.mapVals Port.reset Port.cold f.ports },
    sched := { SchedSt.reset with epoch := s.sched.epoch },
    cong := { s.cong with samples := 0 },
    counters := { s.counters with ports := [] },
    dieMsgs := [],
    faults := { s.faults with
      stageWest := FaultRec.zero, stageEast := FaultRec.zero, abortWest := AbortCtx.reset, abortEast := AbortCtx.reset,
      inAbort := false, abortSends := [], abortLastSend := none, ring := [], dumpDue := false, dumpState := 0,
      dumpSections := [], dumpHead := [],
      dumpEpoch := if s.faults.dumpState = 0 then s.faults.dumpEpoch else s.faults.dumpEpoch + 1,
      ladder := if s.faults.ladder.step = 5 then s.faults.ladder else { s.faults.ladder with step := 0, want := 0 } } }

/-- Every main-fed domain loses power. -/
def State.mainDown (s : State) : State :=
  let s0 := s.computeDown.memoryDown.transitDown
  let s1 := if s0.site.stores = 0 then s0 else s0.notify 0x4500
  { s1 with tray := { s1.tray with holdsMain := false }, hbm := { s1.hbm with caves := [] },
            site := { s1.site with
              stores := 0, epoch := if s1.site.stores = 0 then s1.site.epoch else s1.site.epoch + 1,
              ports := Tab.mapVals SitePort.reset (fun p => { p with caveBase := 0, storeBase := 0, linkNs := 0 }) s1.site.ports } }

end Sys2Proof.Machine
end

