-- ==== Sys2Proof/Machine/Mains.lean ====
section
/-! DEFINITION. The request for main power and its loss (13 R593-R595; 14 R616; 16 R682, R683), and the start-up step in
progress (14 R614, R625). -/
namespace Sys2Proof.Machine

/-! ## Start-up steps -/

def State.inStep (s : State) (n : Nat) : Bool := decide (s.start.step = n)

/-- READY has been reached, and the start does not run again. -/
def State.atReady (s : State) : Bool := s.inStep 0x0A

/-- Begins a step; STEP_MS takes the time of its begin. -/
def State.enterStep (s : State) (n : Nat) : State :=
  ({ s with start := { s.start with
      step := n, begun := s.now, stepMs := Tab.put notBegun s.start.stepMs n (s.now / 1000000),
      epoch := s.start.epoch + 1 } }).notify 0x8020

/-- CAUSE of object 0x8020. -/
def State.startCause (s : State) (c : Nat) : State :=
  if s.start.cause = c then s
  else ({ s with start := { s.start with cause := c, epoch := s.start.epoch + 1 } }).notify 0x8020

/-- The start stops before READY. -/
def State.stopStart (s : State) (c : Nat) : State :=
  ({ s with start := { s.start with
      step := 0x0B, endTier := s.faults.tier, cause := c, epoch := s.start.epoch + 1, rising := false } }).notify 0x8020

/-! ## Main power -/

/-- The three conditions of R616. -/
def State.mainAllowed (s : State) : Bool :=
  !s.tray.coolantFault && decide (s.therm.leak ≠ 1) && !s.therm.heatTrip

/-- Writes MAIN_REQ 0x01, or waits with CAUSE 0x03 (R616). -/
def State.requestMain (s : State) : State :=
  if s.mainAllowed then
    let s1 := { s with tray := { s.tray with mainReq := 1 } }
    s1.trayWrite.startCause 0
  else s.startCause 3

/-- A package that waits under R616 asks as soon as no condition fails. -/
def State.retryMain (s : State) : State :=
  if s.inStep 3 && decide (s.start.cause = 3) && s.mainAllowed then s.requestMain else s

/-- The start from step 0x03 after a retry, a clear of HEAT_TRIP_N, or a package step. -/
def State.startMain (s : State) : State := (s.enterStep 3).requestMain

/-- The start from step 0x03 once the steps before it have ended. -/
def State.restartMain (s : State) : State := if s.start.step < 3 then s else s.startMain

/-- No request until R595 allows one; a package step asks no second time (R595). -/
def State.noRequest (s : State) : State :=
  { s with tray := { s.tray with mainReq := 0 },
           faults := { s.faults with ladder := { s.faults.ladder with offSince := none } } }

/-- A start in progress past step 0x03 stops with CAUSE 0x02 (R623). -/
def State.stopLost (s : State) : State :=
  if decide (4 ≤ s.start.step) && decide (s.start.step ≤ 9) then s.stopStart 2 else s

/-- Main power is lost: the record, the end of the job, every main-fed domain off. -/
def State.lossOfMain (s : State) (cause : Nat) : State :=
  let s1 := s.fatal { unit := 0x0A, cls := 4, cause := cause }
  s1.mainDown.noRequest.evalTier.stopLost

end Sys2Proof.Machine
end

