-- ==== Sys2Proof/Machine/Defects.lean ====
section
/-! DEFINITION. Defective cores (01 R29-R34, R41, R45, R46, R788): remaps, marks, and the spare map. -/
namespace Sys2Proof.Machine

/-- Physical columns of a segment that hold defective cores. -/
def OrgSt.segDefects (o : OrgSt) (row band : Nat) : List Nat :=
  (List.range (bandWidth row band)).filterMap (fun i =>
    let col := bandStart row band + i
    if o.defects.contains (34 * row + col) then some col else none)

/-- The logical cores of one segment. -/
def segCores (row band : Nat) : List CoreId := (List.range 8).map (fun i => BitVec.ofNat 10 (32 * row + 8 * band + i))

def State.capChanged (s : State) : State :=
  ({ s with org := { s.org with capEpoch := s.org.capEpoch + 1 } }).notify 0x6001

/-- Sets the capacity code of a core; a core newly absent raises CORE_ABSENT. -/
def State.setCapacity (s : State) (c : CoreId) (code : Nat) : State :=
  if s.org.capCode c = code then s
  else
    let s1 := ({ s with org := { s.org with capacity := Tab.put 0 s.org.capacity c.toNat code } }).capChanged
    if code = 2 then s1.raiseReason 4 else s1

/-- The remap of one segment at a COMPUTE power-up or reset; the defect map of the part record holds the result (R788; log 99). -/
def State.remapSegment (s : State) (row band : Nat) : State :=
  let o := s.org
  let h := remapHidden row band (o.hiddenCol row band) (o.segDefects row band)
  let hide (t : Tab Nat) : Tab Nat := Tab.put (defaultHidden row band) t (4 * row + band) h
  let s1 := { s with org := { o with
    hidden := hide o.hidden, copyA := { o.copyA with hidden := hide o.copyA.hidden },
    copyB := { o.copyB with hidden := hide o.copyB.hidden } } }
  (segCores row band).foldl (fun s c =>
    s.setCapacity c (if s.org.defects.contains (s.org.physIndex c) then 2 else 0)) s1

/-- The eight segments of a region. -/
def State.remapRegion (s : State) (r : Nat) : State :=
  (List.range 8).foldl (fun s i => s.remapSegment (8 * (r / 4) + i) (r % 4)) s

/-- The logical core that a physical core serves, if it is not hidden. -/
def OrgSt.coreOf (o : OrgSt) (phys : Nat) : Option CoreId := allCores.find? (fun c => decide (o.physIndex c = phys))

/-- A defect comes to be known: it takes effect, and is recorded in the field appendix (R42, R44). -/
def State.noteDefect (s : State) (phys : Nat) : State :=
  if 1088 ≤ phys ∨ s.org.defects.contains phys then s
  else
    let kind : AppKind := if (s.org.coreOf phys).isNone then .spare else .core
    ({ s with org := { s.org with defects := s.org.defects ++ [phys] } }).pendEntry kind phys 0

/-- A core found defective in service: its logical core is failed and held in reset until the next remap (R45); a hidden one
moves no logical core (R46). -/
def State.markDefect (s : State) (phys : Nat) : State :=
  if 1088 ≤ phys ∨ s.org.defects.contains phys then s
  else
    let s1 := s.noteDefect phys
    match s1.org.coreOf phys with
    | none => s1
    | some c => (s1.setCapacity c 1).coreReset c

/-- STATE of a segment in the spare map (01 Table 1.14). -/
def OrgSt.segState (o : OrgSt) (row band : Nat) : Nat :=
  let d := o.segDefects row band
  let h := o.hiddenCol row band
  if (segCores row band).any (fun c => decide (o.capCode c = 2)) then 2
  else if !d.contains h then 0
  else if h = defaultHidden row band then 3 else 1

/-- One row of object 0x6002. -/
def OrgSt.spareRow (o : OrgSt) (row : Nat) : Nat :=
  let w := row % 2
  let e := 2 + row % 2
  let absent := ((List.range 4).flatMap (segCores row)).filter (fun c => decide (o.capCode c = 2))
  o.hiddenCol row w * 2 ^ 26 + o.segState row w * 2 ^ 24 + o.hiddenCol row e * 2 ^ 10 + o.segState row e * 2 ^ 8 +
    absent.length

/-- A core is found defective in service: a contained error (16 Table 16.2). The spec gives its record no CAUSE: a free value
(log 34). -/
def execCoreDefectFound (row : BitVec 5) (col : Nat) (s : State) : Out :=
  let phys := 34 * row.toNat + col
  if !s.org.computeOn || decide (34 ≤ col) || s.org.defects.contains phys then .next s
  else
    let (f, s1) := s.drawFree
    let c := s1.org.coreOf phys
    let s2 := s1.markDefect phys
    match c with
    | none => .next s2
    | some _ => .next (s2.contained { core := c, unit := 1, cls := 3, cause := f % 256, index := phys } 1)

end Sys2Proof.Machine
end

