-- ==== Sys2Proof/Machine/Frames.lean ====
section
/-! DEFINITION. CRC-32C, and the words of an identity frame (08 R378, Table 8.4). -/
namespace Sys2Proof.Machine

/-! ## CRC-32C -/

/-- One bit of the reflected CRC-32C (polynomial 0x82F63B78, PRESUMED: the spec names the code only; log 33). -/
def crcBit (c : BitVec 32) : BitVec 32 := if c.getLsbD 0 then (c >>> 1) ^^^ 0x82F63B78 else c >>> 1

def crcByte (c : BitVec 32) (b : Byte) : BitVec 32 :=
  let x := c ^^^ b.setWidth 32
  crcBit (crcBit (crcBit (crcBit (crcBit (crcBit (crcBit (crcBit x)))))))

/-- The register before the first byte. -/
def crcStart : BitVec 32 := 0xFFFFFFFF

def crc32c (bs : List Byte) : BitVec 32 := ~~~(bs.foldl crcByte crcStart)

/-- The eight bytes of a word, lowest first. -/
def wordLe (w : Word) : List Byte := (List.range 8).map (fun i => w.extractLsb' (8 * i) 8)

/-- The words that bytes hold, lowest byte first. -/
def leWord (bs : List Byte) (i : Nat) : Word :=
  BitVec.ofNat 64 (leValue ((bs.drop (8 * i)).take 8))

end Sys2Proof.Machine

namespace Sys2Proof

/-- Bits `hi` to `lo` of a word. -/
def bitsAt (w : Word) (hi lo : Nat) : Nat := (w.extractLsb' lo (hi + 1 - lo)).toNat

/-! ## Fields of an identity frame (Table 8.4) -/

def IdFrame.frameType (f : IdFrame) : Nat := bitsAt f.w0 63 56
def IdFrame.protoMajor (f : IdFrame) : Nat := bitsAt f.w0 55 48
def IdFrame.protoMinor (f : IdFrame) : Nat := bitsAt f.w0 47 40
def IdFrame.port (f : IdFrame) : Nat := bitsAt f.w0 39 34
def IdFrame.chip (f : IdFrame) : Nat := bitsAt f.w0 31 16
def IdFrame.plan (f : IdFrame) : Bool := f.w0.getLsbD 15
def IdFrame.quar (f : IdFrame) : Bool := f.w0.getLsbD 14
def IdFrame.swapped (f : IdFrame) : Bool := f.w0.getLsbD 13
def IdFrame.degraded (f : IdFrame) : Bool := f.w0.getLsbD 12
def IdFrame.serial (f : IdFrame) : List Byte := Machine.wordLe f.w1 ++ Machine.wordLe f.w2
def IdFrame.planId (f : IdFrame) : Nat := f.w3.toNat
def IdFrame.fwMajor (f : IdFrame) : Nat := bitsAt f.w4 63 56
def IdFrame.fwMinor (f : IdFrame) : Nat := bitsAt f.w4 55 48
def IdFrame.fwPatch (f : IdFrame) : Nat := bitsAt f.w4 47 32
def IdFrame.group (f : IdFrame) : Nat := bitsAt f.w5 63 55
def IdFrame.member (f : IdFrame) : Nat := bitsAt f.w5 54 50

/-- CRC-32C over W0-W6 and W7 63:32, the words as they are stored. -/
def IdFrame.crcOf (f : IdFrame) : BitVec 32 :=
  Machine.crc32c ([f.w0, f.w1, f.w2, f.w3, f.w4, f.w5, f.w6].flatMap Machine.wordLe ++ (Machine.wordLe f.w7).drop 4)

def IdFrame.crcOk (f : IdFrame) : Bool := f.w7.setWidth 32 == f.crcOf

/-- The 64 bytes of a frame, little-endian. -/
def IdFrame.bytes (f : IdFrame) : List Byte :=
  [f.w0, f.w1, f.w2, f.w3, f.w4, f.w5, f.w6, f.w7].flatMap Machine.wordLe

/-- The frame with its CRC. -/
def IdFrame.sealed (f : IdFrame) : IdFrame := { f with w7 := f.w7 ||| f.crcOf.setWidth 64 }

end Sys2Proof
end

