-- ==== Sys2Proof/Machine/Flits.lean ====
section
/-! DEFINITION. The words of a packet header and the flits of a packet (09 R400-R402, R407-R409; Tables 9.1, 9.3, 9.4). -/
namespace Sys2Proof.Machine

/-! ## Codes -/

/-- CLASS of Table 9.3. -/
def TClass.code : TClass → BitVec 2
  | .service => 0
  | .adaptive => 1
  | .scheduled => 2
  | .signal => 3

/-- KIND codes of Table 9.4. -/
def PKind.code : PKind → BitVec 6
  | .write => 0x01
  | .readReq => 0x02
  | .readResp => 0x03
  | .message => 0x04
  | .tinc => 0x05
  | .tallyWrite => 0x06
  | .ack => 0x07
  | .nak => 0x08
  | .barrierArrive => 0x09
  | .barrierRelease => 0x0A
  | .abort => 0x0B
  | .beacon => 0x0C
  | .audit => 0x0D
  | .pieceReq => 0x0E
  | .piece => 0x0F
  | .reserved k => BitVec.ofNat 6 k

def kindTable : List PKind :=
  [.write, .readReq, .readResp, .message, .tinc, .tallyWrite, .ack, .nak, .barrierArrive, .barrierRelease, .abort, .beacon, .audit,
   .pieceReq, .piece]

/-- The kind of a code; a code of no row of Table 9.4 is reserved. -/
def kindOf (c : BitVec 6) : PKind :=
  (kindTable.find? (fun k => PKind.code k == c)).getD (.reserved c.toNat)

/-- Kinds with data flits (Table 9.4). -/
def PKind.hasData : PKind → Bool
  | .write => true
  | .readResp => true
  | .message => true
  | .piece => true
  | _ => false

def dieCode (b : Bool) : Die := if b then .east else .west

/-! ## The header (R407) -/

/-- LEN_M1: payload bytes minus 1; 0 without data flits. -/
def Packet.lenM1 (p : Packet) : BitVec 13 := BitVec.ofNat 13 (p.data.length - 1)

/-- Words W0-W7 of the header. -/
def Packet.header (p : Packet) : List Word :=
  [ p.dstChip ++ p.dstOff,
    p.srcChip ++ p.srcCore ++ TClass.code p.cls ++ p.vl ++ PKind.code p.kind ++ Packet.lenM1 p ++ p.hops ++ BitVec.ofBool p.nonmin ++
      BitVec.ofBool p.ackNow ++ BitVec.ofBool p.last ++ BitVec.ofBool p.offSched ++ BitVec.ofNat 1 p.srcDie.code ++ (0 : BitVec 5),
    p.flow ++ (0 : BitVec 2) ++ p.epoch ++ (0 : BitVec 8) ++ p.seq,
    p.schedId ++ p.injectTime,
    Packet.arg p 0, Packet.arg p 1, Packet.arg p 2, Packet.arg p 3 ]

/-- The packet that a header flit begins, without its payload. -/
def packetOf (bs : List Byte) : Packet :=
  let w0 := leWord bs 0
  let w1 := leWord bs 1
  let w2 := leWord bs 2
  let w3 := leWord bs 3
  { dstChip := w0.extractLsb' 48 16, dstOff := w0.extractLsb' 0 48, srcChip := w1.extractLsb' 48 16,
    srcCore := w1.extractLsb' 38 10, cls := classOfCode (w1.extractLsb' 36 2), kind := kindOf (w1.extractLsb' 26 6),
    vl := w1.extractLsb' 32 4, hops := w1.extractLsb' 10 3, nonmin := w1.getLsbD 9, ackNow := w1.getLsbD 8,
    last := w1.getLsbD 7, offSched := w1.getLsbD 6, srcDie := dieCode (w1.getLsbD 5), flow := w2.extractLsb' 50 14,
    epoch := w2.extractLsb' 40 8, seq := w2.extractLsb' 0 32, schedId := w3.extractLsb' 48 16,
    injectTime := w3.extractLsb' 0 48, args := (List.range 4).map (fun i => leWord bs (4 + i)), data := [], poison := [] }

/-- Payload bytes that a header announces: LEN_M1 + 1 for a kind with data flits. -/
def lengthOf (bs : List Byte) : Nat :=
  let w1 := leWord bs 1
  if PKind.hasData (kindOf (w1.extractLsb' 26 6)) then (w1.extractLsb' 13 13).toNat + 1 else 0

/-! ## Flit tags (Table 9.1) -/

def Flit.ftype (f : Flit) : BitVec 2 := f.tag.extractLsb' 46 2
def Flit.vl (f : Flit) : Nat := (f.tag.extractLsb' 42 4).toNat
def Flit.poison (f : Flit) : BitVec 8 := f.tag.extractLsb' 34 8
def Flit.isEnd (f : Flit) : Bool := f.tag.getLsbD 33
def Flit.stomp (f : Flit) : Bool := f.tag.getLsbD 32
def Flit.pcrc (f : Flit) : BitVec 32 := f.tag.setWidth 32

def Flit.header (f : Flit) : Bool := Flit.ftype f == 1
def Flit.isData (f : Flit) : Bool := Flit.ftype f == 2

/-- RS(544,514) corrects up to 15 symbol errors a codeword; a flit that touches a codeword it cannot correct is bad (R401). -/
def fecLimit : Nat := 15

def Flit.lost (f : Flit) : Nat := (f.errors.filter (fun e => decide (fecLimit < e))).length
def Flit.mended (f : Flit) : Nat := (f.errors.filter (fun e => decide (0 < e) && decide (e ≤ fecLimit))).length
def Flit.bad (f : Flit) : Bool := f.badBefore || decide (0 < Flit.lost f)

/-- A flit and its POISON field join the packet's CRC-32C, in that order (DESIGN CHOICE, log 109). -/
def crcFlit (c : BitVec 32) (body : List Byte) (poison : BitVec 8) : BitVec 32 := crcByte (body.foldl crcByte c) poison

/-- A flit with its tag; END carries the CRC. -/
def mkFlit (ftype : BitVec 2) (lane : Nat) (poison : BitVec 8) (isEnd stomp : Bool) (crc : BitVec 32) (body : List Byte) : Flit :=
  { tag := ftype ++ BitVec.ofNat 4 lane ++ poison ++ BitVec.ofBool isEnd ++ BitVec.ofBool stomp ++
      (if isEnd then ~~~crc else (0 : BitVec 32)),
    body := body, errors := [], badBefore := false, resend := false }

/-! ## Sending a packet -/

/-- The bytes of the data flits: one aligned line each, 0 where the payload does not reach (R409). -/
def Packet.lineBytes (p : Packet) : List Byte :=
  padTo' (64 * Packet.lines p) (List.replicate (Packet.off p % 64) 0 ++ p.data)
where
  /-- Fills up with zeros. -/
  padTo' (n : Nat) (bs : List Byte) : List Byte := bs ++ List.replicate (n - bs.length) 0

/-- The poison mark of each word of the data flits. -/
def Packet.lineMarks (p : Packet) : List Bool := List.replicate (Packet.off p % 64 / 8) false ++ p.poison

/-- POISON of a data flit: bit `i` for word `i`. -/
def marksOf (l : List Bool) : BitVec 8 :=
  (List.range 8).foldl (fun (m : BitVec 8) i => if l.getD i false then m ||| (1 <<< i) else m) 0

/-- The flits of a packet on a lane: a header, then its lines; the last has END and PCRC. -/
def Packet.toFlits (p : Packet) (lane : Nat) : List Flit :=
  let head := (Packet.header p).flatMap wordLe
  let n := Packet.lines p
  let bytes := Packet.lineBytes p
  let marks := Packet.lineMarks p
  let c0 := crcFlit crcStart head 0
  let first := mkFlit 1 lane 0 (decide (n = 0)) false c0 head
  let step (st : List Flit × BitVec 32) (i : Nat) : List Flit × BitVec 32 :=
    let body := (bytes.drop (64 * i)).take 64
    let m := marksOf (marks.drop (8 * i))
    let c := crcFlit st.2 body m
    (st.1 ++ [mkFlit 2 lane m (decide (i + 1 = n)) false c body], c)
  ((List.range n).foldl step ([first], c0)).1

/-! ## Taking a packet together -/

/-- A header flit begins a packet. -/
def AsmPkt.begin (f : Flit) (start : Nat) : AsmPkt :=
  { hdr := packetOf f.body, len := lengthOf f.body, start := start, flits := 1, body := [], marks := [],
    crc := crcFlit crcStart f.body (Flit.poison f), early := false }

/-- A data flit joins it. -/
def AsmPkt.add (a : AsmPkt) (f : Flit) : AsmPkt :=
  { a with flits := a.flits + 1, body := a.body ++ f.body,
           marks := a.marks ++ (List.range 8).map (fun i => (Flit.poison f).getLsbD i), crc := crcFlit a.crc f.body (Flit.poison f) }

/-- The packet with the payload that its data flits brought. -/
def AsmPkt.whole (a : AsmPkt) : Packet :=
  let o := Packet.off a.hdr
  { a.hdr with data := (a.body.drop (o % 64)).take a.len,
               poison := (a.marks.drop (o % 64 / 8)).take ((o % 8 + a.len + 7) / 8) }

/-- The packet as it is passed on before its data have arrived: its length is known, its bytes are not yet (R404). -/
def AsmPkt.ahead (a : AsmPkt) : Packet :=
  { a.hdr with data := List.replicate a.len 0, poison := List.replicate ((Packet.off a.hdr % 8 + a.len + 7) / 8) false }

/-- The packet's CRC-32C is the one that its last flit carries (R402). -/
def AsmPkt.crcOk (a : AsmPkt) (f : Flit) : Bool := ~~~a.crc == Flit.pcrc f

end Sys2Proof.Machine
end

