-- ==== Sys2Proof/Machine/Ports.lean ====
section
/-! DEFINITION. Ports and their states, lanes and rates, degraded fabric, and the parent of fabric time (08 R365-R368, R393, R396; 09
R432-R434; 10 R460, R476, R485). -/
namespace Sys2Proof.Machine

/-! ## Ports (R365, R366) -/

def State.port (s : State) (p : Nat) : Port := Tab.get Port.reset s.fab.ports p

def State.setPort (s : State) (p : Nat) (x : Port) : State :=
  { s with fab := { s.fab with ports := Tab.put Port.reset s.fab.ports p x } }

def State.modPort (s : State) (p : Nat) (f : Port → Port) : State := s.setPort p (f (s.port p))

/-- No port, where a code field may be empty. -/
def noPort : Nat := 0x3F

def allPorts : List Nat := List.range 48

def isLocalPort (p : Nat) : Bool := decide (p < 32)

/-- The I/O die of a port (Table 8.2). -/
def portDie (p : Nat) : Die := if p < 16 ∨ (32 ≤ p ∧ p < 40) then .west else .east

def stDown : Nat := 0
def stTraining : Nat := 1
def stQuarantine : Nat := 2
def stService : Nat := 3
def stUnused : Nat := 4

def State.portUp (s : State) (p : Nat) : Bool := decide ((s.port p).state = stService)

/-- The name that a port bears (R390). -/
def State.logicalOf (s : State) (p : Nat) : Nat :=
  let l := (s.port p).logical
  if l = noPort then p else l

/-- The port that bears a name. -/
def State.physicalOf (s : State) (name : Nat) : Nat := (allPorts.find? (fun p => decide (s.logicalOf p = name))).getD name

/-- The plan's entry for a port, by the name it bears. -/
def State.planEntry (s : State) (p : Nat) : Option PlanEntry :=
  match s.fab.plan with
  | none => none
  | some pl => pl.entries[s.logicalOf p]?

/-- USE of a port; 0 without a plan. -/
def State.portUse (s : State) (p : Nat) : Nat :=
  match s.planEntry p with
  | none => 0
  | some e => e.use

def State.planUses (s : State) (p : Nat) : Bool := decide (s.portUse p ≠ 0)

/-- Window mode is that of campus window and site (09 R445). -/
def State.windowMode (s : State) (p : Nat) : Bool := decide (4 ≤ s.portUse p)

def State.isSite (s : State) (p : Nat) : Bool := decide (s.portUse p = 5)

/-- The flight limit of Table 8.1, in ns. -/
def flightLimit (use : Nat) : Nat :=
  if use = 1 then 5 else if use = 2 then 25 else if use = 3 then 2500 else if use = 4 then 10000 else 490000

/-- The package's own SERIAL as frames and plans carry it. -/
def State.ownSerial (s : State) : List Byte := padTo 16 s.org.record.serial

/-! ## Site ports (10 R460, R485) -/

def State.sitePort (s : State) (p : Nat) : SitePort := Tab.get SitePort.reset s.site.ports p

/-- Writes a site port; EPOCH follows a change of STATE, CAUSE or MODULE_STATE. -/
def State.setSitePort (s : State) (p : Nat) (x : SitePort) : State :=
  let old := s.sitePort p
  let same := decide (old.state = x.state) && decide (old.cause = x.cause) && decide (old.moduleState = x.moduleState)
  let x1 := if same then x else { x with epoch := old.epoch + 1 }
  let s1 := { s with site := { s.site with ports := Tab.put SitePort.reset s.site.ports p x1 } }
  if same then s1 else s1.notify (0x4501 + (p - 44))

def State.modSitePort (s : State) (p : Nat) (f : SitePort → SitePort) : State := s.setSitePort p (f (s.sitePort p))

/-- Why a port that its plan puts in site mode may not run it (R460): a cause of Table 10.3, or none. -/
def State.siteRefusal (s : State) (p : Nat) : Option Nat :=
  let x := s.sitePort p
  if !s.org.record.siteCapable.getLsbD (p - 32) || x.dropped then some 0x04
  else if x.caveBase = 0 ∨ x.storeBase = 0 then some 0x01
  else if x.moduleState = 0 ∨ x.moduleState = 5 then some 0x02
  else if x.moduleState = 4 then some 0x03
  else none

/-- Requests enabling (1), disabling (2) or resetting (3) of a port's module: a write of register 0x100 whose MODULE_CMD, two bits a port
and G12 highest, keeps every other module as it is (R462; 13 Table 13.5). -/
def State.moduleRequest (s : State) (p cmd : Nat) : State :=
  let s1 := s.trayWrite
  { s1 with tray := { s1.tray with moduleCmd := cmd * 4 ^ (47 - p) } }

/-- What a port in site mode that is not trained shows: the refusal of R460 and why, a module at fault, which retrains (R480), a wait for
the module, or training once the line is locked. One that retrains goes on doing so. -/
def State.siteShow (s : State) (p : Nat) : State :=
  if !s.isSite p || (s.port p).trained then s
  else s.modSitePort p (fun q => match s.siteRefusal p with
    | some why => { q with state := if why = 0x03 then 4 else 5, cause := why }
    | none => { q with state := if q.state = 4 then 4 else if q.moduleState = 3 then 2 else 1,
                       cause := if q.state = 5 then 0 else q.cause })

/-- STORES of object 0x4500; each change advances EPOCH and pushes an EVENT (R486). -/
def State.putStores (s : State) (m : BitVec 16) : State :=
  if s.site.stores = m then s
  else { s with site := { s.site with stores := m, epoch := s.site.epoch + 1 } }.notify 0x4500

/-! ## Lanes and rates (R366, R368, 09 R400) -/

/-- The lanes of a port: 4 on a local port, 8 on a global one; in site mode lanes 4-7 are held powered off. -/
def portLanes (p : Nat) (site : Bool) : BitVec 8 := if isLocalPort p || site then 0x0F else 0xFF

/-- Powers the lanes that a port uses. -/
def State.powerLanes (s : State) (p : Nat) : State := s.modPort p (fun x => { x with lanes := portLanes p (s.isSite p) })

/-- Bytes per ns of a port. -/
def State.portRate (s : State) (p : Nat) : Nat := if isLocalPort p || s.isSite p then 100 else 200

/-- Flit time in hundredths of a ns. -/
def State.flitTime (s : State) (p : Nat) : Nat := if isLocalPort p || s.isSite p then 64 else 32

/-! ## Degraded fabric and EPOCH (R393, R396) -/

/-- Chips that the plan's entries of some ports name, each once. -/
def State.peersOf (s : State) (ps : List Nat) : List Nat :=
  ps.foldl (fun l p => match s.planEntry p with
    | none => l
    | some e => if e.use = 0 ∨ l.contains e.peerChip then l else l ++ [e.peerChip]) []

def localPorts : List Nat := List.range 32
def globalPorts : List Nat := (List.range 16).map (fun i => 32 + i)

def State.localPeers (s : State) : Nat := (s.peersOf (localPorts.filter s.portUp)).length
def State.globalUp (s : State) : Nat := (globalPorts.filter s.portUp).length

/-- PORTS_UP. -/
def State.portsUp (s : State) : BitVec 48 :=
  allPorts.foldl (fun (m : BitVec 48) p => if s.portUp p then m ||| (1 <<< p) else m) 0

def State.isDegraded (s : State) : Bool :=
  decide (s.localPeers < Nat.min 24 (s.peersOf localPorts).length) ||
  decide (s.globalUp < Nat.min 8 (globalPorts.filter s.planUses).length) || decide (s.portsUp = 0)

/-- ACTIVE of object 0x4500. -/
def State.siteActive (s : State) : BitVec 16 :=
  [44, 45, 46, 47].foldl (fun (m : BitVec 16) p => if s.isSite p && s.portUp p then m ||| (1 <<< (p - 32)) else m) 0

/-- Brings DEGRADED and ACTIVE up to date. -/
def State.fabricEval (s : State) : State :=
  let s1 := { s with fab := { s.fab with degraded := if s.isDegraded then 1 else 0 } }
  if s1.siteActive = s1.site.active then s1
  else { s1 with site := { s1.site with active := s1.siteActive, epoch := s1.site.epoch + 1 } }.notify 0x4500

/-- Writes a port's state and cause; a change of state advances EPOCH. -/
def State.portState (s : State) (p st cause : Nat) : State :=
  let old := s.port p
  let s1 := s.setPort p { old with state := st, cause := cause }
  let s2 := if old.state = st ∧ old.cause = cause then s1 else s1.notify (0x4101 + p)
  if old.state = st then s2
  else ({ s2 with fab := { s2.fab with epoch := s2.fab.epoch + 1 } }.fabricEval).notify 0x4001

/-! ## The parent of fabric time (09 R432-R434, 10 R476) -/

/-- A neighbour that can be a parent: in service, with valid time, and on a site link with matching asymmetries. -/
def State.parentOk (s : State) (p : Nat) : Bool :=
  let x := s.port p
  decide (x.state = stService) && x.nbValid && decide (x.nbStratum < 0xFF) && !(s.isSite p && decide ((s.sitePort p).cause = 0x06)) &&
    (decide (s.time.role ≠ 2) || decide (s.time.stratum ≠ 0) || x.nbPrimary)

/-- The better of two neighbours: lower stratum, then lower FLIGHT_NS, then lower port code. -/
def State.betterParent (s : State) (a b : Nat) : Bool :=
  let x := s.port a
  let y := s.port b
  decide (x.nbStratum < y.nbStratum) || (decide (x.nbStratum = y.nbStratum) &&
    (decide (x.flightNs < y.flightNs) || (decide (x.flightNs = y.flightNs) && decide (a < b))))

def State.bestParent (s : State) : Option Nat :=
  allPorts.foldl (fun (best : Option Nat) p =>
    if s.parentOk p then (match best with
      | none => some p
      | some b => if s.betterParent p b then some p else some b)
    else best) none

/-- Writes the time state; EPOCH follows a change of STATE or PARENT. -/
def State.setTime (s : State) (t : TimeSt) : State :=
  if t.state = s.time.state ∧ t.parent = s.time.parent then { s with time := t }
  else { s with time := { t with epoch := s.time.epoch + 1 } }.notify 0x4010

/-- Time with a parent: stratum, bound and limit follow it. Time without one gives no allowance to slew (R432). -/
def State.timeUnder (s : State) (p : Nat) : TimeSt :=
  let x := s.port p
  let t := s.time
  let bound := x.nbBound + 3
  let limit := if x.nbSite || s.isSite p then 150 else 20
  let st := if t.state = 0 then 1 else if limit < bound ∧ 2 ≤ t.state then 0 else if t.state = 3 then 2 else t.state
  { t with parent := p, stratum := x.nbStratum + 1, bound := bound, limit := limit, state := st, noParentSince := none,
           slewAt := if t.parent = noPort then s.now else t.slewAt,
           noPrimarySince := if x.nbPrimary then none else t.noPrimarySince.orElse (fun _ => some s.now) }

/-- Time that has lost its parent, or has none. A backup primary at stratum 0 needs none. -/
def State.timeAlone (s : State) : TimeSt :=
  let t := s.time
  if t.role = 2 ∧ t.stratum = 0 then t
  else
    { t with parent := noPort, state := if t.state = 2 then 3 else if t.state = 1 then 0 else t.state,
             noParentSince := t.noParentSince.orElse (fun _ => some s.now),
             noPrimarySince := t.noPrimarySince.orElse (fun _ => some s.now) }

/-- Chooses the parent afresh. The primary follows none. -/
def State.follow (s : State) : State :=
  if s.time.role = 1 then s
  else match s.bestParent with
    | some p => s.setTime (s.timeUnder p)
    | none => s.setTime s.timeAlone

end Sys2Proof.Machine
end

