-- ==== Sys2Proof/Machine/Buffers.lean ====
section
/-! DEFINITION. The receive buffer of a port: lanes and their occupancy, the credits that its flits hold, XOFF, and the flits of a
packet that leaves it (09 R406, R446-R449; 10 R470). A packet's flits stay in the buffer of the port by which it came until it has
left by another port, has been performed here, or is discarded (log 67). -/
namespace Sys2Proof.Machine

def laneCount : Nat := 10

/-! ## The receive store of a site port (10 R470, R471) -/

/-- Flits that the ring of a Cave holds, and lines of a receive store. A flit takes its 64 bytes and 8 bytes for its tag: the lines lie
from the base of the Cave upward, the tags above them (DESIGN CHOICE, log 125: the spec gives the ring no layout). -/
def caveLines : Nat := 1835008
def storeLines : Nat := 1572864

/-- Flits of a port's receive SRAM, 4.5 MiB, and of its transmit stage, 1 MiB. -/
def sramFlits : Nat := 73728
def stageFlits : Nat := 16384

/-- Puts moves on the two edge paths, split equally: the lines at even places of a ring take the East path, those at odd places,
across bridge X, the West path (R471; DESIGN CHOICE, log 112). -/
def State.addMoves (s : State) (ms : List SiteMove) : State :=
  let part (d : Die) (s : State) : State := s.modDie d (fun x =>
    { x with moves := x.moves ++ ms.filter (fun m => decide (m.off / 64 % 2 = (if d == .east then 0 else 1))) })
  part .west (part .east s)

/-- `n` of `occ` flits are drained: those that lay in the store are read, oldest first. -/
def State.drainStore (s : State) (p occ n : Nat) : State :=
  let q := s.sitePort p
  let spilled := occ - sramFlits
  if !s.isSite p || decide (q.storeBase = 0) then s
  else s.addMoves ((List.range (Nat.min n spilled)).map (fun i =>
    SiteMove.mk (q.storeBase + 64 * ((q.storePos + storeLines - spilled + i) % storeLines)) none))

/-! ## Lanes -/

/-- The lane's share of (depth - skid), in hundredths (R446). -/
def laneShare (l : Nat) : Nat := if 8 ≤ l then 4 else if 6 ≤ l then 14 else if 2 ≤ l then 12 else 8

/-- Receive buffer of a port, with its receive store in site mode (Table 9.2, 10 R470). -/
def State.depth (s : State) (p : Nat) : Nat :=
  if isLocalPort p then 131072 else if s.isSite p then 4718592 + 0x6000000 else 4718592

def State.skid (s : State) (p : Nat) : Nat := s.portRate p * (2 * (s.port p).flightNs + 200) + 4160

/-- The threshold of a lane, in hundredths of a byte (R446). -/
def State.xoffLevel (s : State) (p l : Nat) : Nat := laneShare l * (s.depth p - s.skid p)

/-- Flits of a lane in the receive buffer. -/
def Port.occ (x : Port) (l : Nat) : Nat := Tab.get 0 x.rxOcc l

def Port.occTotal (x : Port) : Nat := ((List.range laneCount).map x.occ).foldl (· + ·) 0

/-- The XOFF state of the lanes: set at the threshold, cleared at half of it. Window mode has none. -/
def State.xoffNow (s : State) (p : Nat) (x : Port) : BitVec 10 :=
  if s.windowMode p then 0
  else (List.range laneCount).foldl (fun (m : BitVec 10) l =>
    let occ := 6400 * x.occ l
    let level := s.xoffLevel p l
    let on := if x.xoffSent.getLsbD l then decide (level < 2 * occ) else decide (level ≤ occ)
    if on then m ||| (1 <<< l) else m) 0

def State.setXoff (s : State) (p : Nat) : State :=
  let x := s.port p
  s.setPort p { x with xoffSent := s.xoffNow p x }

/-- Lane credits that flits in the buffer hold: those spent and not yet owed back. `heldLane` counts both. -/
def Port.ownHeld (x : Port) (l : Nat) : Nat := Tab.get 0 x.heldLane l - Tab.get 0 x.owedLane l

/-- Takes a flit of a lane into the buffer; beyond the lane's reserved credits it holds one of the pool's (R448). -/
def Port.takeFlit (x : Port) (l : Nat) : Port :=
  let held := Tab.get 0 x.heldLane l
  { x with rxOcc := Tab.put 0 x.rxOcc l (x.occ l + 1), received := Tab.modify 0 x.received l (· + 1),
           heldLane := if held < 256 then Tab.put 0 x.heldLane l (held + 1) else x.heldLane }

/-- Flits of a lane that will be sent again under the credits already spent for them leave the buffer: nothing is owed for them, and
they were not received (R403, R448, Table 9.12). -/
def Port.untakeFlits (x : Port) (l n : Nat) : Port :=
  let pool := x.occ l - x.ownHeld l
  let left := x.occ l - n
  { x with rxOcc := Tab.put 0 x.rxOcc l left, received := Tab.modify 0 x.received l (· - n),
           heldLane := Tab.put 0 x.heldLane l (Tab.get 0 x.owedLane l + (left - (pool - n))) }

/-- Frees flits of a lane: their credits are owed to the transmitter, those of the lane's reserve first. -/
def Port.freeFlits (x : Port) (l n : Nat) : Port :=
  let own := Nat.min n (x.ownHeld l)
  { x with rxOcc := Tab.put 0 x.rxOcc l (x.occ l - n), drained := Tab.modify 0 x.drained l (· + n),
           owedLane := Tab.modify 0 x.owedLane l (· + own), owedPool := x.owedPool + (n - own) }

/-- The credits owed have been returned. -/
def Port.owesNothing (x : Port) : Port :=
  { x with heldLane := (List.range laneCount).foldl (fun t l =>
             Tab.put 0 t l (Tab.get 0 x.heldLane l - Tab.get 0 x.owedLane l)) x.heldLane,
           owedLane := [], owedPool := 0 }

/-- `n` flits of a lane leave the buffer of a port. -/
def State.freeAt (s : State) (p l n : Nat) : State :=
  let s1 := s.drainStore p (s.port p).occTotal n
  (s1.setPort p ((s1.port p).freeFlits l n)).setXoff p

/-- The flits of a packet leave the buffer of the port by which it came, unless that port's link has begun afresh since. -/
def State.leaveBuffer (s : State) (e : RoutePkt) : State :=
  match e.buf with
  | none => s
  | some (p, gen) => if (s.port p).bufGen = gen then s.freeAt p e.pkt.vl.toNat (Packet.flits e.pkt) else s

/-- A packet in the receive buffer of a port. -/
def State.buffered (s : State) (p : Nat) (globals : Nat) (arriving : Option (Nat × Nat)) (k : Packet) : RoutePkt :=
  { input := p, origin := p, globals := globals, arriving := arriving, buf := some (p, (s.port p).bufGen), pkt := k }

end Sys2Proof.Machine
end

