-- ==== Sys2Proof/Machine/Cut.lean ====
section
/-! DEFINITION. What a port has sent: replay buffers and their share of the pool, the flits of a packet on a link, link sequences, and
packets that are passed on while they are still arriving (09 R400, R403, R404, R406, R407, R410). -/
namespace Sys2Proof.Machine

/-! ## Replay buffers (R406) -/

/-- Bytes that a port's replay needs at its measured flight (09 R406). -/
def replayNeed (flight : Nat) : Nat := (200 * (2 * flight + 500) + 65535) / 65536 * 65536

def replayPool : Nat := 24 * 1048576

/-- The replay allocation of a global port whose need is `need` where the die's needs sum to `total`. -/
def replayShare (need total : Nat) : Nat := if total ≤ replayPool then need else need * replayPool / total / 65536 * 65536

/-- Sum of the needs of a die's trained global ports that are not in site mode. -/
def State.replayTotal (s : State) (d : Die) : Nat :=
  ((globalPorts.filter (fun p => portDie p == d && (s.port p).trained && !s.isSite p)).map
    (fun p => replayNeed (s.port p).flightNs)).foldl (· + ·) 0

/-- The replay bytes of a port: 64 KiB fixed, a share of the pool, or the Cave. -/
def State.replayBytes (s : State) (p : Nat) : Nat :=
  if isLocalPort p then 65536
  else if s.isSite p then 0x8000000
  else replayShare (replayNeed (s.port p).flightNs) (s.replayTotal (portDie p))

/-- The global ports of a die take their allocations afresh when one of them has trained. -/
def State.shareReplay (s : State) (d : Die) : State :=
  (globalPorts.filter (fun p => portDie p == d && (s.port p).trained && !s.isSite p)).foldl (fun (t : State) p =>
    t.modPort p (fun x => { x with replayAlloc := s.replayBytes p })) s

/-- Hundredths of a ns from one flit to the next: the flit time, and on a global port no faster than its replay allocation divided by (2
FLIGHT_NS + 500 ns). -/
def State.flitGap (s : State) (p : Nat) : Nat :=
  let x := s.port p
  if isLocalPort p || s.isSite p || decide (x.replayAlloc = 0) then s.flitTime p
  else Nat.max (s.flitTime p) ((6400 * (2 * x.flightNs + 500) + x.replayAlloc - 1) / x.replayAlloc)

/-! ## Flits on a link -/

/-- The packet as it leaves: the hop is counted, the lane is named (R407, R410). -/
def PortPkt.onLink (e : PortPkt) : Packet := { e.pkt with hops := e.pkt.hops + 1, vl := BitVec.ofNat 4 e.lane }

/-- The flit that ends a bad copy (R404). Its other bytes are 0 (DESIGN CHOICE, log 109). -/
def stompFlit (lane : Nat) (before : List Flit) : Flit :=
  let zeros : List Byte := List.replicate 64 0
  mkFlit 2 lane 0 true true (crcFlit (before.foldl (fun c f => crcFlit c f.body (Flit.poison f)) crcStart) zeros 0) zeros

/-- The flits of a waiting packet. -/
def PortPkt.flits (e : PortPkt) : List Flit :=
  let all := Packet.toFlits e.onLink e.lane
  match e.stomp with
  | none => all
  | some m =>
    let sent := (all.take m).map (fun f => { f with tag := f.tag &&& 0xFFFC00000000 })
    sent ++ [stompFlit e.lane sent]

/-- How many they are. -/
def PortPkt.count (e : PortPkt) : Nat :=
  match e.stomp with
  | none => Packet.flits e.pkt
  | some m => m + 1

/-- Link sequences from `a` to `b`, which wrap at `m`: 2^20, on a site link 2^24 (R403; 10 R464). -/
def seqSpan (m a b : Nat) : Nat := (b + m - a) % m

/-- A sequence `k` further on, or back. -/
def seqAdd (m a k : Nat) : Nat := (a + k) % m
def seqBack (m a k : Nat) : Nat := (a + m - k) % m

/-- The sequences of a sent packet's flits: those between its first and its last that no packet sent between its flits took (R415). -/
def seqsOf (m : Nat) (later : List TxPkt) (t : TxPkt) : List Nat :=
  ((List.range (seqSpan m t.first t.last + 1)).map (seqAdd m t.first)).filter (fun q => !later.any (fun o => o.first == q))

/-- The unacknowledged flits with their sequences. -/
def taggedFlits (m : Nat) : List TxPkt → List (Nat × Flit)
  | [] => []
  | t :: later => (seqsOf m later t).zip t.entry.flits ++ taggedFlits m later

/-- The flits sent from `q` on, in their original order; the first begins a replay (R403). -/
def Port.flitsFrom (x : Port) (q : Nat) : List Flit :=
  let all := taggedFlits x.seqMod x.replay
  let flits := (List.range (seqSpan x.seqMod q x.txSeq)).filterMap (fun i =>
    (all.find? (fun e => e.1 == seqAdd x.seqMod q i)).map (fun e => e.2))
  match flits with
  | [] => []
  | f :: fs => { f with resend := true } :: fs

/-- The port is sending for `n` flits more. -/
def Port.busyFor (x : Port) (now gap n : Nat) : Port := { x with busyUntil := Nat.max x.busyUntil (100 * now) + n * gap }

/-- Flits of the packet being sent that have not left yet. -/
def Port.unsent (x : Port) (now gap : Nat) : Nat := (x.busyUntil - 100 * now) / gap

/-! ## Packets passed on while they arrive (R404) -/

/-- The copy of what arrives on lane `l` of port `n`. -/
def RoutePkt.from (e : RoutePkt) (n l : Nat) : Bool := decide (e.arriving = some (n, l))

/-- The packet has arrived whole: the copy takes its payload. -/
def RoutePkt.filled (e : RoutePkt) (k : Packet) : RoutePkt :=
  { e with arriving := none, pkt := { e.pkt with data := k.data, poison := k.poison } }

def PortPkt.filled (e : PortPkt) (k : Packet) : PortPkt := { e with toRoutePkt := e.toRoutePkt.filled k }

def fillAll (n l : Nat) (k : Packet) (es : List PortPkt) : List PortPkt :=
  mapIf (fun (e : PortPkt) => e.toRoutePkt.from n l) (fun e => e.filled k) es

def Port.fill (x : Port) (n l : Nat) (k : Packet) : Port :=
  { x with out := fillAll n l k x.out, held := fillAll n l k x.held, failHeld := fillAll n l k x.failHeld,
           replay := x.replay.map (fun t => if t.entry.toRoutePkt.from n l then { t with entry := t.entry.filled k } else t) }

/-- The packet was bad after `m` flits: a copy not begun is gone, one that has begun ends after those flits with STOMP. -/
def Port.cutOff (x : Port) (n l m : Nat) : Port :=
  let keep (es : List PortPkt) : List PortPkt := es.filter (fun e => !e.toRoutePkt.from n l)
  match x.replay.find? (fun t => t.entry.toRoutePkt.from n l) with
  | none => { x with out := keep x.out, held := keep x.held, failHeld := keep x.failHeld }
  | some t =>
    let less := Packet.flits t.entry.pkt - (m + 1)
    let e : PortPkt := { t.entry with stomp := some m, arriving := none }
    let back (q : Nat) : Nat := seqBack x.seqMod q less
    { x with txSeq := back x.txSeq,
             replay := mapIf (fun (o : TxPkt) => o.entry.toRoutePkt.from n l) (fun o => { o with last := back o.last, entry := e }) x.replay }

/-- Credits of flits that were not sent after all: the lane's reserve first, up to its 256 flits. -/
def Port.unspend (x : Port) (l n : Nat) : Port :=
  let have' := Tab.get 0 x.creditLane l
  let own := Nat.min n (256 - have')
  { x with spent := Tab.modify 0 x.spent l (· - n), creditLane := Tab.put 0 x.creditLane l (have' + own),
           creditPool := x.creditPool + (n - own) }

/-- Counts flits that left on a lane (18 Table 18.5; Table 9.14). -/
def State.countSent (s : State) (p lane cls n : Nat) : State :=
  (s.modPort p (fun x => { x with flits := Tab.modify 0 x.flits cls (· + n), progress := x.progress + BitVec.ofNat 32 n })).countPort
    p 0x101 (some lane) n

/-- The class of a lane, in the order of Table 9.14: Signal, Scheduled, Adaptive, Service. -/
def laneClass (l : Nat) : Nat := if 8 ≤ l then 0 else if 6 ≤ l then 1 else if 2 ≤ l then 2 else 3

/-- The flits of a packet sent are no longer in a receive buffer. -/
def TxPkt.unbuffered (t : TxPkt) : TxPkt := { t with entry := { t.entry with buf := none } }

/-- Some copy of what arrives on lane `l` of port `n` waits in the package or is being sent. -/
def State.hasCopy (s : State) (n l : Nat) : Bool :=
  let waits (es : List PortPkt) : Bool := es.any (fun e => e.toRoutePkt.from n l)
  (s.fab.west.toRoute ++ s.fab.east.toRoute).any (fun e => e.from n l) ||
    s.fab.ports.any (fun e => waits e.2.out || waits e.2.held || waits e.2.failHeld || e.2.replay.any (fun t => t.entry.toRoutePkt.from n l))

/-- What arrived on lane `l` of port `n` is whole, or bad after `m` flits, and port `q` has a copy of it. A copy being sent ends now. -/
def State.settleAt (s : State) (n l : Nat) (whole : Option Packet) (m q : Nat) : State :=
  let x := s.port q
  let x1 := match whole with
    | some k => x.fill n l k
    | none => x.cutOff n l m
  if x.sending = some (n, l) then
    let last := (x1.replay.zip x.replay).find? (fun e => e.2.entry.toRoutePkt.from n l)
    let x2 := { x1.busyFor s.now (s.flitGap q) 1 with sending := none }
    match last with
    | some e =>
      let lane := e.1.entry.lane
      let x3 := { x2 with txOut := e.1.entry.flits, replay := mapIf (fun (t : TxPkt) => decide (t = e.1)) TxPkt.unbuffered x2.replay }
      let s1 := (s.setPort q (if s.windowMode q then x3.unspend lane (Packet.flits e.1.entry.pkt - e.1.entry.count) else x3)).countSent q
        lane (laneClass lane) e.1.entry.count
      if whole.isSome then s1.leaveBuffer e.1.entry.toRoutePkt else s1
    | none => s.setPort q x2
  else s.setPort q x1

/-- Settles every copy of a packet that was passed on before it was whole. -/
def State.settle (s : State) (n l : Nat) (whole : Option Packet) (m : Nat) : State :=
  let die (x : DieSt) : DieSt := { x with toRoute := match whole with
    | some k => mapIf (fun (e : RoutePkt) => e.from n l) (fun e => e.filled k) x.toRoute
    | none => x.toRoute.filter (fun e => !e.from n l) }
  allPorts.foldl (fun t q => t.settleAt n l whole m q) ((s.modDie .west die).modDie .east die)

/-- A port stops receiving: what it has passed on in part is bad. -/
def State.dropArriving (s : State) (p : Nat) : State :=
  (List.range 10).foldl (fun (t : State) l => match Tab.get none (s.port p).asm l with
    | some a => if a.early then t.settle p l none a.flits else t
    | none => t) s

end Sys2Proof.Machine
end

