-- ==== Sys2Proof/Machine/Topology.lean ====
section
/-! DEFINITION. Fabric topology: entering and leaving service, identity frames, discovery, the cabling plan, accepted swaps and the
route table (08), with what differs on site ports (10 R460, R465, R480, R483). -/
namespace Sys2Proof.Machine

/-! ## Entering and leaving service (R391, R392; 09 R405, R406, R448) -/

/-- Flits of the receive buffer that window mode offers as pool: 4.5 MiB and on a site port its 96 MiB store, less 16 KiB
for each lane (Table 9.2, R470). -/
def poolCredits (site : Bool) : Nat := (4718592 - 163840 + (if site then 0x6000000 else 0)) / 64

/-- The link layer as it begins. -/
def Port.linkReset (x : Port) : Port :=
  { x with txSeq := 0, rxSeq := 0, ackSent := none, nakSent := none, nakTold := false, redo := 0, bufGen := x.bufGen + 1, stopAll := false, resends := 0, resendSeq := none,
           replay := [], busyUntil := 0, signalUntil := 0, sending := none, txOut := [], asm := [], rxOcc := [], xoffSent := 0, xoffRecv := 0, creditLane := [], creditPool := 0, heldLane := [],
           owedLane := [], owedPool := 0, spent := [], returned := 0, received := [], drained := [], peerReceived := [],
           peerDrained := [], creditSent := none, creditChecked := none, creditWait := 0, beaconTimes := [], beaconRecv := 0, ctlOut := none, out := [], held := [], pausedFrom := [] }

/-- The credits that window mode grants a transmitter at the start. -/
def Port.withCredits (x : Port) (window site : Bool) : Port :=
  if window then
    { x with creditLane := (List.range 10).map (fun l => (l, 256)), creditPool := poolCredits site }
  else x

/-- A port enters service with the neighbour of a frame. -/
def State.enterService (s : State) (p cause : Nat) (f : IdFrame) : State :=
  let x := ((s.port p).linkReset).withCredits (s.windowMode p) (s.isSite p)
  let s1 := s.setPort p
    { x with service := some (f.serial, f.port, f.protoMajor), replayAlloc := s.replayBytes p, lastFrame := s.now,
             seqMod := if s.isSite p then 0x1000000 else 0x100000,
             beaconSent := none, nbValid := false, nbStratum := 0xFF }
  let s2 := (s1.shareReplay (portDie p)).portState p stService cause
  if s2.isSite p then s2.modSitePort p (fun q => { q with state := 3, cause := if q.cause = 6 then 6 else 0 }) else s2

/-- The packets that a port holds, in the order in which failover sends them (09 R455). -/
def Port.holding (x : Port) : List PortPkt :=
  (x.replay.map (fun t => t.entry)).filter (fun e => e.stomp.isNone) ++ x.out ++ x.held

/-- A port leaves service: its packets are held for failover, its link state ends, its training limit is counted from now
(R388, R391). `trained` tells whether its link still carries frames. -/
def State.portLeaves (s : State) (p st cause : Nat) (trained : Bool) : State :=
  if (s.port p).state ≠ stService then s
  else
    let s0 := s.dropArriving p
    let x := s0.port p
    let s1 := s0.setPort p
      { x.linkReset with
        failHeld := x.failHeld ++ x.holding, service := none, limitFrom := some s.now, trained := trained,
        lastTry := s.now, nbValid := false, nbStratum := 0xFF, pair := noPort }
    let s2 := (s1.portState p st cause).follow
    if s2.isSite p then
      s2.modSitePort p (fun q => { q with state := if trained then 2 else 4 }) else s2

/-! ## Discovery (R386-R391) -/

/-- What a port saw last. -/
def Port.saw (x : Port) (f : IdFrame) (now : Nat) : Port :=
  { x with nbSerial := f.serial, nbPort := f.port, nbChip := f.chip, nbPlan := f.planId,
           nbFw := some (f.fwMajor, f.fwMinor, f.fwPatch), frame := some f, lastFrame := now }

def protoMajor : Nat := 1
def protoMinor : Nat := 2

/-- The neighbour that an entry plans is the one of a frame. -/
def PlanEntry.meets (e : PlanEntry) (f : IdFrame) : Bool := decide (f.serial = e.peerSerial) && decide (f.port = e.peerPort)

/-- FLIGHT_NS of the reach check: on a site port the measured time less MODULE_NS (10 R465). -/
def State.flightOf (s : State) (p link : Nat) : Nat := if s.isSite p then link - (s.sitePort p).moduleNs else link

/-- The state and cause of Table 8.8 for a frame; SWAPPED is found afterwards. -/
def State.judge (s : State) (p : Nat) (f : IdFrame) : Nat × Nat :=
  if f.protoMajor ≠ protoMajor then (stQuarantine, 0x01)
  else if f.serial = s.ownSerial then (stQuarantine, 0x02)
  else match s.planEntry p with
    | none => (stQuarantine, 0x03)
    | some e =>
      if e.use = 0 then (stQuarantine, 0x04)
      else if !e.meets f then (stQuarantine, 0x05)
      else if flightLimit e.use + 10 < (s.port p).flightNs then (stQuarantine, 0x07)
      else if f.planId ≠ s.fab.planId ∨ f.planId = 0 then (stQuarantine, 0x08)
      else if f.protoMinor ≠ protoMinor then (stService, 0x09)
      else (stService, 0x00)

/-- A port in MISMATCH, paired or not. -/
def Port.mismatch (x : Port) : Bool := decide (x.state = stQuarantine) && (decide (x.cause = 0x05) || decide (x.cause = 0x06))

/-- Two mismatched ports whose neighbours are each the other's planned one (R389). -/
def State.swapsWith (s : State) (p q : Nat) : Bool :=
  match s.planEntry p, s.planEntry q, (s.port p).frame, (s.port q).frame with
  | some ep, some eq, some fp, some fq =>
    (s.port p).mismatch && (s.port q).mismatch && decide (p ≠ q) && decide (ep.use = eq.use) && ep.meets fq && eq.meets fp
  | _, _, _, _ => false

/-- Names the partner of every swapped port, and takes the name from every other. -/
def State.findPairs (s : State) : State :=
  allPorts.foldl (fun (s : State) p =>
    let x := s.port p
    match allPorts.find? (fun q => s.swapsWith p q) with
    | some q => (s.setPort p { x with pair := q }).portState p stQuarantine 0x06
    | none =>
      let s1 := if x.pair = noPort then s else s.setPort p { x with pair := noPort }
      if x.state = stQuarantine ∧ x.cause = 0x06 then s1.portState p stQuarantine 0x05 else s1) s

/-- Evaluates a port against Table 8.8 by the frame it received. A site port that R460 refuses stays out of service and shows why. -/
def State.evaluate (s : State) (p : Nat) (f : IdFrame) : State :=
  let s0 := s.modPort p (fun x =>
    { x with runMinor := if f.protoMajor = protoMajor then Nat.min f.protoMinor protoMinor else 0 })
  let (st, cause) := s0.judge p f
  if st = stService then
    match (if s0.isSite p then s0.siteRefusal p else none) with
    | some _ => ((s0.modPort p (fun x => { x with trained := false })).portState p stTraining 0).siteShow p
    | none => s0.enterService p cause f
  else s0.portState p st cause

/-- Evaluates a port and names the swapped pairs (R389). -/
def State.evaluatePairs (s : State) (p : Nat) (f : IdFrame) : State := (s.evaluate p f).findPairs

/-! ## A link is lost (09 R405; R388, R817) -/

/-- What a port without a link reports until its limit has passed. -/
def State.linklessState (s : State) (p : Nat) : Nat :=
  if s.fab.plan.isNone then stDown else if s.planUses p then stTraining else stUnused

/-- A trained port that is not in service loses its link; its limit is counted from now (log 110). -/
def State.linkGone (s : State) (p : Nat) : State :=
  let x := s.port p
  if !x.trained then s
  else
    let s1 := s.setPort p { x with trained := false, limitFrom := some s.now, lastTry := s.now }
    (s1.portState p (s1.linklessState p) 0).findPairs

/-- A port loses its link and retrains. -/
def State.linkLost (s : State) (p : Nat) : State :=
  if (s.port p).state = stService then s.portLeaves p stTraining 0 false else s.linkGone p

/-! ## Training and frames (R378-R380, R386) -/

/-- LINK_NS: half the mean of 16 timed round trips of identity frames, in whole ns (10 R465); none before 16 have been timed. -/
def linkMean (trips : List Nat) : Option Nat :=
  if trips.length = 16 then some (trips.foldl (· + ·) 0 / 32) else none

/-- Link training completes: the flight measured and the neighbour's frame decide the port. A site port times 16 round trips (10 R465); one that
R460 refuses carries nothing and shows why. -/
def execLinkTrained (p : BitVec 6) (f : IdFrame) (times : TrainTimes) (s : State) : Out :=
  let n := p.toNat
  let x := s.port n
  if decide (48 ≤ n) || !s.org.transitOn || !s.tray.refFab || x.trained || !f.crcOk || decide (f.frameType ≠ 1) then .next s
  else if s.isSite n then
    match s.siteRefusal n, linkMean times.trips with
    | some _, _ => .next (s.siteShow n)
    | none, none => .next s
    | none, some link =>
      let s1 := s.modSitePort n (fun q => { q with
        state := 2, linkNs := link, moduleNs := q.moduleNext, cause := 0, storePeak := 0, replays := 0, cavePos := 0, storePos := 0 })
      let s2 := s1.setPort n { x.saw f s.now with trained := true, flightNs := s1.flightOf n link }
      .next (s2.evaluatePairs n f)
  else
    let s1 := s.setPort n { x.saw f s.now with trained := true, flightNs := times.flight }
    .next ((if isLocalPort n then s1 else s1.shareReplay (portDie n)).evaluatePairs n f)

/-- A frame shows a neighbour other than the one the port entered service with (R391). -/
def Port.changedBy (x : Port) (f : IdFrame) : Bool :=
  match x.service with
  | none => false
  | some (serial, port, major) => decide (f.serial ≠ serial) || decide (f.port ≠ port) || decide (f.protoMajor ≠ major)

/-- An identity frame is received: one whose CRC fails, or of an unknown type, is discarded and counted (R379); a valid one shows the
neighbour, also while the port trains (R398); one in
quarantine evaluates the port; one in service may show a change. -/
def execIdentityFrame (p : BitVec 6) (f : IdFrame) (s : State) : Out :=
  let n := p.toNat
  let x := s.port n
  if 48 ≤ n then .next s
  else if !f.crcOk || decide (f.frameType ≠ 1) then .next (s.setPort n { x with badFrames := x.badFrames + 1 })
  else if !s.org.transitOn then .next s
  else
    let s1 := (s.setPort n (x.saw f s.now)).notify (0x4101 + n)
    if !x.trained then .next s1
    else if x.state = stService then
      if x.changedBy f then .next (s1.portLeaves n stQuarantine 0x0B true) else .next s1
    else if x.state = stQuarantine then .next (s1.evaluatePairs n f)
    else .next s1

/-- The frame that a port sends (Table 8.4); reserved bits are 0. -/
def State.ownFrame (s : State) (p : Nat) : IdFrame :=
  let v := s.imageVersion 4
  let planned := s.fab.plan.isSome
  let chip : BitVec 16 := if planned then s.fab.chip else 0xFFFF
  let group : BitVec 9 := if planned then s.fab.group.setWidth 9 else 0
  let member : BitVec 5 := if planned then s.fab.member.setWidth 5 else 0
  IdFrame.sealed
    { w0 := (1 : BitVec 8) ++ BitVec.ofNat 8 protoMajor ++ BitVec.ofNat 8 protoMinor ++ BitVec.ofNat 6 (s.logicalOf p) ++ (0 : BitVec 2) ++
        chip ++ BitVec.ofBool planned ++ BitVec.ofBool (decide ((s.port p).state = stQuarantine)) ++
        BitVec.ofBool (decide (s.logicalOf p ≠ p)) ++ BitVec.ofBool (decide (s.fab.degraded = 1)) ++ (0 : BitVec 12),
      w1 := leWord s.ownSerial 0, w2 := leWord s.ownSerial 1, w3 := BitVec.ofNat 64 s.fab.planId,
      w4 := BitVec.ofNat 8 v.1 ++ BitVec.ofNat 8 v.2.1 ++ BitVec.ofNat 16 v.2.2 ++ (0 : BitVec 32),
      w5 := group ++ member ++ (0 : BitVec 50), w6 := 0, w7 := 0 }

/-- The period of a port's identity frames, in ns. -/
def Port.framePeriod (x : Port) : Nat := if x.state = stService then 100000000 else 1000000

/-- A port that trains, also one that is DOWN or UNUSED and tries each second, or that is in quarantine or service, sends frames
(R379, R388, R817). -/
def Port.sendsFrames (x : Port) : Bool :=
  x.trained || x.limitFrom.isSome || decide (x.state = stTraining) || decide (x.state = stService)

def execIdentityFrameSend (p : BitVec 6) (s : State) : Out :=
  let n := p.toNat
  let x := s.port n
  let due := match x.frameSent with | none => true | some t => decide (t + x.framePeriod ≤ s.now)
  if 48 ≤ n then .next s
  else if s.org.transitOn && s.tray.refFab && x.sendsFrames && due then
    .next (s.setPort n { x with frameSent := some s.now, sentFrame := some (s.ownFrame n) })
  else .next s

/-- 350 ms without a valid frame take a port out of service (R380). -/
def execIdentityTimeout (p : BitVec 6) (s : State) : Out :=
  let x := s.port p.toNat
  if x.state = stService ∧ x.lastFrame + 350000000 ≤ s.now then .next (s.linkLost p.toNat) else .next s

/-- A port that is not trained tries again every 1 s (R388, R817). -/
def execTrainingRetry (p : BitVec 6) (s : State) : Out :=
  let n := p.toNat
  let x := s.port n
  if decide (48 ≤ n) || !s.org.transitOn || x.trained || decide (s.now < x.lastTry + 1000000000) then .next s
  else
    let s1 := s.setPort n { x with lastTry := s.now }
    .next (s1.siteShow n)

/-- The time in which a used port must train. -/
def State.trainLimit (s : State) (p : Nat) : Nat := if s.isSite p then 12000000000 else 5000000000

/-- A used port that is still not trained becomes DOWN with MISSING. -/
def execPortMissing (p : BitVec 6) (s : State) : Out :=
  let n := p.toNat
  let x := s.port n
  match x.limitFrom with
  | none => .next s
  | some t =>
    if decide (n < 48) && s.planUses n && !x.trained && decide (x.state = stTraining) && decide (t + s.trainLimit n ≤ s.now) then
      .next (s.portState n stDown 0x0A)
    else .next s

/-! ## The cabling plan (R381-R385) -/

def planBytes : Nat := 4973

def Byte.entry (blob : List Byte) (i : Nat) : PlanEntry :=
  let w := wordOf blob (8 + 4 * i)
  { use := bitsOf w 57 54, peerPort := bitsOf w 53 48, peerChip := bitsOf w 47 32, length := bitsOf w 31 0,
    peerSerial := (blob.drop (8 * (9 + 4 * i))).take 16 }

/-- The plan that a blob spells. -/
def planOf (blob signer : List Byte) : Plan :=
  { blob := blob, id := wordOf blob 2, chip := bitsOf (wordOf blob 0) 31 16, group := bitsOf (wordOf blob 1) 63 55,
    member := bitsOf (wordOf blob 1) 54 50, entries := (List.range 48).map (Byte.entry blob), signer := signer }

/-- Both signatures verify under a certificate (cause 0x01). -/
def planSigned (blob signer : List Byte) : Bool :=
  let digest := Config.sha384 (blob.take 1600)
  !signer.isEmpty && Config.ed25519Ok signer digest ((blob.drop 1600).take 64) &&
    Config.mldsaOk signer digest ((blob.drop 1664).take 3309)

/-- The format is right (cause 0x02): version, count, length and reserved fields. -/
def planFormat (blob : List Byte) : Bool :=
  let w0 := wordOf blob 0
  decide (blob.length = planBytes) && decide (bitsOf w0 63 56 = 1) && decide (bitsOf w0 47 40 = 48) &&
    decide (bitsOf w0 39 32 = 0) && decide (bitsOf w0 15 0 = 0) && decide (bitsOf (wordOf blob 1) 49 0 = 0) &&
    decide (wordOf blob 6 = 0) && decide (wordOf blob 7 = 0) &&
    (List.range 48).all (fun i => decide (wordOf blob (11 + 4 * i) = 0))

/-- An entry's USE fits its port (cause 0x05). -/
def State.useFits (s : State) (i use : Nat) : Bool :=
  if use = 0 then true
  else if use = 1 then decide (i < 3)
  else if use = 2 then decide (3 ≤ i) && decide (i < 32)
  else if use = 3 ∨ use = 4 then decide (32 ≤ i)
  else if use = 5 then decide (44 ≤ i) && s.org.record.siteCapable.getLsbD (i - 32)
  else false

def State.portUseOk (s : State) (blob : List Byte) (i : Nat) (e : PlanEntry) : Bool :=
  decide (bitsOf (wordOf blob (8 + 4 * i)) 63 58 = i) && s.useFits i e.use &&
    (decide (e.use ≠ 0) || (decide (e.peerPort = 0) && decide (e.peerChip = 0) && e.peerSerial.all (fun b => b = 0)))

def PlanEntry.lengthOk (e : PlanEntry) : Bool :=
  if e.use = 3 then decide (e.length ≤ 500)
  else if e.use = 4 then decide (e.length ≤ 2000)
  else if e.use = 5 then decide (10000 ≤ e.length) && decide (e.length ≤ 100000)
  else true

def PlanEntry.peerOk (e : PlanEntry) (chip : Nat) (serial : List Byte) : Bool :=
  decide (e.use = 0) ||
    (decide (e.peerChip ≤ 0x3FFF) && decide (e.peerChip ≠ chip) && decide (e.peerSerial ≠ serial) && decide (e.peerPort < 48))

/-- The cause for which a plan is refused, in the order of Table 8.7; 0 when it passes. With a job loaded and no plan in force, any plan
differs from the plan in force, and is BUSY (DESIGN CHOICE, log 137). -/
def State.planCauseOf (s : State) (blob signer : List Byte) : Nat :=
  let p := planOf blob signer
  if !planSigned blob signer then 0x01
  else if !planFormat blob then 0x02
  else if (blob.drop 32).take 16 ≠ s.ownSerial then 0x03
  else if 0x3FFF < p.chip ∨ 511 < p.group ∨ p.id = 0 then 0x04
  else if !p.entries.zipIdx.all (fun e => s.portUseOk blob e.2 e.1) then 0x05
  else if !p.entries.all PlanEntry.lengthOk then 0x06
  else if !p.entries.all (fun e => e.peerOk p.chip s.ownSerial) then 0x07
  else if s.jobLoaded && (match s.fab.plan with
      | none => true
      | some q => decide (q.chip ≠ p.chip) || decide (q.group ≠ p.group) || decide (q.member ≠ p.member)) then 0x08
  else 0

/-- The entry names the same peer as before: the port of a package that identity frames show (R385, R387; log 108). -/
def PlanEntry.samePeer (a b : PlanEntry) : Bool :=
  decide (a.use ≠ 0) && decide (b.use ≠ 0) && decide (a.peerPort = b.peerPort) && decide (a.peerSerial = b.peerSerial)

/-- A site port as a new plan changes its USE (10 R460, R462, R485): one that leaves site mode asks for its module to be disabled and shows
none of it; one that enters site mode asks for its module, and one that R460 refuses carries nothing. -/
def State.replanSite (s : State) (wasSite : Bool) (p : Nat) : State :=
  if wasSite && !s.isSite p then
    (s.moduleRequest p 2).modSitePort p (fun q => { q with state := 0, cause := 0 })
  else if s.isSite p && !wasSite && s.org.transitOn then
    let s1 := s.moduleRequest p 1
    match s1.siteRefusal p with
    | some _ => (s1.linkLost p).siteShow p
    | none =>
      if (s1.port p).state = stService then s1.modSitePort p (fun q => { q with state := 3, cause := 0 })
      else s1.siteShow p
  else s

/-- A port under a plan new to it, with the entry that it had before: one whose peer is the same stays in service, with credits if its
new entry puts it in window mode; a trained one is evaluated again; one that has no link waits for it as its new entry says
(R385). The time after which such a port is MISSING (R388) counts from the plan's adoption (DESIGN CHOICE, log 138). -/
def State.replanPort (s : State) (old : Option PlanEntry) (p : Nat) : State :=
  let x := s.port p
  let same := match old, s.planEntry p with
    | some ea, some eb => ea.samePeer eb
    | _, _ => false
  let oldUse := match old with
    | some e => e.use
    | none => 0
  if decide (x.state = stService) && same then
    (if s.windowMode p && decide (oldUse < 4) then s.setPort p (x.withCredits true (s.isSite p)) else s).replanSite (decide (oldUse = 5)) p
  else (match x.trained, x.frame with
    | true, some f =>
      let s1 := if x.state = stService then s.portLeaves p stQuarantine 0 true else s
      s1.evaluate p f
    | _, _ =>
      if !s.org.transitOn then s
      else if s.planUses p then
        if x.state = stTraining then s
        else (s.modPort p (fun y => { y with limitFrom := some s.now })).portState p stTraining 0
      else s.portState p stUnused 0).replanSite (decide (oldUse = 5)) p

/-- A plan that has passed becomes the plan in force. No two ports are a pair until a frame shows them so again (R394). -/
def State.adoptPlan (s : State) (blob signer : List Byte) : State :=
  let p := planOf blob signer
  let s1 := { s with fab := { s.fab with
    plan := some p, planBlob := blob, planSigner := signer, planId := p.id, planCause := 0, swaps := [],
    planEpoch := s.fab.planEpoch + 1, chip := BitVec.ofNat 16 p.chip, group := BitVec.ofNat 16 p.group,
    member := BitVec.ofNat 8 p.member,
    ports := Tab.mapVals Port.reset (fun x => { x with logical := noPort, pair := noPort }) s.fab.ports } }
  let s2 := allPorts.foldl (fun t q => (if s.org.transitOn then t.powerLanes q else t).replanPort (s.planEntry q) q) s1
  ((s2.fabricEval.notify 0x4020).notify 0x4001).storeValue 0x4020 1

/-- PLAN of object 0x4020 is written. -/
def State.wPlan (s : State) (blob : List Byte) : WriteOut :=
  let cause := s.planCauseOf blob s.fab.signer
  if cause = 0 then (s.adoptPlan blob s.fab.signer).done
  else { s with fab := { s.fab with planCause := cause } }.deny stInvalid

/-- SIGNER serves the plans written after it; the plan in force stands (R382). -/
def State.wSigner (s : State) (v : List Byte) : WriteOut :=
  ({ s with fab := { s.fab with signer := v } }.storeValue 0x4020 2).done

/-- At a start the stored plan is verified again against PLAN_SIGNER (R384). -/
def State.reloadPlan (s : State) : State :=
  if s.fab.planBlob.isEmpty then s
  else if planSigned s.fab.planBlob s.fab.planSigner then s
  else { s with fab := { s.fab with
    plan := none, planId := 0, planCause := 0x01, chip := 0xFFFF, group := 0, member := 0, swaps := [],
    ports := Tab.mapVals Port.reset (fun x => { x with logical := noPort }) s.fab.ports } }

/-! ## Accepted swaps (R390) -/

/-- Both ports name each other in PAIR, both links run minor 1.1 or higher, and fewer than 16 swaps stand. -/
def State.swapOk (s : State) (a b : Nat) : Bool :=
  decide (a < 48) && decide (b < 48) && decide ((s.port a).pair = b) && decide ((s.port b).pair = a) &&
    decide (1 ≤ (s.port a).runMinor) && decide (1 ≤ (s.port b).runMinor) && decide (s.fab.swaps.length < 16)

/-- ACCEPT_SWAP: port codes in bits 13:8 and 5:0. Each port takes the other's name. -/
def State.wAcceptSwap (s : State) (v : Nat) : WriteOut :=
  let a := bitsOf v 13 8
  let b := bitsOf v 5 0
  if v ≠ 256 * a + b then s.deny stInvalid
  else if s.swapOk a b then
    let la := s.logicalOf a
    let lb := s.logicalOf b
    let s1 := (((s.modPort a (fun x => { x with logical := lb, pair := noPort })).modPort b (fun x =>
      { x with logical := la, pair := noPort })).powerLanes a).powerLanes b
    let s2 := { s1 with fab := { s1.fab with swaps := s1.fab.swaps ++ [(a, b)], planEpoch := s1.fab.planEpoch + 1 } }
    (((s2.notify 0x4020).notify (0x4101 + a)).notify (0x4101 + b)).storeValue 0x4020 6 |>.done
  else s.deny stInvalid

/-! ## The route table (R370-R377) -/

/-- A route entry after reset: not VALID, every port field 0x3F. -/
def routeDefault : Word := 0x0000FFFFFFFFFFC0

def routeValid (e : Word) : Bool := e.getLsbD 63
def routeMin (e : Word) (i : Nat) : Nat := (e.extractLsb' (42 - 6 * i) 6).toNat
def routeNonmin (e : Word) (i : Nat) : Nat := (e.extractLsb' (18 - 6 * i) 6).toNat
def routeBackup (e : Word) : Nat := (e.extractLsb' 6 6).toNat
def routeDet (e : Word) : Nat := (e.extractLsb' 4 2).toNat

/-- The ports of an entry. -/
def routePorts (e : Word) : List Nat :=
  (List.range 4).map (routeMin e) ++ (List.range 2).map (routeNonmin e) ++ [routeBackup e]

/-- The active entry of a chip. -/
def State.route (s : State) (chip : BitVec 16) : Word := Tab.get routeDefault s.fab.routes chip.toNat

/-- The `i`-th entry of a written block. -/
def blockEntry (v : List Byte) (i : Nat) : Word := BitVec.ofNat 64 (wordOf v i)

/-- Block `b` of the shadow bank is written whole; an entry with a reserved bit refuses it (R22). -/
def State.wRouteBlock (s : State) (b : Nat) (v : List Byte) : WriteOut :=
  if v.length ≠ 2048 then s.deny stLength
  else if (List.range 256).any (fun i => blockEntry v i &&& 0x000100000000000F ≠ 0) then s.deny stInvalid
  else { s with fab := { s.fab with
    shadow := (List.range 256).foldl (fun t i => Tab.put routeDefault t (256 * b + i) (blockEntry v i)) s.fab.shadow } }.done

/-- A port that the plan in force marks unused, by its name. -/
def State.unusedName (s : State) (p : Nat) : Bool :=
  match s.fab.plan with
  | none => true
  | some pl => (match pl.entries[p]? with | none => true | some e => decide (e.use = 0))

/-- The cause for which a commit is refused (R376); 0 when it is not. Of several the first in the order of their codes (DESIGN CHOICE,
log 139). -/
def State.commitCause (s : State) : Nat :=
  let es := s.fab.shadow.map (fun e => e.2)
  if s.fab.plan.isNone || decide (s.fab.shadowPlan ≠ s.fab.planId) then 0x01
  else if es.any (fun e => (routePorts e).any (fun p => decide (48 ≤ p) && decide (p ≠ noPort))) then 0x02
  else if es.any (fun e => (routePorts e).any (fun p => decide (p < 48) && s.unusedName p)) then 0x03
  else if es.any (fun e => decide (routeBackup e = noPort) && (List.range 4).any (fun i => decide (routeMin e i ≠ noPort))) then
    0x04
  else 0

/-- COMMIT of object 0x4200. The shadow bank goes on as a copy of the newly active one (R375). -/
def State.wRouteCommit (s : State) (v : Nat) : WriteOut :=
  if v ≠ 1 then s.deny stInvalid
  else
    let cause := s.commitCause
    if cause = 0 then
      let s1 := { s with fab := { s.fab with
        routes := s.fab.shadow, activePlan := s.fab.shadowPlan, routeCause := 0, routeEpoch := s.fab.routeEpoch + 1,
        flashRoutes := some (s.fab.shadow, s.fab.shadowPlan) } }
      ((s1.queueFlash .routes).notify 0x4200).done
    else { s with fab := { s.fab with routeCause := cause } }.refuse cause

/-! ## Site lines (10 R480) -/

/-- A site port retrains from its module's reset, with why. -/
def State.siteRetrain (s : State) (n cause : Nat) : State :=
  (s.modSitePort n (fun q => { q with state := 4, cause := cause, retrains := q.retrains + 1 })).moduleRequest n 3

/-- A site port with a link loses line lock, or its module reports a fault, with a link or without one: it leaves service and retrains. -/
def State.siteLineLost (s : State) (n : Nat) (fault : Bool) : State :=
  if s.isSite n && fault then ((s.linkLost n).modSitePort n (fun q => { q with moduleState := 4 })).siteRetrain n 0x03
  else if s.isSite n && (s.port n).trained then (s.linkLost n).siteRetrain n 0x05
  else s

def execSiteLineLost (p : BitVec 6) (fault : Bool) (s : State) : Out := .next (s.siteLineLost p.toNat fault)

/-- The tray reports a module's state (R460, R462, R480): a site port whose module is no longer there is refused, one whose module
reports a fault or a line that is not locked retrains, and one without a link shows what it waits for. -/
def State.moduleReport (s : State) (n st : Nat) : State :=
  let old := (s.sitePort n).moduleState
  let s1 := s.modSitePort n (fun q => { q with moduleState := st })
  if !s.isSite n || decide (st = old) then s1
  else if st = 4 then s1.siteLineLost n true
  else if (s.port n).trained then
    (if st = 0 ∨ st = 5 then (s1.linkLost n).siteShow n
     else if old = 3 then s1.siteLineLost n false
     else s1)
  else s1.siteShow n

/-- A lane of a port loses lock (09 R405). -/
def execLaneLockLoss (p : BitVec 6) (s : State) : Out := .next (s.linkLost p.toNat)

end Sys2Proof.Machine
end

