-- ==== Sys2Proof/Machine/Hbm.lean ====
section
/-! DEFINITION. HBM: layout and interleave, check code and poison, repair and retirement, refresh, power-up and training
(07 R328-R359), with the Caves and receive stores of the site ports (07 R337, 10 R468, 14 R618). -/
namespace Sys2Proof.Machine

/-! ## Interleave (R330-R334) -/

/-- Channels set in a map, ascending. -/
def channelsOf (h : BitVec 32) : List Nat := (List.range 32).filter (fun c => h.getLsbD c)

/-- The `n` usable stacks with the most healthy channels, ties to the lower stack number, in ascending order. -/
def pickStacks (n : Nat) (usable : List (Nat × Nat)) : List Nat :=
  let better (a b : Nat × Nat) : Bool := decide (b.2 < a.2) || (decide (a.2 = b.2) && decide (a.1 < b.1))
  (usable.filter (fun x => decide ((usable.filter (fun y => better y x)).length < n))).map (fun x => x.1)

/-- The procedure of R330: the picked stacks and m. -/
def chooseSet (usable : List (Nat × Nat)) : Option (List Nat × Nat) :=
  [8, 6, 4, 3, 2].foldl (fun (best : Option (List Nat × Nat)) n =>
    if usable.length < n then best
    else
      let picked := pickStacks n usable
      let m := (usable.filter (fun x => picked.contains x.1)).foldl (fun a x => Nat.min a x.2) 32
      match best with
      | none => some (picked, m)
      | some (p, bm) => if p.length * bm < n * m then some (picked, m) else best) none

/-- The offset of a channel address, where the channel is in use: the inverse of `loc`. -/
def HbmSt.offsetOf (h : HbmSt) (stack ch addr : Nat) : Option Nat :=
  match h.tail.findIdx? (fun t => t.1 = stack && t.2 = ch) with
  | some i => some (i * twoGiB + addr)
  | none =>
    match h.inter.findIdx? (fun e => e.1 = stack) with
    | none => none
    | some k =>
      match h.inter[k]? with
      | none => none
      | some e =>
        match e.2.findIdx? (fun c => c = ch) with
        | none => none
        | some j =>
          let q := addr / 256 * e.2.length + j
          some (h.tail.length * twoGiB + (q * h.inter.length + k) * 256 + addr % 256)

/-! ## Errors (R341-R349) -/

def dayNs : Nat := 24 * 3600 * 1000000000

/-- The row of a channel address (log 13). -/
def rowOf (addr : Nat) : Nat := addr / 1024

/-- A channel is marked for retirement (R349); the mark waits for the appendix. -/
def State.markChannel (s : State) (stack ch cause : Nat) : State :=
  let x := s.stack stack
  if x.retirePending.getLsbD ch then s
  else (s.setStack stack { x with retirePending := x.retirePending ||| (1 <<< ch) }).pendEntry .hbmChannel
    (32 * stack + ch) cause

/-- A row is marked for repair (R348), and its channel for retirement when more than 64 of its rows are. -/
def State.markRow (s : State) (stack ch row cause : Nat) : State :=
  let x := s.stack stack
  if x.marked.contains (ch, row) then s
  else
    let s1 := (s.setStack stack { x with marked := x.marked ++ [(ch, row)] }).pendEntry .hbmRow
      ((32 * stack + ch) * 2097152 + row) cause
    if 64 < (x.marked.filter (fun m => m.1 = ch)).length + 1 then s1.markChannel stack ch 2 else s1

/-- A corrected read of a codeword: counted, and its last time remembered for the 24 h of R348. -/
def State.corrected (s : State) (stack ch addr : Nat) : State :=
  let x := s.stack stack
  let row := rowOf addr
  let log := (x.correctedLog.filter (fun e =>
      decide (s.now < e.2.2.2 + dayNs) && !(e.1 = ch && e.2.1 = row && e.2.2.1 = addr / 32))) ++
    [(ch, row, addr / 32, s.now)]
  let s1 := s.setStack stack
    { x with corrected := x.corrected + 1, correctedLog := log,
             chanCorrected := Tab.put 0 x.chanCorrected ch (satAdd 0xFFFFFFFF (Tab.get 0 x.chanCorrected ch) 1) }
  let s1 := s1.countHbm stack 0x206 (some ch) 1
  if 3 ≤ (log.filter (fun e => e.1 = ch && e.2.1 = row)).length then s1.markRow stack ch row 1 else s1

/-- A read of a codeword that cannot be corrected: counted, a health event, its row marked, and its channel when such
codewords appear in more than 16 distinct rows within 24 h. -/
def State.uncorrected (s : State) (stack ch addr : Nat) : State :=
  let x := s.stack stack
  let row := rowOf addr
  let log := (x.uncLog.filter (fun e => decide (s.now < e.2.2 + dayNs) && !(e.1 = ch && e.2.1 = row))) ++
    [(ch, row, s.now)]
  let s1 := s.setStack stack
    { x with uncorrectable := x.uncorrectable + 1, uncLog := log,
             chanUncorrectable := Tab.put 0 x.chanUncorrectable ch (satAdd 0xFFFFFFFF (Tab.get 0 x.chanUncorrectable ch) 1) }
  let s1 := s1.countHbm stack 0x207 (some ch) 1
  let s2 := (s1.health 2 6 0 (32 * stack + ch) (0x5010 + stack) 0).markRow stack ch row 2
  if 16 < (log.filter (fun e => e.1 = ch)).length then s2.markChannel stack ch 3 else s2

/-- The controller reads the codeword at an offset and finds so many symbols in error, with those that upsets have left in the cells: two
or more cannot be corrected (R340, log 29), and then its bytes are as read. A corrected codeword is written back (R341). -/
def State.readCodeword (s : State) (off err : Nat) : State :=
  match s.hbm.loc off with
  | none => s
  | some (stack, ch, addr) =>
    let w := off / 32
    let wrong := err + Tab.get 0 s.symbolErrs w
    if Tab.get false s.uncorrectable w then s.uncorrected stack ch addr
    else if wrong = 0 then s
    else if wrong = 1 then { s with symbolErrs := Tab.put 0 s.symbolErrs w 0 }.corrected stack ch addr
    else
      let s1 := s.havoc (32 * w) 32
      ({ s1 with uncorrectable := Tab.put false s1.uncorrectable w true }).uncorrected stack ch addr

/-- A stack's scrub moves to the next codeword of its channels in use. -/
def HbmSt.nextScrub (h : HbmSt) (stack : Nat) (healthy : BitVec 32) (p : Nat) : Option Nat × Nat :=
  let chans := channelsOf healthy
  if chans.isEmpty then (none, 0)
  else
    let i := p % (chans.length * (twoGiB / 32))
    match chans[i / (twoGiB / 32)]? with
    | none => (none, 0)
    | some ch => (h.offsetOf stack ch (i % (twoGiB / 32) * 32), i + 1)

/-- The stacks are in self-refresh: COMPUTE is off with TRANSIT in service, and no site port uses its Cave (11 Table 11.2). An access
still finds its data there (09 R458). -/
def State.selfRefresh (s : State) : Bool := s.org.transitOn && !s.org.computeOn && decide (s.site.active = 0)

/-- The controller scrubs the next codeword of its pass (R346), finding so many symbols in error. A stack in self-refresh rests. -/
def execHbmScrub (stack : BitVec 3) (err : Nat) (s : State) : Out :=
  let n := stack.toNat
  let x := s.stack n
  if (x.state ≠ 4 ∧ x.state ≠ 5) ∨ s.selfRefresh = true then .next s
  else
    let r := s.hbm.nextScrub n x.healthy x.scrub
    let s1 := s.setStack n { x with scrub := r.2 }
    match r.1 with
    | none => .next s1
    | some off =>
      let ch := (s1.hbm.loc off).map (fun l => l.2.1)
      .next ((s1.countHbm n 0x20A ch 1).readCodeword off err)

/-- Some byte of a range lies on a channel. -/
def HbmSt.rangeOn (h : HbmSt) (base len stack ch : Nat) : Bool :=
  match h.tail.findIdx? (fun t => t.1 = stack && t.2 = ch) with
  | some i => decide (base < (i + 1) * twoGiB) && decide (i * twoGiB < base + len)
  | none => h.inter.any (fun e => decide (e.1 = stack) && e.2.contains ch) && decide (h.tail.length * twoGiB < base + len)

/-- The site ports whose Cave or receive store lies on a channel that fails leave service at once with STORE_LOST, and
stay out of site mode until the next training (10 R483). -/
def State.storeLost (s : State) (stack ch : Nat) : State :=
  [44, 45, 46, 47].foldl (fun (s : State) p =>
    let q := s.sitePort p
    if q.caveBase ≠ 0 && (s.hbm.rangeOn q.caveBase 0x8000000 stack ch || s.hbm.rangeOn q.storeBase 0x6000000 stack ch) then
      (s.linkLost p).modSitePort p (fun x => { x with state := 5, cause := 0x04, dropped := true })
    else s) s

/-- A channel does not answer within 10 us: it fails, and the job takes a contained error (R347). -/
def execChannelTimeout (stack : BitVec 3) (ch : BitVec 5) (s : State) : Out :=
  let n := stack.toNat
  let x := s.stack n
  if !x.healthy.getLsbD ch.toNat || x.failed.getLsbD ch.toNat then .next s
  else
    let s1 := (s.setStack n { x with failed := x.failed ||| (1 <<< ch.toNat) }).markChannel n ch.toNat 1
    .next ((s1.storeLost n ch.toNat).contained { unit := 6, cls := 3, cause := 0x46, index := 32 * n + ch.toNat } 4)

/-! ## Refresh and temperature (R353, R354) -/

/-- The device reading, where a stack is fitted and one was obtained, and that of the package sensor, which stands beside each of the
eight positions (12 Table 12.1), in 1/16 degrees C. -/
def execHbmTempRead (stack : BitVec 3) (dev : Option Int) (pkg : Int) (s : State) : Out :=
  let n := stack.toNat
  let x := { s.stack n with packageTemp := pkg }
  match (if s.org.record.hbmFitted.getLsbD n then dev else none) with
    | none => .next (s.setStack n x)
    | some t =>
      let hot := decide (85 * 16 < t) || (decide (82 * 16 ≤ t) && x.doubled)
      .next (s.setStack n { x with temperature := t, lastValid := s.now, doubled := hot, refresh := if hot then 1 else 0 })

def execHbmTempLost (stack : BitVec 3) (s : State) : Out :=
  let x := s.stack stack.toNat
  if s.org.record.hbmFitted.getLsbD stack.toNat && decide (x.lastValid + 100000000 ≤ s.now) then
    .next (s.setStack stack.toNat { x with refresh := 2 })
  else .next s

/-! ## Power-up and training (R335-R338, R350-R352, R355-R357) -/

/-- HBM is to be powered and trained: start-up step 0x06 or a retraining in recovery is in progress (14 R614; 07 R357). A
stack that a training left off stays off until the next one (R336, R352). -/
def State.hbmRising (s : State) : Bool := (decide (s.start.step = 6) || s.hbm.trainingRecovery) && !s.laidOut

/-- The next fitted stack that is off, 10 ms after the one before. -/
def execHbmStackPower (s : State) : Out :=
  let early := match s.hbm.lastPowered with
    | some t => decide (s.now < t + 10000000)
    | none => false
  if !s.org.transitOn || !s.hbmRising || s.hbm.trainingSince.isSome || early then .next s
  else match s.org.fitted.find? (fun n => !s.org.memoryOn.getLsbD n) with
    | none => .next s
    | some n =>
      let s1 := s.modStack n (fun x => { x with state := 2 })
      .next { s1 with org := { s1.org with memoryOn := s1.org.memoryOn ||| (1 <<< n) },
                      hbm := { s1.hbm with lastPowered := some s.now } }

/-- Training starts on every fitted stack together, 10 ms after the last one was powered. -/
def execHbmTraining (s : State) : Out :=
  let late := match s.hbm.lastPowered with
    | some t => decide (t + 10000000 ≤ s.now)
    | none => false
  if late && s.org.fitted.all (fun n => s.org.memoryOn.getLsbD n) && s.hbm.trainingSince.isNone then
    let s1 := s.org.fitted.foldl (fun s n => s.modStack n (fun x => { x with state := 3 })) s
    .next { s1 with hbm := { s1.hbm with trainingSince := some s.now } }
  else .next s

/-- What training leaves of one stack: retired channels (R351), no marked row (R350, log 60), or a stack that fails (R330, R352). -/
def Stack.trained (x : Stack) (t : StackTraining) : Stack :=
  let out := x.retired ||| x.retirePending ||| x.retireRequest ||| x.failed ||| (if t.pass then t.failedChannels else 0)
  let ok := t.pass && decide (out ≠ BitVec.allOnes 32)
  { x with state := if ok then 5 else 6, retired := out,
           healthy := if ok then ~~~out else 0, failed := 0, retirePending := 0, retireRequest := 0,
           marked := if t.pass then [] else x.marked, scrub := 0 }

/-- A row marked for repair that finds no spare row left marks its channel for retirement (R349). -/
def State.spareless (s : State) (n : Nat) (t : StackTraining) : State :=
  if t.pass then ((s.stack n).marked.drop t.rowsRepaired).foldl (fun s m => s.markChannel n m.1 4) s else s

/-- The site ports that take part: USE 0x5 in the plan in force, and set in SITE_CAPABLE (14 R618). -/
def State.sitePorts (s : State) : List Nat :=
  [44, 45, 46, 47].filter (fun c =>
    s.org.record.siteCapable.getLsbD (c - 32) &&
      (match s.fab.plan with
       | none => false
       | some p => (match p.entries[c]? with | some e => decide (e.use = 5) | none => false)))

/-- The layout of the reserved areas under R337 and 10 R468: Caves downward below the runtime area in ascending port
order, receive stores upward from its base. -/
def caveSize : Nat := 0x8000000
def storeSize : Nat := 0x6000000
def runtimeSize : Nat := 0x40000000

/-- Each site port that takes part receives a Cave and a receive store; every other port has none. -/
def State.giveStores (s : State) : State :=
  let ports := if s.hbm.limit = 0 then [] else s.sitePorts
  let base := s.hbm.limit - runtimeSize
  let caves := ports.zipIdx.map (fun e => (e.1, base - (e.2 + 1) * caveSize))
  let give (s : State) (c : Nat) : State :=
    let p := Tab.get SitePort.reset s.site.ports c
    let p1 := match ports.findIdx? (fun x => decide (x = c)) with
      | some i => { p with dropped := false, caveBase := base - (i + 1) * caveSize, storeBase := base + i * storeSize, storePeak := 0,
                           replays := 0 }
      | none => { p with caveBase := 0, storeBase := 0 }
    { s with site := { s.site with ports := Tab.put SitePort.reset s.site.ports c p1 } }
  let s1 := [44, 45, 46, 47].foldl give s
  { s1 with hbm := { s1.hbm with caves := caves, runtimeBase := base } }.putStores
    (ports.foldl (fun (m : BitVec 16) c => m ||| (1 <<< (c - 32))) 0)

/-- The layout chosen for the stacks as they are (R330-R332, R336). -/
def State.chooseLayout (s : State) : State :=
  let usable := (s.org.fitted.filter (fun n => decide ((s.stack n).state = 5))).map
    (fun n => (n, (channelsOf (s.stack n).healthy).length))
  match chooseSet usable with
  | none =>
    let s1 := usable.foldl (fun s e => s.modStack e.1 (fun x => { x with state := 1, healthy := 0 })) s
    { s1 with hbm := { s1.hbm with set := 0, inter := [], tail := [], limit := 0, runtimeBase := 0, caves := [],
                                   inUse := 0 } }
  | some (picked, m) =>
    let chans (n : Nat) : List Nat := channelsOf (s.stack n).healthy
    let inter := picked.map (fun n => (n, (chans n).take m))
    let tail := usable.flatMap (fun e =>
      ((chans e.1).drop (if picked.contains e.1 then m else 0)).map (fun c => (e.1, c)))
    let s1 := picked.foldl (fun s n => s.modStack n (fun x => { x with state := 4 })) s
    { s1 with hbm := { s1.hbm with
      set := picked.foldl (fun (b : BitVec 8) n => b ||| (1 <<< n)) 0, inter := inter, tail := tail,
      limit := (tail.length + picked.length * m) * twoGiB,
      inUse := usable.foldl (fun (b : BitVec 8) e => b ||| (1 <<< e.1)) 0 } }

/-- Every HBM byte is undefined after a training, but for the reserved areas, which are cleared (R335, R356). -/
def State.clearHbm (s : State) : State :=
  let hbm (a : Nat) : Bool := decide (a < 0x8000000000)
  let low := s.hbm.caves.foldl (fun m e => Nat.min m e.2) s.hbm.runtimeBase
  ({ s with mem := Tab.filterKeys (fun a => !hbm a) s.mem,
            poison := Tab.filterKeys (fun w => !hbm (8 * w)) s.poison,
            uncorrectable := [], symbolErrs := [] }).havoc 0 (if s.hbm.limit = 0 then 0 else low)

/-- Training ends on every fitted stack: retirements apply, the layout is chosen, the reserved areas are cleared. -/
def State.hbmTrained (s : State) (ts : List StackTraining) : State :=
  let fail : StackTraining := { pass := false, failedChannels := 0, rowsRepaired := 0 }
  let s0 := s.org.fitted.foldl (fun s n => s.spareless n (ts.getD n fail)) s
  let s1 := s.org.fitted.foldl (fun s n => s.modStack n (fun x => x.trained (ts.getD n fail))) s0
  let before (n : Nat) : BitVec 32 := (s.stack n).retired
  let s2 := s1.org.fitted.foldl (fun s n =>
    (List.range 32).foldl (fun s c =>
      if (s.stack n).retired.getLsbD c && !(before n).getLsbD c then s.raiseReason 2 else s) s) s1
  let s3 := s2.org.fitted.foldl (fun s n => if (s.stack n).state = 6 then s.raiseReason 3 else s) s2
  let s4 := { s3 with hbm := { s3.hbm with trainingSince := none, lastPowered := none, epoch := s3.hbm.epoch + 1 } }
  let s5 := s4.chooseLayout
  let on := s5.org.fitted.foldl (fun (m : BitVec 8) n =>
    if (s5.stack n).state = 4 ∨ (s5.stack n).state = 5 then m else m &&& ~~~((1 : BitVec 8) <<< n)) s5.org.memoryOn
  let s6 := { s5 with org := { s5.org with memoryOn := on } }
  (s6.giveStores.clearHbm.notify 0x5001).evalTier

end Sys2Proof.Machine
end

