-- ==== Sys2Proof/Machine/Memory.lean ====
section
/-! DEFINITION. Loads, stores, VLD, VST and atomics as the core issues them (02 R82 to R90, R98, R789, R791; 05 R253,
R268, R279 to R282), and the return of their data. What happens at their homes is in Home.lean. -/
namespace Sys2Proof.Machine

/-- Lines that a range touches. -/
def linesOf (off len : Nat) : List Nat :=
  (List.range ((off + len + 63) / 64 - off / 64)).map (fun i => off / 64 + i)

/-- Starts the fills that a miss needs; a fill already in flight serves it, and is speculative no longer (R789). -/
def Core.needFills (k : Core) (lines : List Nat) : Core :=
  lines.foldl (fun (k : Core) n =>
    if k.fills.any (fun f => f.line == n) then
      { k with fills := mapIf (fun (f : Fill) => f.line == n) (fun (f : Fill) => { f with speculative := false }) k.fills }
    else ({ k with fills := k.fills ++ [Fill.mk n false none] }).count 0x033 1 k.pc 0) k

/-- Fills that a miss to these lines would add (Table 2.10: at most 32 misses outstanding). -/
def Core.newFills (k : Core) (lines : List Nat) : Nat :=
  (lines.filter (fun n => !k.fills.any (fun f => f.line == n))).length

def sextBytes (signed : Bool) (bs : List Byte) : Word :=
  let n := 8 * bs.length
  if signed then (BitVec.ofNat n (leValue bs)).signExtend 64 else BitVec.ofNat 64 (leValue bs)

/-- The value an atomic returns: a 4-byte integer atomic sign-extends, AMOFADD zero-extends (R791). -/
def amoResult (op : AmoOp) (bs : List Byte) : Word :=
  match op with
  | .faddS => sextBytes false bs
  | .faddBf => sextBytes false bs
  | _ => sextBytes true bs

/-- Counts what a memory instruction counts when it retires (18 Table 18.3). -/
def Core.countAccess (k : Core) (c : CoreId) (m : MemOp) : Core :=
  let k1 := k.retired m.pc
  let k2 := match m.kind with
    | .load _ _ => k1.count 0x030 1 m.pc m.addr
    | .vload _ => k1.count 0x030 1 m.pc m.addr
    | .store => k1.count 0x031 1 m.pc m.addr
    | .amo _ _ _ _ => k1.count 0x037 1 m.pc m.addr
  let k3 := if m.parts.any (fun p => p.cached) then k2.count 0x032 1 m.pc m.addr else k2
  match spaceOf m.off with
  | .hbm => if m.parts.any (fun p => p.cached) then k3 else k3.count 0x035 1 m.pc m.addr
  | .vat o _ => if o = c then k3 else k3.count 0x036 1 m.pc m.addr
  | _ => k3

/-- The data of a load or atomic reaches its register; poisoned data waits for its trap (R802). -/
def Core.finish (k : Core) (m : MemOp) : Core :=
  let k1 := match m.kind with
    | .load rd sg => k.setG rd (sextBytes sg m.bytes)
    | .vload vd => k.setV vd (bytesVec m.bytes)
    | .store => k
    | .amo op rd _ _ => k.setG rd (amoResult op m.bytes)
  if m.poisoned then { k1 with poison := k1.poison ++ [{ addr := m.addr, reg := m.dest }] } else k1

/-- Performs in the data cache every cached part of an access whose line is present. -/
def Core.performCached (k : Core) (m : MemOp) : Core × MemOp :=
  m.parts.zipIdx.foldl (fun (st : Core × MemOp) pi =>
    let p := pi.1
    if !p.cached || p.performed then st
    else
      let a := m.off + p.rel
      match st.1.line (a / 64) with
      | none => st
      | some l =>
        let done := { st.2 with parts := st.2.parts.set pi.2 { p with performed := true } }
        match m.kind with
        | .store =>
          ((st.1.touch (a / 64)).cacheWrite a (l.write (a % 64) ((m.bytes.drop p.rel).take p.len)) p.len, done)
        | _ =>
          let r := l.read (a % 64) p.len
          ((st.1.touch (a / 64)).cacheRead a p.len, { done with bytes := spliceBytes st.2.bytes p.rel r.1, poisoned := st.2.poisoned || r.2 })) (k, m)

def MemOp.allDone (m : MemOp) : Bool := m.parts.all (fun p => p.performed)

/-- A load that misses a line which CINV.RANGE has dropped may be performed before the drop (05 R268; 02 R117): a free bit of `f` for each
such line says whether it finds the line as it was. The lines that it finds. -/
def Core.early (k : Core) (m : MemOp) (missing : List Nat) (f : Nat) : List (Nat × CLine) :=
  match m.kind with
  | .store => []
  | _ => (missing.zipIdx.filter (fun n => f.testBit n.2)).filterMap (fun n => (Tab.get none k.late n.1).map (fun l => (n.1, l)))

/-- Performs a load before the drop of lines, which then takes place. -/
def Core.performEarly (k : Core) (m : MemOp) (found : List (Nat × CLine)) : Core × MemOp :=
  let r := (found.foldl (fun (k : Core) e => k.setLine e.1 (some e.2)) k).performCached m
  (found.foldl (fun (k : Core) e => k.setLine e.1 none) r.1, r.2)

/-- Issues an access through the data cache (05 R253): what hits is performed at once, what misses waits for its fill. -/
def State.issueCached (s : State) (c : CoreId) (m : MemOp) : Out :=
  let k := s.core c
  let lines := linesOf m.off m.len
  let missing := lines.filter (fun n => (k.line n).isNone)
  if k.conflict m.off m.len then .next (s.stallAt c .loadOrFence)
  else if 32 < k.fills.length + k.newFills missing then .next (s.stallAt c .loadOrFence)
  else
    let drawn := missing.any (fun n => (Tab.get none k.late n).isSome) && decide (m.kind ≠ .store)
    let (f, s) := if drawn then s.drawFree else (0, s)
    let found := k.early m missing f
    let (k1, m1) := k.advance.performEarly m found
    let missing := missing.filter (fun n => !found.any (fun e => decide (e.1 = n)))
    if m1.allDone then
      let hit := { m1 with parts := m1.parts.map (fun p => { p with cached := false }) }
      let counted := (match spaceOf m.off with
        | .hbm => (k1.retired m.pc).count (match m.kind with | .store => 0x031 | _ => 0x030) 1 m.pc m.addr
        | _ => k1.countAccess c hit)
      .next (s.setCore c (counted.finish m1))
    else
      let k2 := { k1 with memops := k1.memops ++ [{ m1 with id := k1.nextId }], nextId := k1.nextId + 1 }
      let k3 := k2.needFills missing
      match m.kind with
      | .store => .next (s.setCore c (k3.countAccess c m1))
      | _ => .next (s.setCore c k3)

/-- Issues an access that is performed at its home. A store to memory retires as it issues, a store to a register when it is
performed (R94), a load or atomic when its data returns. -/
def State.issueHome (s : State) (c : CoreId) (m : MemOp) : Out :=
  let k := s.core c
  let k1 := k.advance
  let k2 := { k1 with memops := k1.memops ++ [{ m with id := k.nextId }], nextId := k.nextId + 1 }
  .next (s.setCore c (if m.unretired then k2 else k2.countAccess c m))

/-- A store that the register spaces refuse to this core (02 R95, R96, R97; 06 R288, R289, R309; 16 R708; 09 R417). -/
def State.storeRefused (s : State) (c : CoreId) (off : Nat) : Bool :=
  let job := decide ((s.core c).mode = .job)
  match spaceOf off with
  | .core o r =>
    if r < 0x1000 then decide (r % 0x400 < 0x008) || (decide (r % 0x400 < 0x010) && o != c)
    else if r < 0x2000 then o != c
    else job
  | .region _ r => job || decide (r < 0x10000)
  | .hbmCtl _ _ => job
  | .ioDie _ _ => job
  | .barrier _ _ => job
  | _ => false

/-- Checks and issues one access. -/
def State.access (s : State) (c : CoreId) (a : Word) (len : Nat) (kind : MemKind) (vec : Bool) (bytes : List Byte) : Out :=
  let k := s.core c
  let atomic := match kind with | .amo _ _ _ _ => true | _ => false
  let wr := match kind with | .store => true | .amo _ _ _ _ => true | _ => false
  match s.checkAccess c a len wr vec atomic with
  | .trap cause => .next (s.trap c cause a k.pc)
  | .ok off cached =>
    if s.inCave off len || (wr && s.storeRefused c off) then .next (s.trap c 0x03 a k.pc)
    else
      let through := cached && !atomic
      let m : MemOp :=
        { id := k.nextId, kind := kind, pc := k.pc, addr := a, off := off, len := len,
          parts := accessParts vec off len through, bytes := bytes, poisoned := false }
      if through then s.issueCached c m else s.issueHome c m

def zeros (n : Nat) : List Byte := List.replicate n 0

def State.opLoad (s : State) (c : CoreId) (rd rs1 : Reg) (imm : BitVec 16) (len : Nat) (signed : Bool) : Out :=
  s.issue c [.g rs1, .g rd] (fun s =>
    s.access c ((s.core c).getG rs1 + sext16 imm) len (.load rd signed) false (zeros len))

def execLb (c : CoreId) (rd rs1 : Reg) (imm : BitVec 16) (s : State) : Out := s.opLoad c rd rs1 imm 1 true
def execLbu (c : CoreId) (rd rs1 : Reg) (imm : BitVec 16) (s : State) : Out := s.opLoad c rd rs1 imm 1 false
def execLh (c : CoreId) (rd rs1 : Reg) (imm : BitVec 16) (s : State) : Out := s.opLoad c rd rs1 imm 2 true
def execLhu (c : CoreId) (rd rs1 : Reg) (imm : BitVec 16) (s : State) : Out := s.opLoad c rd rs1 imm 2 false
def execLw (c : CoreId) (rd rs1 : Reg) (imm : BitVec 16) (s : State) : Out := s.opLoad c rd rs1 imm 4 true
def execLwu (c : CoreId) (rd rs1 : Reg) (imm : BitVec 16) (s : State) : Out := s.opLoad c rd rs1 imm 4 false
def execLd (c : CoreId) (rd rs1 : Reg) (imm : BitVec 16) (s : State) : Out := s.opLoad c rd rs1 imm 8 true

def State.opStore (s : State) (c : CoreId) (rs2 rs1 : Reg) (imm : BitVec 16) (len : Nat) : Out :=
  s.issue c [.g rs1, .g rs2] (fun s =>
    s.access c ((s.core c).getG rs1 + sext16 imm) len .store false (leBytes len ((s.core c).getG rs2).toNat))

def execSb (c : CoreId) (rs2 rs1 : Reg) (imm : BitVec 16) (s : State) : Out := s.opStore c rs2 rs1 imm 1
def execSh (c : CoreId) (rs2 rs1 : Reg) (imm : BitVec 16) (s : State) : Out := s.opStore c rs2 rs1 imm 2
def execSw (c : CoreId) (rs2 rs1 : Reg) (imm : BitVec 16) (s : State) : Out := s.opStore c rs2 rs1 imm 4
def execSd (c : CoreId) (rs2 rs1 : Reg) (imm : BitVec 16) (s : State) : Out := s.opStore c rs2 rs1 imm 8

/-- VLD and VST: VS1 names the general register of the address (R80, R797). -/
def execVld (c : CoreId) (vd rs1 : Reg) (s : State) : Out :=
  s.issue c [.g rs1, .v vd] (fun s => s.access c ((s.core c).getG rs1) 64 (.vload vd) true (zeros 64))
def execVst (c : CoreId) (vd rs1 : Reg) (s : State) : Out :=
  s.issue c [.g rs1, .v vd] (fun s =>
    s.access c ((s.core c).getG rs1) 64 .store true (lineBytes ((s.core c).getV vd)))

/-- An atomic: address in rs1, operand in rs2, AMOCAS compares with rd as it was (R791, 05 R279). -/
def State.opAmo (s : State) (c : CoreId) (op : AmoOp) (len : Nat) (rd rs1 rs2 : Reg) : Out :=
  s.issue c [.g rs1, .g rs2, .g rd] (fun s =>
    let k := s.core c
    s.access c (k.getG rs1) len (.amo op rd (k.getG rs2) (k.getG rd)) false (zeros len))

def amoLen : AmoSize → Nat
  | .w => 4
  | .d => 8

def execAmoadd (c : CoreId) (sz : AmoSize) (rd rs1 rs2 : Reg) (s : State) : Out := s.opAmo c .add (amoLen sz) rd rs1 rs2
def execAmomin (c : CoreId) (sz : AmoSize) (rd rs1 rs2 : Reg) (s : State) : Out := s.opAmo c .min (amoLen sz) rd rs1 rs2
def execAmomax (c : CoreId) (sz : AmoSize) (rd rs1 rs2 : Reg) (s : State) : Out := s.opAmo c .max (amoLen sz) rd rs1 rs2
def execAmominu (c : CoreId) (sz : AmoSize) (rd rs1 rs2 : Reg) (s : State) : Out := s.opAmo c .minu (amoLen sz) rd rs1 rs2
def execAmomaxu (c : CoreId) (sz : AmoSize) (rd rs1 rs2 : Reg) (s : State) : Out := s.opAmo c .maxu (amoLen sz) rd rs1 rs2
def execAmoswap (c : CoreId) (sz : AmoSize) (rd rs1 rs2 : Reg) (s : State) : Out := s.opAmo c .swap (amoLen sz) rd rs1 rs2
def execAmocas (c : CoreId) (sz : AmoSize) (rd rs1 rs2 : Reg) (s : State) : Out := s.opAmo c .cas (amoLen sz) rd rs1 rs2
def execAmofaddS (c : CoreId) (rd rs1 rs2 : Reg) (s : State) : Out := s.opAmo c .faddS 4 rd rs1 rs2
def execAmofaddBf (c : CoreId) (rd rs1 rs2 : Reg) (s : State) : Out := s.opAmo c .faddBf 2 rd rs1 rs2

/-- The data of an outstanding load or atomic returns: every part has been performed, and its register takes it (05
R250). -/
def execMemoryResponse (c : CoreId) (id : Nat) (s : State) : Out :=
  let k := s.core c
  match takeFirst (fun m => m.id == id) k.memops with
  | none => .next s
  | some (m, rest) =>
    let waits := m.parts.any (fun p => s.responseWaits c (m.off + p.rel))
    if m.allDone && decide (m.kind ≠ .store) && !waits then
      .next (s.setCore c ((({ k with memops := rest }).countAccess c m).finish m).wake.settle)
    else .next s

/-- The victim of a full set of four lines. Of the pseudo-least-recently-used order the spec says no more than its name: the
most recently used line stays, and a free value chooses among the other three (02 R98; log 6). -/
def Core.victim (k : Core) (line free : Nat) : Option Nat :=
  let same := (k.cache.filter (fun e => e.1 % 1024 = line % 1024)).map (fun e => e.1)
  let old := same.filter (fun n => Tab.get none k.recent (line % 1024) ≠ some n)
  if same.length < 4 then none else old[free % old.length]?

/-- Makes room for a line: the victim's dirty bytes are written back with no further check (02 R119, 05 R255). -/
def State.evictFor (s : State) (c : CoreId) (line : Nat) : State :=
  let (f, s1) := s.drawFree
  match (s.core c).victim line f with
  | none => s
  | some n =>
    match (s.core c).line n with
    | none => s1
    | some l =>
      let s2 := if l.dirty = 0 then s1 else s1.writeBack n l
      s2.modCore c (fun k =>
        let k1 := k.setLine n none
        if l.dirty = 0 then k1 else (k1.count 0x034 1 k.pc 0).wake)

/-- Every access that waits for lines now present goes on, oldest first. A store that is wholly performed leaves. -/
def Core.landWaiters (k : Core) : Core :=
  let (k1, ms) := k.memops.foldl (fun (st : Core × List MemOp) m =>
    let (k', m') := st.1.performCached m
    (k', st.2 ++ [m'])) (k, [])
  { k1 with memops := ms.filter (fun m => !(m.allDone && decide (m.kind = .store))) }

/-- A fill whose read the home has performed is installed with the bytes that the home held then (02 R789, 05 R266). -/
def execCacheFillLand (c : CoreId) (line : Nat) (s : State) : Out :=
  let k := s.core c
  match takeFirst (fun f => f.line == line) k.fills with
  | none => .next s
  | some (f, rest) =>
    match f.read with
    | none => .next s
    | some (v, p) =>
      if s.responseWaits c (64 * line) then .next s else
      let s1 := (s.setCore c { k with fills := rest }).evictFor c line
      .next (s1.modCore c (fun k =>
        ((({ k with late := Tab.put none k.late line none }).setLine line (some { data := v, dirty := 0, poison := p })).touch line).landWaiters))

end Sys2Proof.Machine
end

