-- ==== Sys2Proof/Machine/Homes.lean ====
section
/-! DEFINITION. Reads and writes as homes perform them for every agent (05 R248-R250, R262): HBM with its failed channels (07
R347) and its counts (16 Table 16.5; 18 Table 18.5), Vats with a region in reset (01 R52). -/
namespace Sys2Proof.Machine

/-- A request from the edge paths (18 Table 18.5). -/
def State.edgeRequest (s : State) (off : Nat) : State :=
  match s.hbm.loc off with
  | none => s
  | some (n, _, _) => s.countHbm n 0x209 none 1

/-! ## Codewords (07 R340-R344) -/

/-- The codewords that a range touches. -/
def codewords (off len : Nat) : List Nat := (List.range ((off + len + 31) / 32 - off / 32)).map (fun i => off / 32 + i)

/-- The controller reads codewords of an access: `e0` symbols are in error in the first of the range, `e1` in any other. -/
def State.readCodes (s : State) (ws : List Nat) (first e0 e1 : Nat) : State :=
  ws.foldl (fun s w => if s.channelFailed (32 * w) then s else s.readCodeword (32 * w) (if w = first then e0 else e1)) s

def State.readLine (s : State) (off len e0 e1 : Nat) : State := s.readCodes (codewords off len) (off / 32) e0 e1

/-- A write reads each codeword that it covers only in part (R344). -/
def State.mergeCodes (s : State) (off len e0 e1 : Nat) : State :=
  s.readCodes ((codewords off len).filter (fun w => !(decide (off ≤ 32 * w) && decide (32 * w + 32 ≤ off + len)))) (off / 32) e0 e1

/-- A byte as its home returns it, with the mark of its word; a failed channel returns poison over a byte that the spec leaves
open (log 6). -/
def State.homeByte (s : State) (a : Nat) : Byte × Bool :=
  if s.channelFailed a then (Config.freeByte a, true) else (Memory.byte s.mem a, s.readsPoisoned (a / 8))

def State.loadHome (s : State) (off len : Nat) : List (Byte × Bool) := (List.range len).map (fun i => s.homeByte (off + i))

/-- The part of each line that a range covers: its start and length. -/
def homeChunks (off len : Nat) : List (Nat × Nat) :=
  (linesOf off len).map (fun n =>
    let lo := Nat.max off (64 * n)
    (lo, Nat.min (off + len) (64 * n + 64) - lo))

/-- Reads of lines, or parts of lines. -/
def State.countLines (s : State) (es : List (Nat × Nat)) : State :=
  es.foldl (fun s e => (s.readLine e.1 e.2 0 0).hbmDone e.1 0x201) s

/-- Lines read for an agent other than a core: the controller checks their codewords, and finds the symbols that upsets have left wrong
(07 R341, R342; log 107). -/
def State.countReads (s : State) (off len : Nat) : State :=
  s.countLines (homeChunks off len)

/-- Writes bytes with their marks, line by line; a failed channel discards them. -/
def State.storeHome (s : State) (off : Nat) (bs : List (Byte × Bool)) : State :=
  (homeChunks off bs.length).foldl (fun s e =>
    if s.channelFailed e.1 then s.hbmDiscard e.1
    else (s.storeMarked e.1 ((bs.drop (e.1 - off)).take e.2)).hbmDone e.1 0x202) s

/-- The core whose Vat an offset lies in. -/
def vatOwner (off : Nat) : Option CoreId :=
  match spaceOf off with
  | .vat o _ => some o
  | _ => none

/-- The core that an offset belongs to, by its Vat or its register window. -/
def windowOwner (off : Nat) : Option CoreId :=
  match spaceOf off with
  | .vat o _ => some o
  | .core o _ => some o
  | _ => none

/-- The region in reset that an offset's core lies in: it takes nothing (01 R52). -/
def State.homeAsleep (s : State) (off : Nat) : Option Nat :=
  match windowOwner off with
  | some o => if (s.region (coreRegion o)).inReset then some (coreRegion o) else none
  | none => none

/-- A write reaches a home: a Vat whose region is in reset takes nothing and reports it (01 R52). -/
def State.homeStore (s : State) (off : Nat) (bs : List (Byte × Bool)) (affected : List CoreId) : State :=
  match vatOwner off with
  | some o =>
    if (s.region (coreRegion o)).inReset then
      s.regionDiscard (coreRegion o) ((bs.length + 63) / 64 + 1) affected
    else if s.coreServes o then s.storeMarked off bs
    else s
  | none => s.storeHome off bs

/-- A write of an agent other than a core: a codeword that it covers only in part is read and merged (07 R344). -/
def State.homeWrite (s : State) (off : Nat) (bs : List (Byte × Bool)) (affected : List CoreId) : State :=
  (match vatOwner off with
   | some _ => s
   | none => s.mergeCodes off bs.length 0 0).homeStore off bs affected

/-! ## One line after another (05 R258, R259)

No access larger than a line is single-copy atomic, and no write of part of a line: a home may perform a line of a packet or of a Ladle
transaction, or some bytes of a masked line, ahead of the rest. -/

/-- A line as it is read. -/
def State.readEarly (s : State) (line : Nat) : List (Byte × Bool) × State :=
  let s1 := s.countLines [(64 * line, 64)]
  (s1.loadHome (64 * line) 64, s1.vatRead (64 * line) 64)

/-- The chunks of a range whose lines have not been read early. -/
def unread (early : Tab (List (Byte × Bool))) (off len : Nat) : List (Nat × Nat) :=
  (homeChunks off len).filter (fun e => (Tab.get [] early (e.1 / 64)).isEmpty)

/-- What a range reads as, where lines of it have been read early. -/
def overlay (early : Tab (List (Byte × Bool))) (off : Nat) (bs : List (Byte × Bool)) : List (Byte × Bool) :=
  if early.isEmpty then bs
  else bs.zipIdx.map (fun b => (Tab.get [] early ((off + b.2) / 64)).getD ((off + b.2) % 64) b.1)

/-- The bytes of a line that a chunk of it covers. -/
def chunkMask (a len : Nat) : BitVec 64 :=
  (List.range 64).foldl (fun (m : BitVec 64) j => if a % 64 ≤ j ∧ j < a % 64 + len then m ||| (1 <<< j) else m) 0

/-- The bytes of a line at `base` that land together, of those in `mask`: a whole line is one; of a masked line each byte is, but for the
bytes of a word of a Vat, or codeword of HBM, that the write covers, which land with their one mark (05 R261; 07 R343; log 131). -/
def landing (base : Nat) (on mask : BitVec 64) : BitVec 64 :=
  if on = BitVec.allOnes 64 then on
  else
    let g := granule base
    (List.range 64).foldl (fun (m : BitVec 64) j =>
      let first := j / g * g
      let covered := (List.range g).all (fun i => on.getLsbD (first + i))
      if on.getLsbD j && mask.getLsbD (if covered then first else j) then m ||| (1 <<< j) else m) 0

/-- Writes the bytes of a line whose mask bit is set, from a list that begins `rel` bytes into the line. -/
def State.landBytes (s : State) (line rel : Nat) (bs : List (Byte × Bool)) (mask : BitVec 64) : State :=
  s.putBytes (64 * line + rel) (bs.zipIdx.map (fun b => { val := b.1.1, on := mask.getLsbD (rel + b.2), poison := b.1.2 }))

/-- The part of a write of `bs` at `off` that lies in a line: where it begins in the line, its bytes, its mask. -/
def linePart (off : Nat) (bs : List (Byte × Bool)) (line : Nat) : Option (Nat × List (Byte × Bool) × BitVec 64) :=
  match (homeChunks off bs.length).find? (fun e => decide (e.1 / 64 = line)) with
  | none => none
  | some e => some (e.1 % 64, (bs.drop (e.1 - off)).take e.2, chunkMask e.1 e.2)

/-- Lands some bytes of a line ahead of the rest; a failed channel takes none. What has landed, and the state. -/
def State.landEarly (s : State) (off : Nat) (bs : List (Byte × Bool)) (line : Nat) (landed mask : BitVec 64) : BitVec 64 × State :=
  match linePart off bs line with
  | none => (landed, s)
  | some (rel, part, on) =>
    let m := landing (64 * line) on mask &&& ~~~landed
    if m = 0 || s.channelFailed (64 * line) then (landed, s)
    else
      let s1 := match vatOwner (64 * line) with
        | some _ => s
        | none => s.mergeCodes (64 * line + rel) part.length 0 0
      (landed ||| m, s1.landBytes line rel part m)

/-- The rest of a write, of which some bytes have landed. -/
def State.homeRest (s : State) (off : Nat) (bs : List (Byte × Bool)) (affected : List CoreId) (landed : Tab (BitVec 64)) : State :=
  let rest (s : State) (e : Nat × Nat) : State :=
    s.landBytes (e.1 / 64) (e.1 % 64) ((bs.drop (e.1 - off)).take e.2) (~~~(Tab.get 0 landed (e.1 / 64)))
  match landed, vatOwner off with
  | [], _ => s.homeWrite off bs affected
  | _, some o =>
    if (s.region (coreRegion o)).inReset then s.regionDiscard (coreRegion o) ((bs.length + 63) / 64 + 1) affected
    else if s.coreServes o then (homeChunks off bs.length).foldl rest s
    else s
  | _, none =>
    (homeChunks off bs.length).foldl (fun s e =>
      if s.channelFailed e.1 then s.hbmDiscard e.1 else (rest s e).hbmDone e.1 0x202) (s.mergeCodes off bs.length 0 0)

end Sys2Proof.Machine
end

