-- ==== Sys2Proof/Machine/Ladle.lean ====
section
/-! DEFINITION. The Ladle: submission, the checks at the head of its queue, the transactions of a descriptor, its list entries,
its errors and its completion (02 R122-R135, R157, R803-R808). -/
namespace Sys2Proof.Machine

/-! ## Descriptor fields (Table 2.9) -/

def LadleDesc.word (d : LadleDesc) (i : Nat) : Word := d.w.getD i 0
def LadleDesc.src (d : LadleDesc) : Word := d.word 0
def LadleDesc.dst (d : LadleDesc) : Word := d.word 1
def LadleDesc.rowBytes (d : LadleDesc) : Nat := fld (d.word 2) 63 44 + 1
def LadleDesc.rows (d : LadleDesc) : Nat := fld (d.word 2) 43 28 + 1
def LadleDesc.planes (d : LadleDesc) : Nat := fld (d.word 2) 27 12 + 1
def LadleDesc.op (d : LadleDesc) : Nat := fld (d.word 2) 11 8
def LadleDesc.cls (d : LadleDesc) : BitVec 2 := (d.word 2).extractLsb' 6 2
def LadleDesc.srcStride1 (d : LadleDesc) : Int := ((d.word 3).extractLsb' 32 32).toInt
def LadleDesc.srcStride2 (d : LadleDesc) : Int := ((d.word 3).extractLsb' 0 32).toInt
def LadleDesc.dstStride1 (d : LadleDesc) : Int := ((d.word 4).extractLsb' 32 32).toInt
def LadleDesc.dstStride2 (d : LadleDesc) : Int := ((d.word 4).extractLsb' 0 32).toInt
def LadleDesc.flow (d : LadleDesc) : Nat := fld (d.word 5) 63 50
def LadleDesc.listLen (d : LadleDesc) : Nat := fld (d.word 5) 47 32
def LadleDesc.ltEn (d : LadleDesc) : Bool := (d.word 6).getLsbD 63
def LadleDesc.ltId (d : LadleDesc) : Nat := fld (d.word 6) 62 57
def LadleDesc.ltAdd (d : LadleDesc) : Nat := fld (d.word 6) 46 32
def LadleDesc.tag (d : LadleDesc) : BitVec 16 := (d.word 7).extractLsb' 48 16
def LadleDesc.isFill (d : LadleDesc) : Bool := d.op = 1
def LadleDesc.isList (d : LadleDesc) : Bool := d.op = 2

/-- A reserved field that is not 0. -/
def LadleDesc.reserved (d : LadleDesc) : Bool :=
  fld (d.word 2) 5 0 ≠ 0 || fld (d.word 5) 49 48 ≠ 0 || fld (d.word 5) 31 0 ≠ 0 || fld (d.word 6) 56 47 ≠ 0 ||
    fld (d.word 7) 47 0 ≠ 0

/-- RT_EN, RT_ID, RT_CORE and RT_ADD of a destination. -/
def LadleEnt.rtEn (e : LadleEnt) : Bool := e.rt.getLsbD 31
def LadleEnt.rtId (e : LadleEnt) : Nat := fld e.rt 30 25
def LadleEnt.rtCore (e : LadleEnt) : CoreId := e.rt.extractLsb' 15 10
def LadleEnt.rtAdd (e : LadleEnt) : Nat := fld e.rt 14 0

/-- The chip of an address on another chip; none on this one. For a Ladle transaction, for which the spec names no cause, a
reserved CHIP, or any CHIP but 0xFFFF before the package has a number, counts as that of another chip (01 R63, R65; DESIGN
CHOICE, log 97). -/
def State.awayChip (s : State) (a : Word) : Option (BitVec 16) :=
  match s.reach a with
  | .here => none
  | _ => some (a.extractLsb' 48 16)

/-- An address moved within its chip's span. -/
def moveAddr (a : Word) (d : Int) : Word := a.extractLsb' 48 16 ++ BitVec.ofInt 48 ((addrOff a : Int) + d)

/-- Where row `r` of the transfer starts, from its base: row j of plane k, planes outermost (R126, R275). -/
def LadleDesc.rowAt (d : LadleDesc) (src : Bool) (r : Nat) : Int :=
  let j : Int := (r % d.rows : Nat)
  let k : Int := (r / d.rows : Nat)
  if src then j * d.srcStride1 + k * d.srcStride2 else j * d.dstStride1 + k * d.dstStride2

/-- The address that leaves the 48-bit span, from the corners of the row and plane ranges (R806). Where several leave it, the record of
cause 0x09 takes the first: the source's corners before the destination's, in the order of rows; an offset outside 48 bits is held modulo
2^48 under the CHIP of its base (DESIGN CHOICE, log 133). -/
def LadleDesc.outOfSpan (d : LadleDesc) (src : Bool) (base : Word) : Option Word :=
  let last := d.rows * d.planes - 1
  let corners := [0, d.rows - 1, last - (d.rows - 1), last]
  let ends := corners.flatMap (fun r =>
    let o := (addrOff base : Int) + d.rowAt src r
    [o, o + (d.rowBytes : Int) - 1])
  match ends.find? (fun o => decide (o < 0) || decide ((2 : Int) ^ 48 ≤ o)) with
  | none => none
  | some o => some (moveAddr base (o - addrOff base))

/-- The flow context that a remote side needs (R128, R418, cause 0x05). -/
def State.flowUsable (s : State) (c : CoreId) (i : Nat) (cls : BitVec 2) (chip : BitVec 16) : Bool :=
  let f := s.flow i
  f.valid && !f.sink && f.owner == c && f.peerChip == chip && f.cls == cls && decide (f.err = 0)

/-! ## Errors (R134, R157, R803) -/

/-- Holds an error record and raises the Ladle-error interrupt. At most 32 are held: the record of a descriptor that stops
while 32 are (one taken earlier) waits until one of them is retired (R803; log 94). -/
def Core.ladleRecord (k : Core) (d : LadleDesc) (cause : Nat) (flowErr : BitVec 8) (addr : Word) : Core :=
  let e := LadleErr.mk d.sub d.tag flowErr (BitVec.ofNat 8 cause) addr
  if k.ladleErrs.length < 32 then k.holdLadleErr e else { k with ladleErrWait := k.ladleErrWait ++ [e] }

/-- Stops a descriptor that has started: nothing more of it is issued, and neither tally is incremented. Packets that it
has sent are still waited for by FENCE.FABRIC. -/
def Core.ladleStop (k : Core) (sub : BitVec 16) (cause : Nat) (flowErr : BitVec 8) (addr : Word) : Core :=
  match takeFirst (fun r => r.desc.sub == sub) k.ladleRun with
  | none => k
  | some (r, rest) =>
    let sent (t : LadleTx) : Bool := match t.path with | .write _ _ => true | .tally _ _ => true | _ => false
    ({ k with ladleRun := rest, ladleTxs := k.ladleTxs.filter (fun t => t.sub != sub || sent t) }).ladleRecord r.desc
      cause flowErr addr

/-! ## Issue (R126-R130, R134, R148) -/

/-- Why the home of this chip refuses a transaction: cause 0x06 by the region attribute table or a Cave, cause 0x07 outside
Vat windows and populated HBM (R88, R290; 05 Table 5.1); none when it is permitted. -/
def State.ladleRefuse (s : State) (c : CoreId) (a : Word) (len : Nat) (wr : Bool) : Option Nat :=
  match s.awayChip a with
  | some _ => if (s.core c).permitsAway wr (addrOff a) len then none else some 0x06
  | none =>
    let off := addrOff a
    if !(s.core c).permits wr off len || s.inCave off len then some 0x06
    else match spaceOf off with
      | .hbm => if s.populated off len then none else some 0x07
      | .vat _ _ => if s.populated off len then none else some 0x07
      | _ => some 0x07

/-- Byte `a mod 8` of a fill pattern (R805). -/
def fillByte (pattern : Word) (a : Nat) : Byte := pattern.extractLsb' (8 * (a % 8)) 8

/-- The bytes of a transaction with their marks. -/
def State.ladleData (s : State) (d : LadleDesc) (src dst : Word) (len : Nat) (early : Tab (List (Byte × Bool))) : List (Byte × Bool) :=
  if d.isFill then (List.range len).map (fun i => (fillByte d.src (addrOff dst + i), false))
  else overlay early (addrOff src) (s.loadHome (addrOff src) len)

/-- Where the next transaction of an entry begins, in its source and in its destination, and its length. -/
def State.ladleSpan (s : State) (r : LadleRun) (e : LadleEnt) : Word × Word × Nat :=
  let d := r.desc
  let src := moveAddr d.src (d.rowAt true r.row + r.off)
  let dst := moveAddr e.dst (d.rowAt false r.row + r.off)
  let srcAway := if d.isFill then none else s.awayChip d.src
  let unit := if (s.awayChip e.dst).isNone && srcAway.isNone then 64 else 4096
  let room := Nat.min (unit - addrOff dst % unit) (if srcAway.isSome then 4096 - addrOff src % 4096 else unit)
  (src, dst, Nat.min (d.rowBytes - r.off) room)

/-- Reading them corrects a Vat's words (16 R678). -/
def State.ladleRead (s : State) (d : LadleDesc) (src : Word) (len : Nat) : State :=
  if d.isFill then s else s.vatRead (addrOff src) len

/-- The marks of the words that a payload touches. -/
def wordMarks (off : Nat) (bs : List (Byte × Bool)) : List Bool :=
  (List.range ((off + bs.length + 7) / 8 - off / 8)).map (fun w =>
    bs.zipIdx.any (fun b => b.1.2 && decide ((off + b.2) / 8 = off / 8 + w)))

/-- Adds a transaction to those outstanding. -/
def Core.addTx (k : Core) (t : LadleTx) : Core :=
  { k with ladleTxs := k.ladleTxs ++ [{ t with id := k.nextId }], nextId := k.nextId + 1, ladleLast := t.dst,
           ladleProgress := k.ladleProgress + 1 }

/-- The entries that wait to be issued, each with the run that it belongs to, in submission order. -/
def Core.ladleOpen (k : Core) : List (LadleRun × LadleEnt) :=
  k.ladleRun.filterMap (fun r =>
    if r.issuedAll then none else (r.ents.find? (fun e => !e.issued)).map (fun e => (r, e)))

def Core.setRun (k : Core) (r : LadleRun) : Core :=
  { k with ladleRun := mapIf (fun (x : LadleRun) => x.desc.sub == r.desc.sub) (fun _ => r) k.ladleRun }

def LadleRun.setEnt (r : LadleRun) (e : LadleEnt) : LadleRun :=
  { r with ents := mapIf (fun (x : LadleEnt) => x.idx == e.idx) (fun _ => e) r.ents }

/-- After a destination's last transaction: every entry issued makes the descriptor wholly issued. -/
def LadleRun.entIssued (r : LadleRun) (e : LadleEnt) (rtDone : Bool) : LadleRun :=
  let r1 := r.setEnt { e with issued := true, rtDone := rtDone }
  { r1 with row := 0, off := 0, issuedAll := !r.desc.isList || decide (r.ents.length = r.desc.listLen) }

/-- Completes what can be completed of a descriptor: a destination increment on this chip once its lines are visible (R807),
and the local tally once every destination is done (R131). -/
def State.ladleSettle (s : State) (c : CoreId) (sub : BitVec 16) : State :=
  match (s.core c).ladleRun.find? (fun r => r.desc.sub == sub) with
  | none => s
  | some r =>
    let open' (s : State) (e : LadleEnt) : Bool :=
      (s.core c).ladleTxs.any (fun t => t.sub == sub && decide (t.entry = e.idx))
    let s1 := r.ents.foldl (fun (s : State) e =>
      if e.issued && !e.rtDone && !open' s e then
        let s' := s.modCore c (fun k => match k.ladleRun.find? (fun r => r.desc.sub == sub) with
          | some r => k.setRun (r.setEnt { e with rtDone := true })
          | none => k)
        if e.rtEn && s'.coreAlive e.rtCore then
          s'.modCore e.rtCore (fun k => k.addTally e.rtId (BitVec.ofNat 32 e.rtAdd)) else s'
      else s) s
    let k := s1.core c
    match k.ladleRun.find? (fun r => r.desc.sub == sub) with
    | none => s1
    | some r =>
      if r.issuedAll && r.ents.all (fun e => e.rtDone) && !k.ladleTxs.any (fun t => t.sub == sub) then
        let k1 := { k with ladleRun := k.ladleRun.filter (fun x => x.desc.sub != sub) }
        s1.setCore c (if r.desc.ltEn then k1.addTally r.desc.ltId (BitVec.ofNat 32 r.desc.ltAdd) else k1)
      else s1

/-- The tally write of a destination on another chip (R132; 09 R429): EXPECT is COUNT after the last data packet. -/
def State.sendTallyWrite (s : State) (c : CoreId) (r : LadleRun) (e : LadleEnt) (chip : BitVec 16) : State :=
  let f := s.flow e.flow
  let w4 := BitVec.ofNat 64 ((e.rtId * 2 ^ 58 + e.rtCore.toNat * 2 ^ 48 + e.rtAdd * 2 ^ 33) % 2 ^ 64 + f.count.toNat)
  let p0 := s.newPacket chip (0x10100001000 + e.rtCore.toNat * 0x10000 + 8 * e.rtId) c (classOfCode r.desc.cls)
    .tallyWrite (flowDie e.flow) [w4]
  let p := { p0 with last := true, ackNow := true }
  let s1 := s.flowSend e.flow p
  let kept := { p with flow := f.peerFlow, epoch := f.epoch, seq := f.seq }
  let s2 := { s1 with fab := { s1.fab with sentTallies := s1.fab.sentTallies ++
    [SentTally.mk e.flow kept s.now none] } }
  s2.modCore c (fun k => k.addTx
    { id := 0, sub := r.desc.sub, entry := e.idx, src := 0, dst := e.dst, len := 0, path := .tally e.flow f.seq,
      acked := false })

/-- Issues the next transaction of an entry; none when it cannot be issued now. -/
def State.ladleIssueFor (s : State) (c : CoreId) (r : LadleRun) (e : LadleEnt) : Option State :=
  let k := s.core c
  let d := r.desc
  let away := s.awayChip e.dst
  if d.rows * d.planes ≤ r.row then
    match away with
    | some chip =>
      if !e.rtEn then some ((s.setCore c (k.setRun (r.entIssued e true))).ladleSettle c d.sub)
      else if (s.flow e.flow).canSend 64 then
        some (((s.sendTallyWrite c r e chip).modCore c (fun k => k.setRun (r.entIssued e true))).ladleSettle c d.sub)
      else none
    | none => some ((s.setCore c (k.setRun (r.entIssued e false))).ladleSettle c d.sub)
  else
    let (src, dst, len) := s.ladleSpan r e
    let srcAway := if d.isFill then none else s.awayChip d.src
    let refused : Option (Nat × Word) :=
      match (if d.isFill then none else s.ladleRefuse c src len false) with
      | some cause => some (cause, src)
      | none => (s.ladleRefuse c dst len true).map (fun cause => (cause, dst))
    match refused with
    | some (cause, a) => some (s.setCore c (k.ladleStop d.sub cause 0 a))
    | none =>
      let done := decide (d.rowBytes ≤ r.off + len)
      let r1 := { r with row := if done then r.row + 1 else r.row, off := if done then 0 else r.off + len, early := [] }
      let final := done && decide (d.rows * d.planes ≤ r.row + 1)
      let tx (path : TxPath) : LadleTx :=
        { id := 0, sub := d.sub, entry := e.idx, src := src, dst := dst, len := len, path := path, acked := false }
      match away, srcAway with
      | some chip, _ =>
        let read := if d.isFill then s else s.countLines (unread r.early (addrOff src) len)
        let bs := read.ladleData d src dst len r.early
        let p0 := s.newPacket chip (addrOff dst) c (classOfCode d.cls) .write (flowDie e.flow) []
        let last := final && !e.rtEn
        let p := { p0 with data := bs.map (fun b => b.1), poison := wordMarks (addrOff dst) bs, last := last,
                           ackNow := last }
        if (s.flow e.flow).canSend (Packet.window p) then
          let seq := (s.flow e.flow).seq
          some (((read.ladleRead d src len).flowSend e.flow p).modCore c (fun k =>
            (((k.setRun r1).addTx (tx (.write e.flow seq))).count 0x061 1 k.pc 0).wake))
        else none
      | none, some chip =>
        if (s.flow e.flow).canSend 64 then
          let seq := (s.flow e.flow).seq
          let p := s.newPacket chip (addrOff src) c (classOfCode d.cls) .readReq (flowDie e.flow)
            [dst, BitVec.ofNat 64 len]
          some ((s.flowSend e.flow { p with last := final, ackNow := final }).modCore c (fun k =>
            (((k.setRun r1).addTx (tx (.read e.flow seq))).count 0x061 1 k.pc 0).wake))
        else none
      | none, none => some (s.modCore c (fun k => (k.setRun r1).addTx (tx .onChip)))

/-- Issues the next transaction: of the oldest descriptor that can issue one (R275: descriptors on different flows may
interleave); while the package is parked none does (11 R531). -/
def State.ladleIssue (s : State) (c : CoreId) : Option State :=
  let k := s.core c
  if k.ladleHeld || k.engineInReset || s.regionParked c || decide (128 ≤ k.ladleTxs.length) then none
  else k.ladleOpen.findSome? (fun x => s.ladleIssueFor c x.1 x.2)

/-- Issues until a limit, a list entry or the end of the descriptor. -/
def State.ladlePumpN (s : State) (c : CoreId) : Nat → State
  | 0 => s
  | n + 1 =>
    match s.ladleIssue c with
    | none => s
    | some s' => s'.ladlePumpN c n

/-- Issues as many transactions as the limit of 128 and the flow allow (R148). -/
def State.ladlePump (s : State) (c : CoreId) : State := s.ladlePumpN c 130

/-! ## Submission (R122, R123) -/

def execLsub (c : CoreId) (rd rs1 : Reg) (s : State) : Out :=
  s.issue c [.g rs1, .g rd] (fun s =>
    let k := s.core c
    let a := k.getG rs1
    if k.storesPending then .next (s.stallAt c .loadOrFence)
    else match s.readDescriptor c a 8 with
    | .error cause => .next (s.trap c cause a k.pc)
    | .ok w =>
      let s := s.vatRead (addrOff a) 64
      if k.abortClosed || k.engineInReset || decide (32 ≤ k.ladleQ.length + k.ladleRun.length) then
        .next (s.stallAt c .ladleFull)
      else
        .next (s.setCore c
          (({ k with ladleQ := k.ladleQ ++ [LadleDesc.mk w k.ladleSub], ladleSub := k.ladleSub + 1 }).setG rd
            (k.ladleSub.setWidth 64)).retire))

/-! ## The head of the queue (R157) -/

/-- The checks of causes 0x01 to 0x05 and 0x09, in that order, with the address that the record of cause 0x09 holds. The
entries of a LIST are judged when they are reached. -/
def State.ladleCheck (s : State) (c : CoreId) (d : LadleDesc) : Option (Nat × Word) :=
  let srcAway := if d.isFill then none else s.awayChip d.src
  let dstAway := if d.isList then none else s.awayChip d.dst
  if 2 < d.op then some (0x01, 0)
  else if d.reserved || (decide (d.cls = 3) && (srcAway.isSome || dstAway.isSome)) then some (0x02, 0)
  else if d.isList && (decide (d.listLen = 0) || decide (4096 < d.listLen) ||
      (s.ownVat c d.dst (16 * d.listLen)).isNone) then some (0x03, 0)
  else if srcAway.isSome && dstAway.isSome then some (0x04, 0)
  else
    let badFlow : Bool := !d.isList && (match dstAway, srcAway with
      | some chip, _ => !s.flowUsable c d.flow d.cls chip
      | none, some chip => !s.flowUsable c d.flow d.cls chip
      | none, none => false)
    if badFlow then some (0x05, 0)
    else match (if d.isFill then none else d.outOfSpan true d.src) with
      | some a => some (0x09, a)
      | none => (if d.isList then none else d.outOfSpan false d.dst).map (fun a => (0x09, a))

/-- The flow that a descriptor uses, when one side of it lies on another chip. -/
def State.descFlow (s : State) (d : LadleDesc) : Option Nat :=
  if (s.awayChip d.dst).isSome || (!d.isFill && (s.awayChip d.src).isSome) then some d.flow else none

/-- A descriptor may start while an earlier one has transactions to issue only where both have flows, and different ones
(05 R275); the entries of a LIST name theirs as they are reached, so that one starts and goes on alone. -/
def State.mayOverlap (s : State) (d : LadleDesc) (r : LadleRun) : Bool :=
  r.issuedAll || (!d.isList && !r.desc.isList && (match s.descFlow d, s.descFlow r.desc with
    | some i, some j => decide (i ≠ j)
    | _, _ => false))

/-- Takes the descriptor at the head of the queue. No descriptor is taken while 32 records are held (R803). -/
def State.ladleTake (s : State) (c : CoreId) (accept : Nat → Bool) : Out :=
  let k := s.core c
  match k.ladleQ with
  | [] => .next s
  | d :: rest =>
    if !s.coreAlive c || s.regionParked c || k.ladleHeld || k.engineInReset || decide (32 ≤ k.ladleErrs.length) ||
        !accept d.op || !k.ladleRun.all (s.mayOverlap d) then .next s
    else
      let k1 := { k with ladleQ := rest }
      match s.ladleCheck c d with
      | some (cause, a) => .next (s.setCore c (k1.ladleRecord d cause 0 a))
      | none =>
        let ents := if d.isList then [] else
          [LadleEnt.mk 0 d.dst (d.word 6) d.flow false false]
        .next ((s.setCore c { k1 with ladleRun := k1.ladleRun ++
          [{ desc := d, ents := ents, row := 0, off := 0, issuedAll := false }] }).ladlePump c)

/-- COPY, and a descriptor whose OP is reserved, which stops under cause 0x01 (log 18). -/
def execLadleCopy (c : CoreId) (s : State) : Out := s.ladleTake c (fun op => op ≠ 1 && op ≠ 2)
def execLadleFill (c : CoreId) (s : State) : Out := s.ladleTake c (fun op => op = 1)
def execLadleList (c : CoreId) (s : State) : Out := s.ladleTake c (fun op => op = 2)

/-- The Ladle reads and judges the next list entry once the earlier entries' transfers have been issued (R804). Both words are
read in this one step, so that an entry changed meanwhile is taken whole, old or new, and never torn (log 96). Beside
causes 0x03 and 0x09, which R157 names here, an entry is judged under causes 0x02, 0x04 and 0x05, whose words speak of
entries and which cannot be judged before it is read, 0x03 before all others (DESIGN CHOICE, log 96). -/
def execLadleListEntry (c : CoreId) (s : State) : Out :=
  let k := s.core c
  match k.ladleRun.find? (fun r => !r.issuedAll) with
  | none => .next s
  | some r =>
    if !s.coreAlive c || s.regionParked c || k.ladleHeld || k.engineInReset || !r.desc.isList ||
        !r.ents.all (fun e => e.issued) then .next s
    else
      let d := r.desc
      let at' := addrOff d.dst + 16 * r.ents.length
      let base := s.loadWord at'
      let w := s.loadWord (at' + 8)
      let s := s.vatRead at' 16
      let flow := fld w 63 50
      let away := s.awayChip base
      let srcAway := s.awayChip d.src
      let stop (cause : Nat) (a : Word) : Out := .next (s.setCore c (k.ladleStop d.sub cause 0 a))
      let badFlow : Bool := match away, srcAway with
        | some chip, _ => !s.flowUsable c flow d.cls chip
        | none, some chip => !s.flowUsable c flow d.cls chip
        | none, none => false
      if s.rangePoisoned at' 16 || decide (fld w 49 32 ≠ 0) then stop 0x03 0
      else if d.cls = 3 ∧ away.isSome then stop 0x02 0
      else if away.isSome && srcAway.isSome then stop 0x04 0
      else if badFlow then stop 0x05 0
      else match d.outOfSpan false base with
        | some a => stop 0x09 a
        | none =>
          let e : LadleEnt := { idx := r.ents.length, dst := base, rt := w, flow := flow, issued := false, rtDone := false }
          .next ((s.setCore c (k.setRun { r with ents := r.ents ++ [e], row := 0, off := 0, early := [] })).ladlePump c)

/-! ## Completion (R131, R807) -/

/-- A line of an on-chip descriptor waits at a region in reset on its way: the request, the data, or the write (01 R51). -/
def State.ladleWaits (s : State) (c : CoreId) (d : LadleDesc) (t : LadleTx) : Bool :=
  (!d.isFill && (s.requestWaits c (addrOff t.src) || s.responseWaits c (addrOff t.src))) || s.requestWaits c (addrOff t.dst)

/-- A transaction on this chip is performed, or one to another chip has been acknowledged; then the descriptor completes if
it was the last, and the Ladle issues more. -/
def execLadleTransactionDone (c : CoreId) (id : Nat) (s : State) : Out :=
  let k := s.core c
  match takeFirst (fun t => decide (t.id = id)) k.ladleTxs with
  | none => .next s
  | some (t, rest) =>
    if !s.coreAlive c || k.engineInReset then .next s
    else
      let gone := s.setCore c { k with ladleTxs := rest, ladleProgress := k.ladleProgress + 1 }
      match t.path with
      | .onChip =>
        match k.ladleRun.find? (fun r => r.desc.sub == t.sub) with
        | none => .next gone
        | some r =>
          if s.ladleWaits c r.desc t then .next s else
          let read := if r.desc.isFill then gone else gone.countLines (unread t.early (addrOff t.src) t.len)
          let s1 := ((read.ladleRead r.desc t.src t.len).homeRest (addrOff t.dst) (read.ladleData r.desc t.src t.dst t.len t.early) [c]
              (if t.landed = 0 then [] else [(addrOff t.dst / 64, t.landed)])).modCore c
            (fun k => (k.count 0x060 1 k.pc 0).wake)
          .next ((s1.ladleSettle c t.sub).ladlePump c)
      | _ => if t.acked then .next ((gone.ladleSettle c t.sub).ladlePump c) else .next s

/-! ## Lines ahead of the rest (05 R258, R259) -/

/-- A line of a range of this chip has not been read early. -/
def mayRead (early : Tab (List (Byte × Bool))) (off len line : Nat) : Bool :=
  (unread early off len).any (fun e => decide (e.1 / 64 = line))

def Core.modTx (k : Core) (id : Nat) (f : LadleTx → LadleTx) : Core :=
  { k with ladleTxs := mapIf (fun (x : LadleTx) => decide (x.id = id)) f k.ladleTxs }

/-- The Ladle of a core moves data. -/
def State.ladleMoves (s : State) (c : CoreId) : Bool := s.coreAlive c && !(s.core c).engineInReset

/-- A transaction of this chip reads a line of its source. -/
def State.ladleReadLine (s : State) (c : CoreId) (id line : Nat) : State :=
  let k := s.core c
  match k.ladleTxs.find? (fun t => decide (t.id = id)) with
  | none => s
  | some t =>
    match k.ladleRun.find? (fun r => r.desc.sub == t.sub) with
    | none => s
    | some r =>
      if !s.ladleMoves c || decide (t.path ≠ .onChip) || r.desc.isFill || !mayRead t.early (addrOff t.src) t.len line ||
          s.requestWaits c (64 * line) || s.responseWaits c (64 * line) then s
      else
        let (bs, s1) := s.readEarly line
        s1.modCore c (fun k => k.modTx id (fun x => { x with early := Tab.put [] x.early line bs }))

/-- The next remote write of a descriptor reads a line of its source. -/
def State.ladleAheadLine (s : State) (c : CoreId) (sub : BitVec 16) (line : Nat) : State :=
  let k := s.core c
  match k.ladleOpen.find? (fun x => x.1.desc.sub == sub) with
  | none => s
  | some (r, e) =>
    let (src, _, len) := s.ladleSpan r e
    if !s.ladleMoves c || k.ladleHeld || s.regionParked c || r.desc.isFill || decide (r.desc.rows * r.desc.planes ≤ r.row) ||
        (s.awayChip e.dst).isNone || (s.ladleRefuse c src len false).isSome || (s.awayChip r.desc.src).isSome ||
        !mayRead r.early (addrOff src) len line || s.requestWaits c (64 * line) || s.responseWaits c (64 * line) then s
    else
      let (bs, s1) := s.readEarly line
      s1.modCore c (fun k => k.setRun { r with early := Tab.put [] r.early line bs })

/-- Some bytes of the line that a transaction of this chip writes land, once all of its source has been read. -/
def State.ladleWriteBytes (s : State) (c : CoreId) (id : Nat) (mask : BitVec 64) : State :=
  let k := s.core c
  match k.ladleTxs.find? (fun t => decide (t.id = id)) with
  | none => s
  | some t =>
    match k.ladleRun.find? (fun r => r.desc.sub == t.sub) with
    | none => s
    | some r =>
      let off := addrOff t.dst
      if !s.ladleMoves c || decide (t.path ≠ .onChip) || s.requestWaits c off || (s.homeAsleep off).isSome ||
          !(r.desc.isFill || (unread t.early (addrOff t.src) t.len).isEmpty) then s
      else
        let (m, s1) := s.landEarly off (s.ladleData r.desc t.src t.dst t.len t.early) (off / 64) t.landed mask
        s1.modCore c (fun k => k.modTx id (fun x => { x with landed := m }))

end Sys2Proof.Machine
end

