-- ==== Sys2Proof/Machine/Flows.lean ====
section
/-! DEFINITION. How a flow ends: its error code, the contained error, the NAK to the other end, and the descriptors that stop
with it (09 R428, Table 9.7; 02 R808). -/
namespace Sys2Proof.Machine

def flowUnreachable : Nat := 0x01
def flowAddress : Nat := 0x02
def flowGapTimeout : Nat := 0x03
def flowAckTimeout : Nat := 0x04
def flowAudit : Nat := 0x05
def flowComputeDown : Nat := 0x06
def flowTallyTimeout : Nat := 0x07
def flowReorderFull : Nat := 0x08

/-- The cause of a NAK that refuses a tally write for a full hold queue; the spec gives it no number (log 23). -/
def holdFull : Nat := 0xFF

/-- The Ladle cause of a flow's ending (R808), and FLOW_ERR. -/
def ladleCauseOf (code : Nat) : Nat × BitVec 8 :=
  if code = flowUnreachable then (0x08, 0)
  else if code = flowAddress then (0x07, 0)
  else (0x0A, BitVec.ofNat 8 code)

def TxPath.onFlow (p : TxPath) (i : Nat) : Bool :=
  match p with
  | .onChip => false
  | .write f _ => f = i
  | .read f _ => f = i
  | .tally f _ => f = i
  | .lost => false

/-- Whether a descriptor, which has not completed, uses a flow: for its remote side, or for that of a list entry that it has
reached. -/
def State.runUses (s : State) (r : LadleRun) (i : Nat) : Bool :=
  r.ents.any (fun e =>
    decide (e.flow = i) && ((s.awayChip e.dst).isSome || (!r.desc.isFill && (s.awayChip r.desc.src).isSome)))

/-- A transaction on flow `i`, which has ended: a write that has not been acknowledged stays one for FENCE.FABRIC (R113; log
95); a read, and what has been acknowledged, is over. -/
def LadleTx.orphan (i : Nat) (t : LadleTx) : Option LadleTx :=
  if !t.path.onFlow i then some t
  else match t.path, t.acked with
    | .write _ _, false => some { t with path := .lost }
    | .tally _ _, false => some { t with path := .lost }
    | _, _ => none

/-- The address of a transaction on the fabric: a read's source, a write's destination. -/
def LadleTx.farAddr (t : LadleTx) : Word := match t.path with | .read _ _ => t.src | _ => t.dst

/-- The sequence of a transaction on flow `i`. -/
def TxPath.seqOn (p : TxPath) (i : Nat) : Option (BitVec 32) :=
  match p with
  | .write f q => if f = i then some q else none
  | .read f q => if f = i then some q else none
  | .tally f q => if f = i then some q else none
  | _ => none

/-- The address that the record of a stopped descriptor names (R803): that of the transaction refused or failed, where its sequence is
known; else that of the descriptor's oldest transaction on the flow. -/
def Core.flowAddr (k : Core) (sub : BitVec 16) (i : Nat) (seq : Option (BitVec 32)) : Word :=
  let failed := k.ladleTxs.find? (fun t => seq.isSome && decide (t.path.seqOn i = seq))
  match failed.orElse (fun _ => k.ladleTxs.find? (fun t => t.sub == sub && t.path.onFlow i)) with
  | none => k.ladleLast
  | some t => t.farAddr

/-- Stops every descriptor of the owning core that uses the flow and has not completed, each with its own record. -/
def State.stopUsers (s : State) (i code : Nat) (seq : Option (BitVec 32)) : State :=
  let c := (s.flow i).owner
  let (cause, err) := ladleCauseOf code
  let users := (s.core c).ladleRun.filter (fun r => s.runUses r i)
  let s1 := users.foldl (fun s r =>
    s.modCore c (fun k => k.ladleStop r.desc.sub cause err (k.flowAddr r.desc.sub i seq))) s
  s1.modCore c (fun k => { k with ladleTxs := k.ladleTxs.filterMap (LadleTx.orphan i) })

/-- A NAK on a flow to the other end. -/
def State.sendNak (s : State) (chip : BitVec 16) (die : Die) (flow : BitVec 14) (epoch : BitVec 8) (seq : BitVec 32)
    (cause : Nat) : State :=
  let p := s.newPacket chip 0 noCore .signal .nak die [seq.setWidth 64, BitVec.ofNat 64 cause]
  s.inject die { p with flow := flow, epoch := epoch }

/-- Ends a flow with a code: recorded in ERR, a contained error, the users of a source stopped, what waits for the flow
dropped. `tell` carries it to the other end by NAK, with the sequence of what was refused or failed where one is known. A flow that has
ended already stays as it is. -/
def State.endFlow (s : State) (i code : Nat) (tell : Bool) (addr : Word := 0) (seq : Option (BitVec 32) := none) : State :=
  let f := s.flow i
  if !f.valid || f.err ≠ 0 then s
  else
    let s1 := s.setFlow i { f with err := BitVec.ofNat 8 code, held := [], heldSince := [], missingSince := [], sentAt := [] }
    let s2 := if f.sink then
        s1.modDie (flowDie i) (fun x => { x with holds := x.holds.filter (fun h => h.flow ≠ i) })
      else
        let s' := s1.stopUsers i code seq
        { s' with fab := { s'.fab with sentTallies := s'.fab.sentTallies.filter (fun t => t.flow ≠ i) } }
    let s3 := if tell then s2.sendNak f.peerChip (flowDie i) f.peerFlow f.epoch (seq.getD f.seq) code else s2
    s3.contained { unit := 8, cls := 3, cause := code, index := i, addr := addr } 1

end Sys2Proof.Machine
end

