-- ==== Sys2Proof/Machine/SiteStores.lean ====
section
/-! DEFINITION. The Cave and the receive store of a site port, and the edge paths that carry their traffic (10 R468-R472). -/
namespace Sys2Proof.Machine

/-- One line moves over an edge path. -/
def State.runMove (s : State) (m : SiteMove) : State :=
  match m.data with
  | some bs => ((s.edgeRequest m.off).mergeCodes m.off bs.length 0 0).storeHome m.off bs
  | none => (s.edgeRequest m.off).countReads m.off 64

/-- What waits at a die's edge path moves, in order. It goes before inbound remote HBM traffic (R471). -/
def State.runMoves (s : State) (d : Die) : State :=
  ((s.die d).moves.foldl State.runMove s).modDie d (fun x => { x with moves := [] })

/-- Puts moves on the two edge paths after what waits there, which moves first. -/
def State.queueMoves (s : State) (ms : List SiteMove) : State := ((s.runMoves .west).runMoves .east).addMoves ms

/-- A flit's bytes with the poison mark of each word. -/
def Flit.marked (f : Flit) : List (Byte × Bool) := f.body.zipIdx.map (fun b => (b.1, (Flit.poison f).getLsbD (b.2 / 8)))

/-- The line and the tag of place `i` of the ring. -/
def SitePort.caveLine (q : SitePort) (i : Nat) : Nat := q.caveBase + 64 * (i % caveLines)
def SitePort.caveTag (q : SitePort) (i : Nat) : Nat := q.caveBase + 64 * caveLines + 8 * (i % caveLines)

/-- How many flits have been written from place `i` on. -/
def SitePort.caveBehind (q : SitePort) (i : Nat) : Nat := (q.cavePos + caveLines - i % caveLines) % caveLines

/-- A flit's tag as the Cave holds it. -/
def Flit.tagBytes (f : Flit) : List (Byte × Bool) := (List.range 8).map (fun i => ((f.tag.setWidth 64).extractLsb' (8 * i) 8, false))

/-- A site port writes the flits that it sends, with their tags, to its Cave, as a ring (R469). -/
def State.caveWrite (s : State) (p : Nat) (fs : List Flit) : State :=
  let q := s.sitePort p
  if !s.isSite p || decide (q.caveBase = 0) then s
  else
    (s.queueMoves (fs.zipIdx.flatMap (fun e =>
      [SiteMove.mk (q.caveLine (q.cavePos + e.2)) (some (Flit.marked e.1)),
       SiteMove.mk (q.caveTag (q.cavePos + e.2)) (some (Flit.tagBytes e.1))]))).modSitePort p (fun q =>
        { q with cavePos := (q.cavePos + fs.length) % caveLines })

/-- A flit that finds the SRAM full is written to the receive store (R470); `occ` counts it. -/
def State.storeFlit (s : State) (p occ : Nat) (f : Flit) : State :=
  let q := s.sitePort p
  if !s.isSite p || decide (q.storeBase = 0) || decide (occ ≤ sramFlits) then s
  else (s.queueMoves [SiteMove.mk (q.storeBase + 64 * (q.storePos % storeLines)) (some (Flit.marked f))]).modSitePort p (fun q =>
    { q with storePos := (q.storePos + 1) % storeLines })

end Sys2Proof.Machine
end

