-- ==== Sys2Proof/Machine/Links.lean ====
section
/-! DEFINITION. The link layer of a port: flits in sequence with replay, lane occupancy, hop and window flow control, the choice
of the next packet to leave, failover, congestion samples (09 R400-R406, R411-R416, R436-R441, R445-R453, R455). -/
namespace Sys2Proof.Machine

/-! ## Lanes and classes (R411, Table 9.14) -/

/-- The lane a packet takes on its next hop; `local'` tells that this hop is local. -/
def laneOf (e : RoutePkt) (local' : Bool) : Nat :=
  let past := if e.globals = 0 then 0 else 1
  match e.pkt.cls with
  | .signal => 8 + past
  | .scheduled => 6 + past
  | .adaptive => if local' && isLocalPort e.origin then 5 else Nat.min 5 (2 + e.globals)
  | .service => past

/-- Global hops that a packet had taken before the hop that brought it, by its lane there; none where the lane does not tell: VL5 of a
local hop taken directly after a local one. -/
def hopsByLane (k : Packet) (local' : Bool) : Option Nat :=
  let l := k.vl.toNat
  match k.cls with
  | .adaptive =>
    if !local' || decide (l ≠ 5) then some (l - 2)
    else if k.hops = 2 then some 0
    else none
  | _ => some (l % 2)

/-- Global hops that a packet has taken on its arrival by port `p`. Where its header does not tell, the number is free: at most its hops
less the two local ones (log 111). -/
def State.globalsOf (s : State) (p : Nat) (k : Packet) : Nat × State :=
  let here := if isLocalPort p then 0 else 1
  match hopsByLane k (isLocalPort p) with
  | some n => (n + here, s)
  | none =>
    let d := s.drawFree
    (d.1 % Nat.max 1 (k.hops.toNat - 1), d.2)

/-! ## Receiving (R402-R404, R408, R449) -/

/-- A site port writes flits to its receive store once its 4.5 MiB of SRAM are full; STORE_PEAK is in KiB (10 R470). -/
def State.noteStore (s : State) (p bytes : Nat) : State :=
  let kib := (bytes - 4718592) / 1024
  if s.isSite p && decide ((s.sitePort p).storePeak < kib) then s.modSitePort p (fun q => { q with storePeak := kib }) else s

/-- A bad packet: its header's sequence is named in a NAK, what the lane holds of it is dropped, and every later flit is
discarded until the header is sent again. `redo` counts the flits that the replay brings again (R447). -/
def Port.refuseFlit (x : Port) (f : Flit) : Port :=
  let bad (x : Port) (start : Nat) : Port :=
    { x with nakSent := some start, nakTold := false, redo := seqSpan x.seqMod start x.rxSeq + 1, rxSeq := start }
  match Tab.get none x.asm (Flit.vl f) with
  | some a =>
    if Flit.header f then bad x x.rxSeq
    else bad ({ x.untakeFlits (Flit.vl f) a.flits with asm := Tab.put none x.asm (Flit.vl f) none }) a.start
  | none => bad x x.rxSeq

/-- What arrived on lane `l` of port `n` is whole or bad; a site port that was sending a copy of it writes its flits to its Cave. -/
def State.settleSite (s : State) (n l : Nat) (whole : Option Packet) (m : Nat) : State :=
  match allPorts.find? (fun q => decide ((s.port q).sending = some (n, l))) with
  | none => s.settle n l whole m
  | some q =>
    let placed (ts : List TxPkt) : List TxPkt :=
      mapIf (fun (t : TxPkt) => t.entry.toRoutePkt.from n l) (fun t => { t with cave := (s.sitePort q).cavePos }) ts
    let s1 := s.modPort q (fun x => { x with replay := placed x.replay })
    let s2 := s1.settle n l whole m
    s2.caveWrite q (s2.port q).txOut

/-- The same, and a copy that has been passed on in part ends with STOMP (R404). -/
def State.refusePacket (s : State) (n : Nat) (x : Port) (f : Flit) : State :=
  let s1 := (s.setPort n (x.refuseFlit f)).setXoff n
  match Tab.get none x.asm (Flit.vl f) with
  | some a => if a.early && !Flit.header f then s1.settleSite n (Flit.vl f) none a.flits else s1
  | none => s1

/-- A packet goes to the die of its port to be routed; `arriving` names its port and lane while it is still arriving. -/
def State.toDie (s : State) (p : Nat) (k : Packet) (arriving : Option (Nat × Nat)) : State :=
  let g := s.globalsOf p k
  g.2.modDie (portDie p) (fun d => { d with toRoute := d.toRoute ++ [s.buffered p g.1 arriving k] })

/-- A packet that has arrived whole goes to the die of its port, unless its kind or class is not one of Table 9.4. A BEACON
goes no further than the port. -/
def State.handIn (s : State) (p : Nat) (k : Packet) : State :=
  let gone := s.freeAt p k.vl.toNat (Packet.flits k)
  if !PKind.allows k.kind k.cls then gone.modDie (portDie p) (fun d => { d with discKind := d.discKind + 1 })
  else if k.kind = .beacon then gone
  else s.toDie p k none

/-- A packet for another chip is passed on from its header flit on (log 67). -/
def State.cutThrough (s : State) (a : AsmPkt) : Bool :=
  PKind.allows a.hdr.kind a.hdr.cls && decide (a.hdr.kind ≠ .beacon) && decide (a.hdr.dstChip ≠ s.fab.chip)

/-- What the port holds of a packet once this flit, in sequence and good, is in its buffer. -/
def Port.assemble (x : Port) (f : Flit) : Option AsmPkt :=
  if Flit.header f then some (AsmPkt.begin f x.rxSeq) else (Tab.get none x.asm (Flit.vl f)).map (fun a => a.add f)

/-- The last flit of a packet is in the buffer: the packet goes on, or is discarded because it ends with STOMP. -/
def State.finishPacket (s : State) (n : Nat) (x : Port) (a : AsmPkt) (f : Flit) : State :=
  let l := Flit.vl f
  let x1 := { x with asm := Tab.put none x.asm l none }
  if Flit.stomp f then
    let s1 := ((s.setPort n { x1 with stomped := x1.stomped + 1 }).freeAt n l a.flits).countPort n 0x10C none 1
    if a.early then s1.settleSite n l none (a.flits - 1) else s1
  else
    let s1 := (s.setPort n x1).setXoff n
    if !a.early then s1.handIn n a.whole
    else if s1.hasCopy n l then s1.settleSite n l (some a.whole) a.flits
    else s1.freeAt n l a.flits

/-- A flit of a packet, in sequence, is taken into the receive buffer and joins its packet; a bad one, one beyond the depth, and one
whose packet's PCRC fails are not. -/
def State.takeInFlit (s : State) (n : Nat) (x : Port) (f : Flit) : State :=
  let l := Flit.vl f
  if Flit.bad f || decide (laneCount ≤ l) then s.refusePacket n { x with stopAll := x.stopAll || Flit.bad f } f
  else if s.depth n < 64 * (x.occTotal + 1) then s.linkLost n
  else match x.assemble f with
    | none => s.refusePacket n x f
    | some a =>
      if Flit.isEnd f && !a.crcOk f then s.refusePacket n x f
      else
        let x1 := { x.takeFlit l with rxSeq := seqAdd x.seqMod x.rxSeq 1, redo := x.redo - 1, stopAll := x.stopAll && decide (1 < x.redo) }
        let s1 := (s.noteStore n (64 * x1.occTotal)).storeFlit n x1.occTotal f
        if Flit.isEnd f then s1.finishPacket n x1 a f
        else
          let cut := Flit.header f && s.cutThrough a
          let a1 := { a with early := a.early || cut }
          let s2 := (s1.setPort n { x1 with asm := Tab.put none x1.asm l (some a1) }).setXoff n
          if cut then s2.toDie n a.ahead (some (n, l)) else s2

/-- A flit that carries no packet: in a codeword that cannot be corrected it stops all lanes; a good one shows that no replay goes on,
since a replay's flits follow one another (R403, R447). -/
def Port.idleFlit (x : Port) (bad : Bool) : Port :=
  if bad then { x with stopAll := true } else if x.nakSent.isNone then { x with redo := 0, stopAll := false } else x

/-- A flit is received (R402, R403, R447). Idle flits carry nothing, and link control is a row of its own. -/
def execFlitReceive (p : BitVec 6) (f : Flit) (s : State) : Out :=
  let n := p.toNat
  let x := s.port n
  if x.state ≠ stService then .next s
  else
    let s0 := (s.countPort n 0x105 none (Flit.mended f)).countPort n 0x106 none (Flit.lost f)
    if !Flit.header f && !Flit.isData f then .next (s0.setPort n (x.idleFlit (Flit.bad f)))
    else
      let s1 := s0.countPort n 0x102 (some (Flit.vl f)) 1
      if x.nakSent.isSome && !(Flit.header f && f.resend) then
        .next (s1.setPort n { x with redo := x.redo + 1, stopAll := x.stopAll || Flit.bad f })
      else .next (s1.takeInFlit n { x with nakSent := none } f)

/-- The link-control flit that a port sends, with the credits it returns. A NAK goes out in one (R403; log 126). -/
def Port.control (x : Port) (credits : Bool) : LinkCtl :=
  { ackSeq := seqBack x.seqMod x.rxSeq 1, nak := if x.nakTold then none else x.nakSent, xoff := x.xoffSent,
    creditsLane := if credits then (List.range laneCount).map (Tab.get 0 x.owedLane) else [],
    creditsPool := if credits then x.owedPool else 0, allXoff := x.stopAll,
    received := (List.range laneCount).map (Tab.get 0 x.received),
    drained := (List.range laneCount).map (Tab.get 0 x.drained), caveLost := [], caveBad := [] }

/-- The receiver returns the last accepted sequence, its NAK and the state of every lane. -/
def execLinkAckSend (p : BitVec 6) (s : State) : Out :=
  let n := p.toNat
  let x := s.port n
  if x.state ≠ stService then .next s
  else .next (s.setPort n { x with ackSent := some s.now, ctlOut := some (x.control false), nakTold := x.nakSent.isSome })

/-- The period of credit returns: 1 us, on a site link 8 us (R448, 10 R470). -/
def State.creditPeriod (s : State) (p : Nat) : Nat := if s.isSite p then 8000 else 1000

/-- The receiver returns the credits it owes. -/
def execCreditReturn (p : BitVec 6) (s : State) : Out :=
  let n := p.toNat
  let x := s.port n
  let due := match x.creditSent with | none => true | some t => decide (t + s.creditPeriod n ≤ s.now)
  if decide (x.state = stService) && s.windowMode n && due then
    .next (s.setPort n { x.owesNothing with creditSent := some s.now, ctlOut := some (x.control true), nakTold := x.nakSent.isSome })
  else .next s

/-! ## Pauses (R439, R446, Table 9.14) -/

/-- Lanes of a class that a mask pauses. -/
def classPaused (m : BitVec 10) (c : Nat) : Bool := (List.range laneCount).any (fun l => decide (laneClass l = c) && m.getLsbD l)

/-- A class begins or ends a pause. -/
def Port.pause (x : Port) (c now : Nat) (on : Bool) : Port :=
  match Tab.get none x.pausedFrom c, on with
  | none, true => { x with pausedFrom := Tab.put none x.pausedFrom c (some now) }
  | some t, false => { x with pausedFrom := Tab.put none x.pausedFrom c none,
                              pausedNs := Tab.modify 0 x.pausedNs c (· + (now - t)) }
  | _, _ => x

/-- A pause of VL6 or VL7, or a wait for credits on them, is a schedule violation (R439) while a schedule is active (R814). -/
def State.violation (s : State) (p l : Nat) : State :=
  if !s.sched.active then s else
  let s1 := s.modPort p (fun x => { x with pauses := x.pauses + 1 })
  ({ s1 with sched := { s1.sched with violations := s1.sched.violations + 1 } }).countPort p 0x10A (some l) 1

/-- The lanes that a control flit pauses. -/
def pausedBy (l : LinkCtl) : BitVec 10 := if l.allXoff then BitVec.allOnes 10 else l.xoff

/-- Lanes 6 and 7 that become paused. -/
def newPauses (old new : BitVec 10) : List Nat := [6, 7].filter (fun l => new.getLsbD l && !old.getLsbD l)

/-- Flits of the packet being sent that have not left: of one still arriving, those that have not arrived (R404, R415). -/
def State.flitsLeft (s : State) (p : Nat) : Nat :=
  let x := s.port p
  match x.sending with
  | none => x.unsent s.now (s.flitGap p)
  | some (n, l) =>
    match x.replay.find? (fun t => t.entry.toRoutePkt.from n l), Tab.get none (s.port n).asm l with
    | some t, some a => Packet.flits t.entry.pkt - a.flits
    | _, _ => 0

/-! ## Control flits received (R403, R405, R446, R448) -/

/-- Drops from the front of the replay buffer the packets that have been accepted up to `seq`. -/
def dropAcked (m base seq : Nat) : List TxPkt → List TxPkt
  | [] => []
  | t :: ts => if seqSpan m base t.last ≤ seqSpan m base seq then dropAcked m base seq ts else t :: ts

/-- The transmitter learns the last sequence accepted. -/
def Port.acked (x : Port) (seq : Nat) : Port :=
  match x.replay with
  | [] => x
  | t :: _ =>
    if seqSpan x.seqMod t.first seq < seqSpan x.seqMod t.first x.txSeq then
      let rest := dropAcked x.seqMod t.first seq x.replay
      if rest.length < x.replay.length then { x with replay := rest, resends := 0, resendSeq := none } else x
    else x

/-- A NAK: the transmitter sends again from the named flit all that it had sent, and counts how often in succession it resends it. No
other flit leaves in between; `left` flits of a packet that is still arriving were not sent yet. -/
def Port.nakked (x : Port) (seq now gap left : Nat) : Port :=
  let all := x.flitsFrom seq
  let flits := all.take (all.length - left)
  let till := 100 * now + flits.length * gap
  { x with resendSeq := some seq, resends := if x.resendSeq = some seq then x.resends + 1 else 1, replays := x.replays + 1,
           txOut := flits, busyUntil := till, signalUntil := till }

/-- Sets the POISON bit of each affected word. -/
def markPoison (k : Packet) (bad : List Bool) : Packet :=
  { k with poison := (List.range k.poison.length).map (fun i => k.poison.getD i false || bad.getD i false) }

/-- A flit of a sent packet has left the stage of 1 MiB and is read from the Cave (10 R469). -/
def State.flitInCave (s : State) (p : Nat) (t : TxPkt) (j : Nat) : Bool :=
  t.entry.arriving.isNone && decide (stageFlits < (s.sitePort p).caveBehind (t.cave + j))

/-- The Cave places of a sent packet's flits that are no longer in the stage, with their indexes. -/
def State.caveFlits (s : State) (p : Nat) (t : TxPkt) : List (Nat × Nat) :=
  ((List.range t.entry.count).filter (s.flitInCave p t)).map (fun j => (j, t.cave + j))

/-- The controller reads the lines and tags of a packet from the Cave. -/
def State.readCave (s : State) (p : Nat) (t : TxPkt) : State :=
  let q := s.sitePort p
  (s.caveFlits p t).foldl (fun (s : State) e =>
    ((s.edgeRequest (q.caveLine e.2)).countReads (q.caveLine e.2) 64).countReads (q.caveTag e.2) 8) s

/-- The header flit of a packet, or its tag or another's, cannot be read from the Cave (10 R472). -/
def State.caveLoses (s : State) (p : Nat) (t : TxPkt) (l : LinkCtl) : Bool :=
  let q := s.sitePort p
  let places := s.caveFlits p t
  places.any (fun e => (s.loadHome (q.caveTag e.2) 8).any (fun b => b.2)) ||
    places.any (fun e => decide (e.1 = 0) &&
      (l.caveLost.contains t.first || (s.loadHome (q.caveLine e.2) 64).any (fun b => b.2)))

/-- The packet with the payload that its flits bring from the Cave, poisoned where a codeword could not be corrected. -/
def State.fromCave (s : State) (p : Nat) (t : TxPkt) (l : LinkCtl) : TxPkt :=
  let q := s.sitePort p
  let k := t.entry.pkt
  let lines := t.entry.flits.zipIdx.map (fun e =>
    if s.flitInCave p t e.2 then s.loadHome (q.caveLine (t.cave + e.2)) 64 else Flit.marked e.1)
  let body := (lines.drop 1).flatten
  let read : Packet :=
    { k with data := ((body.drop (Packet.off k % 64)).take k.data.length).map (fun b => b.1),
             poison := (List.range k.poison.length).map (fun w => (body.getD (8 * (Packet.off k % 64 / 8 + w)) (0, false)).2) }
  let bad := ((l.caveBad.find? (fun b => decide (b.1 = t.first))).map (fun b => b.2)).getD []
  { t with entry := { t.entry with pkt := markPoison read bad } }

/-- The sequences of the packets that a replay leaves out. -/
def lostSeqs (m : Nat) (lost : List TxPkt) : List TxPkt → List Nat
  | [] => []
  | t :: later => (if lost.contains t then seqsOf m later t else []) ++ lostSeqs m lost later

/-- Takes packets out of the replay buffer; the sequences of what was sent after them close up, so that both ends count alike. -/
def Port.leaveOut (x : Port) (window : Bool) (lost : List TxPkt) : Port :=
  match x.replay with
  | [] => x
  | t0 :: _ =>
    let span (q : Nat) : Nat := seqSpan x.seqMod t0.first q
    let gone := lostSeqs x.seqMod lost x.replay
    let moved (q : Nat) : Nat := seqBack x.seqMod q (gone.filter (fun g => decide (span g < span q))).length
    let x1 := { x with replay := (x.replay.filter (fun t => !lost.contains t)).map (fun t =>
                         { t with first := moved t.first, last := moved t.last }),
                       txSeq := seqBack x.seqMod x.txSeq gone.length }
    if window then lost.foldl (fun (y : Port) t => y.unspend t.entry.lane t.entry.count) x1 else x1

/-- A replay of what has left the stage, from the Cave (10 R469, R472): what waits at the edge paths moves first (R471); a packet whose
header or tag could not be corrected is left out and counted, words that could not are sent poisoned. `l` names what the read of this
replay finds wrong for the first time. -/
def State.caveReplay (s : State) (p : Nat) (l : LinkCtl) : State :=
  let s0 := (s.runMoves .west).runMoves .east
  let sent := (s0.port p).replay.filter (fun t => !(s0.caveFlits p t).isEmpty)
  let s1 := sent.foldl (fun s t => s.readCave p t) s0
  let lost := sent.filter (fun t => s1.caveLoses p t l)
  let s2 := s1.modPort p (fun x =>
    { x with replay := mapIf (fun (t : TxPkt) => sent.contains t && !lost.contains t) (fun t => s1.fromCave p t l) x.replay })
  (s2.modPort p (fun x => x.leaveOut (s2.windowMode p) lost)).modSitePort p (fun q =>
    { q with replays := q.replays + 1, cavePoison := q.cavePoison + BitVec.ofNat 32 lost.length })

/-- Credits return to the transmitter: a lane's fill its reserve of 256 first (R448). -/
def Port.credited (x : Port) (l : LinkCtl) : Port :=
  let back (x : Port) (i : Nat) : Port :=
    let all := Tab.get 0 x.creditLane i + l.creditsLane.getD i 0
    { x with creditLane := Tab.put 0 x.creditLane i (Nat.min 256 all), creditPool := x.creditPool + (all - 256) }
  let x1 := (List.range laneCount).foldl back x
  { x1 with creditPool := x1.creditPool + l.creditsPool,
            returned := x.returned + l.creditsPool + l.creditsLane.foldl (· + ·) 0,
            peerReceived := l.received, peerDrained := l.drained }

/-- The first waiting packet of each input of a lane; on the Scheduled lanes of each owner too, so that one owner's packets wait for no
slot of another's (R438, R444). -/
def laneHeads (out : List PortPkt) (l : Nat) : List PortPkt :=
  let owner (e : PortPkt) : BitVec 16 := if e.pkt.cls = .scheduled then e.pkt.schedId else 0
  out.foldl (fun hs e => if e.lane = l && !hs.any (fun h => decide (h.input = e.input) && decide (owner h = owner e)) then hs ++ [e]
    else hs) []

/-- Lanes whose head packets wait for credits in window mode. -/
def State.creditLacks (s : State) (p : Nat) : BitVec 10 :=
  let x := s.port p
  if !s.windowMode p then 0
  else (List.range laneCount).foldl (fun (m : BitVec 10) l =>
    if (laneHeads x.out l).any (fun e => decide (Tab.get 0 x.creditLane l + x.creditPool < Packet.flits e.pkt)) then m ||| (1 <<< l)
    else m) 0

/-- Waits for credits begin and end lane by lane, and a class is paused while a lane of it is XOFF or waits; a wait that begins on VL6
or VL7 is a violation (R439, Table 9.14). -/
def State.creditWaits (s : State) (p : Nat) : State :=
  let lacks := s.creditLacks p
  let x := s.port p
  let x1 := (List.range 4).foldl (fun (x : Port) c => x.pause c s.now (classPaused (x.xoffRecv ||| lacks) c)) { x with creditWait := lacks }
  (newPauses x.creditWait lacks).foldl (fun s l => s.violation p l) (s.setPort p x1)

def execLinkControl (p : BitVec 6) (l : LinkCtl) (s : State) : Out :=
  let n := p.toNat
  let x := s.port n
  if x.state ≠ stService then .next s
  else
    let mask := if s.windowMode n then (if l.allXoff then BitVec.allOnes 10 else 0) else pausedBy l
    let x1 := { (x.acked l.ackSeq).credited l with xoffRecv := mask }
    let s1 := ((newPauses x.xoffRecv mask).foldl (fun s l => s.violation n l) (s.setPort n x1)).creditWaits n
    match l.nak with
    | none => .next s1
    | some seq =>
      let s2 := (if s1.isSite n then s1.caveReplay n l else s1).countPort n 0x104 none 1
      let s3 := s2.modPort n (fun y => y.nakked seq s.now (s.flitGap n) (if y.sending.isSome then s2.flitsLeft n else 0))
      .next (if 8 ≤ (s3.port n).resends then s3.linkLost n else s3)

/-- Cumulative counts disagree: on no lane may the peer have received more than was sent, or drained more than it received; once
nothing is on the wire or to be replayed it has received all; no more credits have come back than it drained; and credits at
hand, spent and not returned, sum to those granted (Table 9.12). -/
def Port.creditsWrong (x : Port) (site : Bool) : Bool :=
  let lanes := List.range laneCount
  let sum (t : Nat → Nat) : Nat := (lanes.map t).foldl (· + ·) 0
  let quiet := x.replay.isEmpty && x.sending.isNone
  lanes.any (fun l => decide (Tab.get 0 x.spent l < x.peerReceived.getD l 0) ||
    decide (x.peerReceived.getD l 0 < x.peerDrained.getD l 0) ||
    (quiet && decide (Tab.get 0 x.spent l ≠ x.peerReceived.getD l 0))) ||
  decide (sum (fun l => x.peerDrained.getD l 0) < x.returned) ||
  decide (sum (Tab.get 0 x.creditLane) + x.creditPool + sum (Tab.get 0 x.spent) ≠ 10 * 256 + poolCredits site + x.returned)

/-- The counts are checked every 100 us; a failed check takes the port out of service. -/
def execLongLinkCheck (p : BitVec 6) (s : State) : Out :=
  let n := p.toNat
  let due := match (s.port n).creditChecked with | none => true | some t => decide (t + 100000 ≤ s.now)
  if s.portUp n && s.windowMode n && due then
    (if (s.port n).creditsWrong (s.isSite n) then .next (s.linkLost n)
     else .next (s.modPort n (fun x => { x with creditChecked := some s.now })))
  else .next s

/-! ## The schedule at a port (R436-R438, R814) -/

/-- Slot of fabric time, and the end of that slot (R436). -/
def SchedSt.slotAt (c : SchedSt) (t : Int) : Nat × Int :=
  let period : Int := (c.activeSlots * 2048 : Nat)
  let within := (t - c.activeStart) % period
  ((within / 2048).toNat, t - within % 2048 + 2048)

/-- The packet's SCHED_ID owns the present slot, and its last flit leaves 40 ns before the slot ends (R438). -/
def State.inSlot (s : State) (p : Nat) (k : Packet) : Bool :=
  let (slot, stop) := s.sched.slotAt s.ftime
  let e := (s.port p).schedActive.getD slot 0
  e.getLsbD 31 && decide (e.extractLsb' 0 16 = k.schedId) &&
    decide (100 * (s.ftime + 40) + ((Packet.flits k * s.flitGap p : Nat) : Int) ≤ 100 * stop)

/-- A Scheduled packet that the schedule holds: one is active, time is valid, and the packet is not off schedule. -/
def State.onSchedule (s : State) (k : Packet) : Bool := s.sched.active && s.ftimeValid && !k.offSched

/-! ## Departure (R414, Table 9.13) -/

/-- The lane may start a packet of so many flits: no XOFF in hop mode, credits in window mode. -/
def State.laneOpen (s : State) (p : Nat) (x : Port) (l flits : Nat) : Bool :=
  !x.xoffRecv.getLsbD l &&
    (!s.windowMode p || decide (flits ≤ Tab.get 0 x.creditLane l + x.creditPool))

/-- Bytes of the replay buffer in use. -/
def Port.replayUsed (x : Port) : Nat := (x.replay.map (fun t => 64 * Packet.flits t.entry.pkt)).foldl (· + ·) 0

/-- A sequence must name one unacknowledged flit, so there are fewer than the numbers that it has (R403; log 67). -/
def Port.seqRoom (x : Port) (n : Nat) : Bool :=
  match x.replay with
  | [] => true
  | t :: _ => decide (seqSpan x.seqMod t.first x.txSeq + n < x.seqMod)

/-- The element that comes first from a round-robin pointer on. -/
def firstFrom {α : Type} (key : α → Nat) (n ptr : Nat) : List α → Option α
  | [] => none
  | x :: xs =>
    match firstFrom key n ptr xs with
    | none => some x
    | some y => if (key y + n - ptr) % n < (key x + n - ptr) % n then some y else some x

/-- The rank of a waiting packet in the order of R414: 0 Signal, 1 Scheduled in its slot, 2 Adaptive or off schedule, 3
Service; none for a Scheduled packet outside its slot. -/
def State.rank (s : State) (p : Nat) (k : Packet) : Option Nat :=
  match k.cls with
  | .signal => some 0
  | .scheduled => if s.onSchedule k then (if s.inSlot p k then some 1 else none) else some 2
  | .adaptive => some 2
  | .service => some 3

/-- The packets of a rank that pass a test and may leave now, one for each lane. -/
def State.ready (s : State) (p rank : Nat) (ok : PortPkt → Bool) : List PortPkt :=
  let x := s.port p
  (List.range laneCount).filterMap (fun l =>
    firstFrom (fun (e : PortPkt) => e.input) 54 (Tab.get 0 x.rrIn l)
      ((laneHeads x.out l).filter (fun e => ok e && decide (s.rank p e.pkt = some rank) &&
        s.laneOpen p x l (Packet.flits e.pkt) && x.seqRoom (Packet.flits e.pkt) &&
        decide (x.replayUsed + 64 * Packet.flits e.pkt ≤ x.replayAlloc))))

/-- The classes that share a rank, in the codes of `laneClass`. -/
def rankClasses (r : Nat) : List Nat := if r = 2 then [2, 1] else [r]

/-- The next packet of a class in a rank, by the lane pointer of the class (Table 9.13). -/
def State.chooseClass (s : State) (p rank : Nat) (ok : PortPkt → Bool) (c : Nat) : Option PortPkt :=
  firstFrom (fun (e : PortPkt) => e.lane) laneCount (Tab.get 0 (s.port p).rr c)
    ((s.ready p rank ok).filter (fun e => decide (laneClass e.lane = c)))

/-- The packet that has waited longer; of an Adaptive and an off-schedule Scheduled packet that share a place in the order of R414 it
goes first, in a tie the Adaptive one (DESIGN CHOICE, log 127: the spec names no order between the two). -/
def longerWaiting (a b : Option PortPkt) : Option PortPkt :=
  match a, b with
  | none, y => y
  | some x, none => some x
  | some x, some y => if y.since < x.since then some y else some x

/-- The next packet of some ranks, with its rank, among those that pass a test. -/
def State.chooseIf (s : State) (p : Nat) (ok : PortPkt → Bool) : List Nat → Option (PortPkt × Nat)
  | [] => none
  | r :: rs =>
    match (rankClasses r).foldl (fun best c => longerWaiting best (s.chooseClass p r ok c)) none with
    | some e => some (e, r)
    | none => s.chooseIf p ok rs

/-- A Service packet that has waited 10 us. -/
def State.waitedLong (s : State) (e : PortPkt) : Bool := decide (e.pkt.cls = .service) && decide (e.since + 10000 ≤ s.now)

/-- The next packet in the order of R414: a Service packet that has waited 10 us goes before the Adaptive packets. -/
def State.choose (s : State) (p : Nat) : Option (PortPkt × Nat) :=
  match s.chooseIf p (fun _ => true) [0, 1] with
  | some e => some e
  | none =>
    match s.chooseIf p s.waitedLong [3] with
    | some e => some e
    | none => s.chooseIf p (fun _ => true) [2, 3]

/-- Spends credits for the flits of a lane: its reserved ones first. -/
def Port.spend (x : Port) (window : Bool) (l n : Nat) : Port :=
  let have' := Tab.get 0 x.creditLane l
  let own := Nat.min have' n
  let x1 := { x with spent := Tab.modify 0 x.spent l (· + n) }
  if window then { x1 with creditLane := Tab.put 0 x1.creditLane l (have' - own), creditPool := x1.creditPool - (n - own) }
  else x1

/-- The last flit of the packet before has left, or leaves within this ns. -/
def Port.free (x : Port) (now : Nat) : Bool := x.sending.isNone && decide (x.busyUntil < 100 * (now + 1))

/-- The last Signal flit has left. -/
def Port.signalFree (x : Port) (now : Nat) : Bool := decide (x.signalUntil < 100 * (now + 1))

/-- Puts a packet that leaves into the replay buffer: a Signal flit takes its sequence between the flits of the packet being sent. -/
def Port.store (x : Port) (e : PortPkt) (left cave : Nat) : Port :=
  let n := Packet.flits e.pkt
  let first := seqBack x.seqMod x.txSeq left
  let moved := if left = 0 then x.replay
    else mapIf (fun (t : TxPkt) => seqAdd x.seqMod t.last 1 == x.txSeq) (fun t => { t with last := seqAdd x.seqMod t.last n }) x.replay
  { x with replay := moved ++ [{ first := first, last := seqAdd x.seqMod first (n - 1), cave := cave, entry := e }],
           txSeq := seqAdd x.seqMod x.txSeq n }

/-- A packet leaves: it goes to the replay buffer, the pointers move past it, and what it uses is counted. Flits of one that is still
arriving leave as they arrive. -/
def State.depart (s : State) (p : Nat) (e : PortPkt) (rank : Nat) : State :=
  let x := s.port p
  let n := Packet.flits e.pkt
  let pkt := if decide (e.pkt.cls = .scheduled) && !s.ftimeValid then { e.pkt with offSched := true } else e.pkt
  let stamped := if pkt.kind = .beacon then { pkt with args := s.ftimeWord :: pkt.args.drop 1 } else pkt
  let e1 : PortPkt := { e with pkt := stamped, buf := if e.arriving.isSome then e.buf else none }
  let gap := s.flitGap p
  let x1 := ((x.spend (s.windowMode p) e.lane n).store e1 (if rank = 0 then s.flitsLeft p else 0) (s.sitePort p).cavePos)
  let x2 := if e.arriving.isSome then { x1 with sending := e.arriving, txOut := e1.flits.take 1 }
    else { x1.busyFor s.now gap n with txOut := e1.flits }
  let x3 := { x2 with
    out := x2.out.erase e, rr := Tab.put 0 x2.rr (laneClass e.lane) ((e.lane + 1) % laneCount),
    beaconTimes := if pkt.kind = .beacon then pushLast 128 x2.beaconTimes s.ftime else x2.beaconTimes,
    rrIn := Tab.put 0 x2.rrIn e.lane ((e.input + 1) % 54),
    signalUntil := if rank = 0 then Nat.max x2.signalUntil (100 * s.now) + gap else x2.signalUntil,
    nonmin := if pkt.nonmin then x2.nonmin + 1 else x2.nonmin }
  let s1 := (s.setPort p x3).countPort p 0x103 (some e.lane) 1
  let s2 := if e.arriving.isSome then s1 else s1.countSent p e.lane (laneClass e.lane) n
  let s3 := if e.arriving.isSome then s2 else (s2.caveWrite p e1.flits).leaveBuffer e.toRoutePkt
  if pkt.nonmin then s3.countPort p 0x10B none 1 else s3

/-- A slot that the packet's SCHED_ID owns has come since the packet was queued, and it has not left in it (R438). A packet that waits
for its first slot has missed none (R444). -/
def State.slotPassed (s : State) (p : Nat) (e : PortPkt) : Bool :=
  let c := s.sched
  let since : Int := s.ftime - ((s.now - e.since : Nat) : Int)
  let first := (since - c.activeStart).toNat / 2048
  let n := Nat.min ((s.ftime - c.activeStart).toNat / 2048 + 1 - first) c.activeSlots
  (List.range n).any (fun i =>
    let slot := (s.port p).schedActive.getD ((first + i) % c.activeSlots) 0
    slot.getLsbD 31 && decide (slot.extractLsb' 0 16 = e.pkt.schedId))

/-- Scheduled packets at the head of their inputs that must wait for a further slot are counted as slot misses, each once. -/
def State.countMisses (s : State) (p : Nat) : State :=
  let x := s.port p
  let heads := ([6, 7].flatMap (laneHeads x.out)).filter (fun e =>
    !e.missed && decide (s.rank p e.pkt = none) && s.slotPassed p e)
  let x1 := { x with out := mapIf (fun e => heads.contains e) (fun (e : PortPkt) => { e with missed := true }) x.out,
                     misses := x.misses + heads.length }
  let s1 := s.setPort p x1
  ({ s1 with sched := { s1.sched with misses := s1.sched.misses + BitVec.ofNat 64 heads.length } }).countPort p 0x109 none
    heads.length

/-! ## The Signal limiter (R416) -/

/-- Tenths of a ns in which the bucket gains one token: 20 flit slots. -/
def State.tokenTime (s : State) (p : Nat) : Nat := s.flitTime p * 2

/-- Fills the bucket of a die at a port up to 64 flits; `tokenAt` is in tenths of a ns. -/
def State.refill (s : State) (p : Nat) (d : Die) : State :=
  s.modPort p (fun x =>
    let at' := Tab.get 0 x.tokenAt d.code
    let per := s.tokenTime p
    let gained := (10 * s.now - at') / per
    { x with tokens := Tab.put 64 x.tokens d.code (Nat.min 64 (Tab.get 64 x.tokens d.code + gained)),
             tokenAt := Tab.put 0 x.tokenAt d.code (at' + gained * per) })

/-- Bytes queued on a lane, and of a class. -/
def Port.queuedLane (x : Port) (l : Nat) : Nat :=
  ((x.out.filter (fun e => e.lane = l)).map (fun e => 64 * Packet.flits e.pkt)).foldl (· + ·) 0

def Port.queuedClass (x : Port) (c : Nat) : Nat :=
  ((x.out.filter (fun e => laneClass e.lane = c)).map (fun e => 64 * Packet.flits e.pkt)).foldl (· + ·) 0

/-- QUEUED of each class as an interval begins. -/
def Port.queuedNow (x : Port) : Tab Nat := (List.range 4).foldl (fun t c => Tab.put 0 t c (x.queuedClass c)) []

/-- Keeps the largest QUEUED of the interval. -/
def State.noteQueued (s : State) (p : Nat) : State :=
  s.modPort p (fun x => { x with queuedMax := (List.range 4).foldl (fun t c =>
    Tab.put 0 t c (Nat.max (Tab.get 0 t c) (x.queuedClass c))) x.queuedMax })

/-- Packets of a die that its limiter holds enter the port's queue, in order, as tokens allow. -/
def State.releaseHeldN (s : State) (p : Nat) (d : Die) : Nat → State
  | 0 => s
  | n + 1 =>
    let x := s.port p
    match takeFirst (fun (e : PortPkt) => e.pkt.srcDie == d) x.held with
    | none => s
    | some (e, rest) =>
      let t := Tab.get 64 x.tokens d.code
      if t < Packet.flits e.pkt then s
      else ((s.setPort p { x with held := rest, out := x.out ++ [{ e with since := s.now }],
                                  tokens := Tab.put 64 x.tokens d.code (t - Packet.flits e.pkt) }).noteQueued p).releaseHeldN p d n

/-- The limiters of both dies let go what they can. -/
def State.releaseHeld (s : State) (p : Nat) : State :=
  let n := (s.port p).held.length
  (((s.refill p .west).refill p .east).releaseHeldN p .west n).releaseHeldN p .east n

/-- A packet that the die of port `p` sends to its neighbour. -/
def State.ownAt (s : State) (p : Nat) (k : Packet) (lane : Nat) : PortPkt :=
  { RoutePkt.own (portDie p) k with lane := lane, since := s.now, missed := false, stomp := none }

/-- A packet enters the queue of an output port; a Signal packet of this die passes the limiter. -/
def State.enqueue (s : State) (p : Nat) (e : PortPkt) : State :=
  let s1 := s.releaseHeld p
  let x := s1.port p
  if decide (e.pkt.cls = .signal) && decide (e.origin = ownInput) then
    let d := e.pkt.srcDie.code
    let t := Tab.get 64 x.tokens d
    if !x.held.any (fun h => h.pkt.srcDie == e.pkt.srcDie) && decide (Packet.flits e.pkt ≤ t) then
      (s1.setPort p { x with out := x.out ++ [e], tokens := Tab.put 64 x.tokens d (t - Packet.flits e.pkt) }).noteQueued p
    else s1.setPort p { x with held := x.held ++ [e], limited := x.limited + 1 }
  else (s1.setPort p { x with out := x.out ++ [e] }).noteQueued p

/-- The output port chooses the next packet once the last flit of the one before has left; a Signal flit may leave between its flits
(R414, R415). -/
def execPacketDepart (p : BitVec 6) (s : State) : Out :=
  let n := p.toNat
  if !s.portUp n then .next s
  else
    let s1 := ((s.releaseHeld n).countMisses n).creditWaits n
    let x := s1.port n
    let next := if x.free s.now then s1.choose n
      else if x.signalFree s.now then s1.chooseIf n (fun _ => true) [0]
      else none
    match next with
    | none => .next s1
    | some (e, r) => .next (s1.depart n e r)

/-- At the start of a slot, a port sends a Scheduled packet that waited for a slot its SCHED_ID owns. -/
def execScheduleSlotStart (p : BitVec 6) (s : State) : Out :=
  let n := p.toNat
  if s.portUp n && s.sched.active && decide ((s.ftime - s.sched.activeStart) % 2048 = 0) && (s.port n).free s.now then
    match s.chooseIf n (fun _ => true) [1] with
    | none => .next s
    | some (e, r) => .next (s.depart n e r)
  else .next s

/-- The packets held for a port that has left service go back to its die, those unacknowledged first, to be routed in their
order (R455). Beacons belong to the link and are dropped. -/
def execFailoverResend (p : BitVec 6) (s : State) : Out :=
  let n := p.toNat
  let x := s.port n
  let again := (x.failHeld.filter (fun e => decide (e.pkt.kind ≠ .beacon))).map (fun e => e.toRoutePkt)
  .next ((s.setPort n { x with failHeld := [] }).modDie (portDie n) (fun d => { d with toRoute := again ++ d.toRoute }))

/-! ## Congestion maps (R452, R453) -/

/-- Time paused by a class in an interval that ends now, in 1/4,096 of it. -/
def Port.pausedPart (x : Port) (c since now : Nat) : Nat :=
  let open' := match Tab.get none x.pausedFrom c with | none => 0 | some t => now - Nat.max t since
  if now = since then 0 else Nat.min 0xFFF ((Tab.get 0 x.pausedNs c + open') * 4096 / (now - since))

def satU16 (n : Nat) : Nat := Nat.min 0xFFFF n

/-- The record of the interval. -/
def State.congRecord (s : State) (p : Nat) (since : Nat) : CongRec :=
  let x := s.port p
  let cs := List.range 4
  { time := s.ftimeWord.toNat % 2 ^ 48, port := p, mode := if s.windowMode p then 1 else 0, seq := x.congSeq,
    slotMiss := satU16 x.misses, schedPause := satU16 x.pauses,
    queued := cs.map (fun c => satU16 (x.queuedClass c / 256)),
    queuedMax := cs.map (fun c => satU16 (Nat.max (Tab.get 0 x.queuedMax c) (x.queuedClass c) / 256)),
    paused := cs.map (fun c => x.pausedPart c since s.now), flits := cs.map (fun c => Tab.get 0 x.flits c % 2 ^ 20),
    rxOcc := satU16 (64 * x.occTotal / 256), replays := satU16 x.replays, nonmin := satU16 x.nonmin,
    stomped := satU16 x.stomped }

/-- A port is sampled: the record joins its ring of 256, the counts of the interval start afresh, and TICK follows every 128
samples of port 0. -/
def execCongestionSample (p : BitVec 6) (s : State) : Out :=
  let n := p.toNat
  let x := s.port n
  let since := x.congTime.getD (s.now - 10000)
  let due := match x.congTime with | none => true | some t => decide (t + 10000 ≤ s.now)
  if decide (48 ≤ n) || !s.org.transitOn || decide (s.cong.enable ≠ 1) || !due then .next s
  else
    let paused := Tab.mapVals (none : Option Nat) (fun o => o.map (fun _ => s.now)) x.pausedFrom
    let s1 := s.setPort n
      { x with ring := pushLast 256 x.ring (s.congRecord n since), congSeq := x.congSeq + 1, congTime := some s.now,
               misses := 0, pauses := 0, flits := [], queuedMax := x.queuedNow, pausedNs := [], replays := 0, nonmin := 0,
               stomped := 0, pausedFrom := paused }
    if n ≠ 0 then .next s1
    else
      let k := s.cong.samples + 1
      if k % 128 = 0 then
        .next ({ s1 with cong := { s1.cong with samples := k, tick := s1.cong.tick + 1 } }.notify 0x4400)
      else .next { s1 with cong := { s1.cong with samples := k } }

end Sys2Proof.Machine
end

