-- ==== Sys2Proof/Machine/Routing.lean ====
section
/-! DEFINITION. Routing of packets by the die at which they enter, and packets that cannot be routed (08 R371-R374; 09 R410,
R413, R441, R456, R457, R815). A packet in a queue of this package holds the hops it has taken before it leaves. -/
namespace Sys2Proof.Machine

/-- The flow context of this chip that a packet of a flow belongs to: a source, or for a READ_RESP served here a sink. -/
def State.flowOfPeer (s : State) (sink : Bool) (chip : BitVec 16) (peer : BitVec 14) : Option Nat :=
  (s.fab.flows.find? (fun e => e.2.valid && e.2.sink == sink && e.2.peerChip == chip && e.2.peerFlow == peer)).map (fun e => e.1)

/-- Discards an unroutable packet at a die. -/
def State.dropUnreachable (s : State) (d : Die) (hops : Bool) : State :=
  s.modDie d (fun x => if hops then { x with discHops := x.discHops + 1 } else { x with discUnreachable := x.discUnreachable + 1 })

/-- An unflowed packet that cannot be delivered is recorded (R457); it stays in its store and is resent (R426). -/
def State.unflowedLost (s : State) (cause : Nat) (chip : BitVec 16) : State :=
  s.contained { unit := 8, cls := 3, cause := cause, index := noFlow.toNat, detail := chip.setWidth 32 } 1

/-- The address that an error of a packet names. -/
def Packet.address (k : Packet) : Word := k.dstChip ++ k.dstOff

/-- A packet of this package is unreachable: its flow ends, or it is recorded (R457). -/
def State.unreachableHere (s : State) (k : Packet) : State :=
  if k.flow = noFlow then s.unflowedLost flowUnreachable k.dstChip
  else match s.flowOfPeer (decide (k.kind = .readResp)) k.dstChip k.flow with
    | none => s
    | some i => s.endFlow i flowUnreachable true (Packet.address k) (some k.seq)

/-- The refusal that a transit die sends back; its third argument names the destination that could not be reached (log 23). -/
def State.refuseBack (s : State) (d : Die) (k : Packet) : State :=
  let p := s.newPacket k.srcChip 0 noCore .signal .nak d
    [k.seq.setWidth 64, BitVec.ofNat 64 flowUnreachable, BitVec.ofNat 64 (k.dstChip.toNat + 1)]
  s.inject d { p with flow := k.flow, epoch := k.epoch }

/-- A packet that cannot be routed from a die. -/
def State.unroutable (s : State) (d : Die) (e : RoutePkt) (hops : Bool) : State :=
  let s1 := (if e.arriving.isSome then s else s.leaveBuffer e).dropUnreachable d hops
  if !PKind.refusable e.pkt.kind then s1
  else if e.origin = ownInput then s1.unreachableHere e.pkt
  else s1.refuseBack d e.pkt

/-- A route choice that is in service, as the port that bears the name. -/
def State.usable (s : State) (name : Nat) : Option Nat :=
  if 48 ≤ name then none
  else
    let p := s.physicalOf name
    if s.portUp p then some p else none

/-- The deterministic choice and whether it is the DET_SEL port (R372). -/
def State.detPort (s : State) (e : Word) : Option (Nat × Bool) :=
  match s.usable (routeMin e (routeDet e)) with
  | some p => some (p, true)
  | none => (s.usable (routeBackup e)).map (fun p => (p, false))

/-- Bytes queued at a port on the lane that the packet would take there. -/
def State.load (s : State) (e : RoutePkt) (p : Nat) : Nat := (s.port p).queuedLane (laneOf e (isLocalPort p))

/-- The port with the fewest bytes queued, ties to the first. -/
def State.leastLoaded (s : State) (k : RoutePkt) (ps : List Nat) : Option Nat :=
  ps.foldl (fun (best : Option Nat) p => match best with
    | none => some p
    | some b => if s.load k p < s.load k b then some p else some b) none

/-- The choice of an Adaptive packet and whether it leaves non-minimally (R413). -/
def State.adaptivePort (s : State) (k : RoutePkt) (e : Word) : Option (Nat × Bool) :=
  let mins := (List.range 4).filterMap (fun i => s.usable (routeMin e i))
  let others := (List.range 2).filterMap (fun i => s.usable (routeNonmin e i))
  match s.leastLoaded k mins, (if k.pkt.hops = 0 then s.leastLoaded k others else none) with
  | some m, some n => if 2 * (s.load k n + 32768) < s.load k m then some (n, true) else some (m, false)
  | some m, none => some (m, false)
  | none, some n => some (n, true)
  | none, none => none

/-- Whether a packet takes the deterministic route: every class but Adaptive, and every READ_RESP (R427). -/
def deterministic (k : Packet) : Bool := decide (k.cls ≠ .adaptive) || decide (k.kind = .readResp)

/-- Puts a packet in the queue of its output port. A Scheduled packet off its DET_SEL port is off schedule while a schedule is active (R456,
R814). One for a port of the other die crosses bridge X (08 R374). -/
def State.routeTo (s : State) (d : Die) (e : RoutePkt) (p : Nat) (nonmin off : Bool) : State :=
  let sched := decide (e.pkt.cls = .scheduled)
  let k := { e.pkt with nonmin := e.pkt.nonmin || nonmin, offSched := e.pkt.offSched || (sched && ((off && s.sched.active) || !s.ftimeValid)) }
  let e1 : RoutePkt := { e with pkt := k, input := if portDie p == d then e.input else inputX }
  s.enqueue p { e1 with lane := laneOf e (isLocalPort p), since := s.now, missed := false, stomp := none }

/-- Routes one packet. One for this chip has arrived. -/
def State.routePacket (s : State) (d : Die) (e : RoutePkt) : State :=
  let k := e.pkt
  if k.dstChip = s.fab.chip then { s with fab := { s.fab with arrived := s.fab.arrived ++ [e] } }
  else if 5 ≤ k.hops then s.unroutable d e true
  else
    let r := s.route k.dstChip
    if !routeValid r then s.unroutable d e false
    else if deterministic k then
      match s.detPort r with
      | some (p, det) => s.routeTo d e p false !det
      | none => s.unroutable d e false
    else match s.adaptivePort e r with
      | some (p, nonmin) => s.routeTo d e p nonmin false
      | none => s.unroutable d e false

/-- The next packet that waits at a die is routed. -/
def execPacketRoute (d : Die) (s : State) : Out :=
  match (s.die d).toRoute with
  | [] => .next s
  | e :: rest => .next ((s.modDie d (fun x => { x with toRoute := rest })).routePacket d e)

end Sys2Proof.Machine
end

