-- ==== Sys2Proof/Machine/Tallies.lean ====
section
/-! DEFINITION. Tallies: TINC, TINC.L, TWAIT, TREAD, and the resending and timeout of tally writes (02 R139-R142; 06
R300-R308). -/
namespace Sys2Proof.Machine

/-- The core and tally that an offset of a tally page names. -/
def tallyOf (off : Nat) : Option (CoreId × Nat) :=
  match spaceOf off with
  | .core o r => if 0x1000 ≤ r ∧ r < 0x1200 ∧ r % 8 = 0 then some (o, (r - 0x1000) / 8) else none
  | _ => none

def Core.tally (k : Core) (t : Nat) : BitVec 32 := Tab.get 0 k.tallies t

/-- An increment reaches a tally of this chip: a region in reset discards it and reports it (01 R52). -/
def State.tallyAdd (s : State) (o : CoreId) (t : Nat) (n : BitVec 32) (affected : List CoreId) : State :=
  if (s.region (coreRegion o)).inReset then s.regionDiscard (coreRegion o) 1 affected
  else if s.coreAlive o then s.modCore o (fun k => k.addTally t n)
  else s

/-- An increment that reaches a tally is applied. -/
def State.tallyTakes (s : State) (o : CoreId) : Bool := !(s.region (coreRegion o)).inReset && s.coreAlive o

/-- TINC. An address that names no tally raises the access-fault trap (DEDUCED, log 24). -/
def execTinc (c : CoreId) (rs1 rs2 : Reg) (s : State) : Out :=
  s.issue c [.g rs1, .g rs2] (fun s =>
    let k := s.core c
    let a := k.getG rs1
    let n := (k.getG rs2).setWidth 32
    match tallyOf (addrOff a) with
    | none => .next (s.trap c 0x03 a k.pc)
    | some (o, t) =>
      match s.reach a with
      | .fault => .next (s.trap c 0x03 a k.pc)
      | .here =>
        if !s.coreServes o then .next (s.trap c 0x03 a k.pc)
        else if k.storesPending then .next (s.stallAt c .loadOrFence)
        else .next ((s.modCore c Core.retire).tallyAdd o t n [c])
      | .away chip =>
        if k.storesPending || k.abortClosed || decide (32 ≤ s.unacked c .tinc) || !s.storeRoom signalDie ||
            s.org.dieWaits s.org.requestPlane signalDie c true then
          .next (s.stallAt c .loadOrFence)
        else
          let p := s.newPacket chip (addrOff a) c .signal .tinc signalDie [n.setWidth 64]
          .next ((s.sendUnflowed signalDie p).modCore c (fun k => k.retire.count 0x073 1 k.pc 0)))

def execTincL (c : CoreId) (rs2 : Reg) (imm : BitVec 8) (s : State) : Out :=
  s.issue c [.g rs2] (fun s =>
    let k := s.core c
    if k.storesPending then .next (s.stallAt c .loadOrFence)
    else .next (s.setCore c (k.retire.addTally (imm.toNat % 64) ((k.getG rs2).setWidth 32))))

/-- TWAIT stalls until the tally has reached rs1 by signed 32-bit difference, or rs2 µs have passed when rs2 is not 0; time spent
parked does not count (11 R533). -/
def execTwait (c : CoreId) (rd rs1 rs2 : Reg) (imm : BitVec 8) (s : State) : Out :=
  s.issue c [.g rs1, .g rs2, .g rd] (fun s =>
    let k := s.core c
    let us := (k.getG rs2).toNat
    let wait : Stall := .twait rd (imm.setWidth 6) ((k.getG rs1).setWidth 32)
      (if us = 0 then none else some (s.runNow + 1000 * us))
    .next (s.setCore c ({ k.settleDrops with stall := wait }).checkTwait))

/-- The time of a TWAIT passes: it returns the tally as it stands. -/
def execTwaitTimeout (c : CoreId) (s : State) : Out :=
  let k := s.core c
  match k.stall with
  | .twait rd t _ (some deadline) =>
    if s.coreRuns c && decide (deadline ≤ s.runNow) then
      .next (s.setCore c ((k.setG rd ((k.tally t.toNat).setWidth 64)).retire))
    else .next s
  | _ => .next s

def execTread (c : CoreId) (rd : Reg) (imm : BitVec 8) (s : State) : Out :=
  s.issue c [.g rd] (fun s =>
    .next (s.modCore c (fun k => (k.setG rd ((k.tally (imm.toNat % 64)).setWidth 64)).retire)))

/-- A refused tally write is sent again 2 µs after its refusal (06 R305). -/
def execTallyWriteResend (i : Nat) (s : State) : Out :=
  match s.fab.sentTallies[i]? with
  | none => .next s
  | some t =>
    match t.refusedAt with
    | none => .next s
    | some at' =>
      if s.now < at' + 2000 then .next s
      else
        let s1 := { s with fab := { s.fab with sentTallies := s.fab.sentTallies.set i { t with refusedAt := none } } }
        .next (s1.inject (flowDie t.flow) t.pkt)

/-- The address of the tally that a tally write names. -/
def tallyAddr (p : Packet) : Word := p.dstChip ++ p.dstOff

/-- A tally write that a hold queue has held for more than 10 ms, or that has been neither held nor applied 10 ms after it was
first sent, ends its flow and interrupts the core (06 R306). That the other chip does not hold it is known there only:
whoever sends the command for a source says so (log 105). -/
def execTallyTimeout (d : Die) (held : Bool) (i : Nat) (s : State) : Out :=
  if held then
    match (s.die d).holds[i]? with
    | none => .next s
    | some h =>
      if s.now ≤ h.since + 10000000 then .next s
      else
        let s1 := (s.modDie d (fun x => { x with holds := x.holds.eraseIdx i })).endFlow h.flow flowTallyTimeout true
          (tallyAddr h.pkt) (some h.pkt.seq)
        match tallyOf (Packet.off h.pkt) with
        | none => .next s1
        | some (o, _) => .next (s1.modCore o (fun k => k.raiseInt 7 (tallyAddr h.pkt)))
  else
    match s.fab.sentTallies[i]? with
    | none => .next s
    | some t =>
      if decide (s.now < t.firstSent + 10000000) || decide (flowDie t.flow ≠ d) then .next s
      else
        let s1 := s.endFlow t.flow flowTallyTimeout true (tallyAddr t.pkt) (some t.pkt.seq)
        .next (s1.modCore t.pkt.srcCore (fun k => k.raiseInt 7 (tallyAddr t.pkt)))

end Sys2Proof.Machine
end

