-- ==== Sys2Proof/Machine/Transport.lean ====
section
/-! DEFINITION. Packets at their destination: acceptance by flow and by stream, what each kind does, acknowledgements,
refusals, audits and timeouts (09 R420-R430, R449, R451, R458; 06 R303-R308; 01 R68; 02 R91, R92; 16 R700). -/
namespace Sys2Proof.Machine

/-- A packet row names the packet that arrives; where the link layer of this model delivered it, it is taken from there, and its flits
leave the receive buffer. -/
def State.claim (s : State) (k : Packet) : State :=
  match takeFirst (fun (e : RoutePkt) => decide (e.pkt = k)) s.fab.arrived with
  | none => s
  | some (e, rest) => { s with fab := { s.fab with arrived := rest } }.leaveBuffer e

/-! ## Inbound checks (R458; 01 R68; 02 R91, R92) -/

/-- Where an inbound access may not go, the flow error that refuses it. -/
def State.inboundError (s : State) (d : Die) (off len : Nat) (wr : Bool) : Option Nat :=
  match spaceOf off with
  | .hbm =>
    if !s.populated off len || s.inCave off len then some flowAddress
    else match ratGovern (s.die d).inbound none off len with
      | none => some flowAddress
      | some e => if (if wr then e.write && e.remoteW else e.read) then none else some flowAddress
  | .vat c _ =>
    if !s.org.computeOn then some flowComputeDown
    else if !s.populated off len then some flowAddress
    else match (s.core c).govern off len with
      | none => some flowAddress
      | some e => if (if wr then e.write && e.remoteW else e.read) then none else some flowAddress
  | .core _ _ => if s.org.computeOn then some flowAddress else some flowComputeDown
  | _ => some flowAddress

/-- An access that is refused is discarded and counted at the die, and ends the flow at both ends. -/
def State.inboundRefuse (s : State) (i code : Nat) (k : Packet) : State :=
  let s1 := if code = flowAddress then s.modDie (flowDie i) (fun x => { x with discAddress := x.discAddress + 1 }) else s
  s1.endFlow i code true (Packet.address k) (some k.seq)

/-- The payload with the mark of each byte's word. -/
def payload (k : Packet) : List (Byte × Bool) :=
  let first := Packet.off k / 8
  k.data.zipIdx.map (fun b => (b.1, k.poison.getD ((Packet.off k + b.2) / 8 - first) false))

/-- Cores that a discard in a region concerns: the owner of the Vat written. -/
def ownersAt (off : Nat) : List CoreId :=
  match vatOwner off with
  | some c => [c]
  | none => []

/-! ## Lines of a packet ahead of the rest (05 R258, R259) -/

/-- What of a packet has been performed already. -/
def State.earlyOf (s : State) (k : Packet) : EarlyPkt :=
  match s.fab.early.find? (fun x => decide (x.pkt = k)) with
  | some x => x
  | none => { pkt := k, landed := [], read := [] }

def State.dropEarly (s : State) (k : Packet) : State :=
  if s.fab.early.isEmpty then s
  else { s with fab := { s.fab with early := s.fab.early.filter (fun x => decide (x.pkt ≠ k)) } }

def State.setEarly (s : State) (x : EarlyPkt) : State :=
  let s1 := s.dropEarly x.pkt
  { s1 with fab := { s1.fab with early := s1.fab.early ++ [x] } }

/-! ## Acknowledging (R423, R308) -/

/-- The lowest sequence that the sink may not yet acknowledge: the lowest not accepted, or that of a packet not yet performed, in
the reorder store or the hold queue, or of a tally write that was never applied (06 R308). -/
def State.ackPoint (s : State) (i : Nat) : BitVec 32 :=
  let f := s.flow i
  let waiting := (f.held ++ ((s.die (flowDie i)).holds.filter (fun h => h.flow = i)).map (fun h => h.pkt)).map (fun k => k.seq)
  (waiting ++ f.unapplied).foldl (fun (low : BitVec 32) q => if (q - low).msb then q else low) f.seq

/-- Window bytes of the packets that have been accepted and not performed. -/
def State.heldWindow (s : State) (i : Nat) : Nat :=
  (((s.flow i).held.map Packet.window).foldl (· + ·) 0) +
    64 * ((s.die (flowDie i)).holds.filter (fun h => h.flow = i)).length

/-- Sends the flow's ACK: ACK_SEQ, RETURNED, and whether a packet off schedule was seen. -/
def State.sendAck (s : State) (i : Nat) : State :=
  let f := s.flow i
  let f1 := { f with ackSeq := s.ackPoint i, returned := f.bytes - BitVec.ofNat 64 (s.heldWindow i), ackPending := false,
                     ackAt := s.now, ackBytes := 0, offSeen := false }
  let p := s.newPacket f.peerChip 0 noCore .signal .ack (flowDie i)
    [f1.ackSeq.setWidth 64, f1.returned, if f.offSeen then 1 else 0]
  (s.setFlow i f1).inject (flowDie i) { p with flow := f.peerFlow, epoch := f.epoch }

/-- A packet has been performed: its ACK waits, or is sent at once with ACK_NOW or after 64 KiB. -/
def State.performed (s : State) (i : Nat) (k : Packet) : State :=
  let f := s.flow i
  if f.err ≠ 0 then s
  else
    let n := f.ackBytes + Packet.window k
    let s1 := s.setFlow i { f with ackPending := true, ackAt := if f.ackPending then f.ackAt else s.now, ackBytes := n,
                                   offSeen := f.offSeen || k.offSched }
    if k.ackNow || decide (65536 ≤ n) then s1.sendAck i else s1

/-- The coalesced ACK of a flow is due 1 us after the first packet it covers. -/
def execAckCoalesce (flow : BitVec 14) (s : State) : Out :=
  let f := s.flow flow.toNat
  if f.valid && f.sink && f.ackPending && (decide (f.ackAt + 1000 ≤ s.now) || decide (65536 ≤ f.ackBytes)) then
    .next (s.sendAck flow.toNat)
  else .next s

/-! ## Tally writes (R429; 06 R303-R308) -/

/-- TALLY_ID, TALLY_CORE, TALLY_ADD and EXPECT of a tally write. -/
def tallyId (k : Packet) : Nat := fld (Packet.arg k 0) 63 58
def tallyCore (k : Packet) : CoreId := (Packet.arg k 0).extractLsb' 48 10
def tallyAmount (k : Packet) : Nat := fld (Packet.arg k 0) 47 33
def tallyExpect (k : Packet) : BitVec 32 := (Packet.arg k 0).setWidth 32

/-- Data packets counted that were sent after sequence `q`. -/
def Flow.countedPast (f : Flow) (q : BitVec 32) : Nat := (f.counted.filter (fun c => !(c - q).msb)).length

/-- The arrivals counted on the flow reach EXPECT, by signed difference (R303). Those sent after the tally write are none of the lines
that it counts, so they do not stand for them (05 R267; log 106). -/
def State.tallyMet (s : State) (i : Nat) (k : Packet) : Bool :=
  !((s.flow i).count - BitVec.ofNat 32 ((s.flow i).countedPast k.seq) - tallyExpect k).msb

/-- EXPECT is at most the source's COUNT, which no packet sent before the tally write exceeds (Table 9.12). -/
def expectWrong (k : Packet) : Bool := (k.seq - tallyExpect k).msb

/-- Counts an arrival. What was sent after a tally write that the flow still holds or awaits is remembered. -/
def State.countArrival (s : State) (i : Nat) (seq : BitVec 32) : State :=
  let f := s.flow i
  let low := ((s.die (flowDie i)).holds.filter (fun h => h.flow = i)).foldl
    (fun (low : BitVec 32) h => if (h.pkt.seq - low).msb then h.pkt.seq else low) f.seq
  s.setFlow i { f with count := f.count + 1, counted := (f.counted ++ [seq]).filter (fun q => !(q - low).msb) }

/-- Applies a tally write. One that is discarded, for a region or a core in reset, is never acknowledged (R308). -/
def State.applyTally (s : State) (i : Nat) (k : Packet) : State :=
  let s1 := s.tallyAdd (tallyCore k) (tallyId k) (BitVec.ofNat 32 (tallyAmount k)) [tallyCore k]
  if s.tallyTakes (tallyCore k) then s1.performed i k
  else s1.modFlow i (fun f => if f.valid && f.err = 0 then { f with unapplied := f.unapplied ++ [k.seq] } else f)

/-- Applies what the flow's hold queue holds and its count now meets, in order. -/
def State.applyHolds (s : State) (i : Nat) : State :=
  let d := flowDie i
  let ready := (s.die d).holds.filter (fun h => decide (h.flow = i) && s.tallyMet i h.pkt)
  let s1 := s.modDie d (fun x => { x with holds := x.holds.filter (fun h => !(decide (h.flow = i) && s.tallyMet i h.pkt)) })
  ready.foldl (fun s h => s.applyTally i h.pkt) s1

/-- The hold queue of a flow's die has room. -/
def State.holdRoom (s : State) (i : Nat) : Bool := decide ((s.die (flowDie i)).holds.length < 512)

/-- A tally write is applied, or held. -/
def State.takeTally (s : State) (i : Nat) (k : Packet) : State :=
  if !s.org.computeOn then s.inboundRefuse i flowComputeDown k
  else if !s.coreServes (tallyCore k) then s.inboundRefuse i flowAddress k
  else if expectWrong k then s.endFlow i flowAudit true (Packet.address k) (some k.seq)
  else if s.tallyMet i k then s.applyTally i k
  else s.modDie (flowDie i) (fun x => { x with holds := x.holds ++ [HeldTally.mk i k s.now] })

/-! ## What packets of a flow do -/

/-- An inbound access to HBM takes the edge path of its die after the Cave and receive-store traffic that waits there (10 R471). -/
def State.inboundTurn (s : State) (d : Die) (off : Nat) : State :=
  match spaceOf off with
  | .hbm => s.runMoves d
  | _ => s

/-- A WRITE: its lines are performed at their homes, and it counts as an arrival (R409, R430); a region in reset discards them,
and nothing is counted. -/
def State.takeWrite (s : State) (i : Nat) (k : Packet) : State :=
  let off := Packet.off k
  match s.inboundError (flowDie i) off k.data.length true with
  | some code => s.inboundRefuse i code k
  | none =>
    let s1 := ((s.inboundTurn (flowDie i) off).edgeRequest off).homeRest off (payload k) (ownersAt off) (s.earlyOf k).landed
    let s2 := if (s.homeAsleep off).isSome then s1 else s1.countArrival i k.seq
    (s2.performed i k).applyHolds i

/-- Cuts a response so that no packet crosses an aligned 4 KiB boundary of its destination: starts and lengths. -/
def respCuts (dst len : Nat) : Nat → List (Nat × Nat)
  | 0 => []
  | fuel + 1 =>
    if len = 0 then []
    else
      let n := Nat.min len (4096 - dst % 4096)
      (dst, n) :: respCuts (dst + n) (len - n) fuel

/-- A READ_REQ is served: READ_RESP packets in its class, each with its SEQ (R427); a region in
reset discards it and nothing returns (01 R52). -/
def State.takeReadReq (s : State) (i : Nat) (k : Packet) : State :=
  let off := Packet.off k
  let len := (Packet.arg k 1).toNat
  match s.inboundError (flowDie i) off len false with
  | some code => s.inboundRefuse i code k
  | none =>
    match s.homeAsleep off with
    | some r => ((s.edgeRequest off).regionDiscard r 1 (ownersAt off)).performed i k
    | none =>
      let early := (s.earlyOf k).read
      let s := (((s.inboundTurn (flowDie i) off).edgeRequest off).countLines (unread early off len)).vatRead off len
      let f := s.flow i
      let dst := addrOff (Packet.arg k 0)
      let cuts := respCuts dst len 3
      let s1 := cuts.foldl (fun (s : State) cut =>
        let from' := off + (cut.1 - dst)
        let bs := overlay early from' (s.loadHome from' cut.2)
        let last := decide (cut.1 + cut.2 = dst + len)
        let p := s.newPacket k.srcChip cut.1 k.srcCore k.cls .readResp (flowDie i) [k.seq.setWidth 64]
        s.inject (flowDie i)
          { p with flow := f.peerFlow, epoch := f.epoch, seq := k.seq, schedId := k.schedId, offSched := k.offSched,
                   last := last, data := bs.map (fun b => b.1), poison := wordMarks cut.1 bs }) s
      s1.performed i k

def State.takeFlowed (s : State) (i : Nat) (k : Packet) : State :=
  match k.kind with
  | .write => s.takeWrite i k
  | .readReq => s.takeReadReq i k
  | .tallyWrite => s.takeTally i k
  | _ => s

/-! ## Acceptance by flow (R420-R422) -/

/-- How far a sequence lies above the lowest not yet accepted; none below it or past the map. -/
def Flow.ahead (f : Flow) (seq : BitVec 32) : Option Nat :=
  let d := (seq - f.seq).toNat
  if d ≤ 1024 then some d else none

/-- The sink has not accepted the sequence. -/
def Flow.fresh (f : Flow) (seq : BitVec 32) : Bool :=
  match f.ahead seq with
  | none => false
  | some 0 => true
  | some (n + 1) => !f.rxMap.getLsbD n

/-- Marks a sequence as accepted; SEQ moves past every sequence accepted. -/
def Flow.mark (f : Flow) (seq : BitVec 32) : Flow :=
  match f.ahead seq with
  | none => f
  | some 0 =>
    let run := ((List.range 1024).takeWhile (fun i => f.rxMap.getLsbD i)).length
    { f with seq := f.seq + BitVec.ofNat 32 (run + 1), rxMap := f.rxMap >>> (run + 1) }
  | some (n + 1) => { f with rxMap := f.rxMap ||| (1 <<< n) }

/-- Bytes of the reorder store of a die in use. -/
def State.reorderUsed (s : State) (d : Die) : Nat :=
  (s.fab.flows.map (fun e => if flowDie e.1 == d then (e.2.held.map Packet.window).foldl (· + ·) 0 else 0)).foldl (· + ·) 0

/-- A tally write whose count is not met finds no room in its die's hold queue (06 R305). -/
def State.holdRefuses (s : State) (i : Nat) (k : Packet) : Bool :=
  decide (k.kind = .tallyWrite) && s.org.computeOn && !s.tallyMet i k && !s.holdRoom i

/-- The sink has not accepted `seq` after all: SEQ goes back to it, and the map keeps those above. -/
def Flow.unmark (f : Flow) (seq : BitVec 32) : Flow :=
  let n := (f.seq - seq).toNat
  { f with seq := seq, rxMap := (f.rxMap <<< n) ||| BitVec.ofNat 1024 (2 ^ (n - 1) - 1) }

/-- Refuses a tally write for a full hold queue. -/
def State.refuseTally (s : State) (i : Nat) (k : Packet) : State :=
  let f := s.flow i
  s.sendNak f.peerChip (flowDie i) f.peerFlow f.epoch k.seq holdFull

/-- Performs in order the held packets that no missing sequence holds back any more (R421). A tally write that then finds the hold
queue full is refused, and its sequence is missing again (06 R305). -/
def State.drainHeld (s : State) (i : Nat) : Nat → State
  | 0 => s
  | n + 1 =>
    let f := s.flow i
    match takeFirst (fun (k : Packet) => (k.seq - f.seq).msb &&
        f.held.all (fun o => !(o.seq - k.seq).msb)) f.held with
    | none => s
    | some (k, rest) =>
      let f1 := { f with held := rest, heldSince := f.heldSince.filter (fun e => e.1 ≠ k.seq) }
      if s.holdRefuses i k then
        (s.setFlow i { f1.unmark k.seq with missingSince := f1.missingSince ++ [(k.seq, s.now)] }).refuseTally i k
      else ((s.setFlow i f1).takeFlowed i k).drainHeld i n

/-- Signal and Scheduled packets of a flow are performed in SEQ order. -/
def inOrder (c : TClass) : Bool := decide (c = .scheduled) || decide (c = .signal)

/-- A duplicate, or a packet of another epoch or of a flow that is not open, is discarded and counted in the context. -/
def State.flowDiscard (s : State) (i : Nat) : State :=
  s.modFlow i (fun f => if f.valid then { f with discards := satAdd 0xFFFF f.discards 1 } else f)

/-- A packet of a flow reaches its sink. -/
def State.onFlow (s : State) (k : Packet) : State :=
  let i := k.flow.toNat
  let f := s.flow i
  if !f.valid || !f.sink || decide (f.err ≠ 0) || decide (f.epoch ≠ k.epoch) || decide (f.peerChip ≠ k.srcChip) ||
      !f.fresh k.seq then s.flowDiscard i
  else
    let early := inOrder k.cls && decide (f.seq ≠ k.seq)
    if !early && s.holdRefuses i k then s.refuseTally i k
    else if early && decide (4194304 < s.reorderUsed (flowDie i) + Packet.window k) then
      s.endFlow i flowReorderFull true (Packet.address k) (some k.seq)
    else
      let g := f.mark k.seq
      let g1 := { g with bytes := g.bytes + BitVec.ofNat 64 (Packet.window k), lastTime := BitVec.ofInt 48 s.ftime,
                         missingSince := g.missingSince.filter (fun e => e.1 ≠ k.seq) }
      if early then
        s.setFlow i { g1 with held := g1.held ++ [k], heldSince := g1.heldSince ++ [(k.seq, s.now)] }
      else
        let s1 := (s.setFlow i g1).takeFlowed i k
        (if g1.held.isEmpty then s1 else s1.drainHeld i (g1.held.length + 1)).applyHolds i

/-- The packet has arrived, or a port in service may bring it: a port in quarantine carries identity frames only (00 R4). -/
def State.hears (s : State) (k : Packet) : Bool := s.fab.arrived.any (fun e => decide (e.pkt = k)) || allPorts.any s.portUp

/-- A packet at its destination die waits while a region on its way through the mesh holds through-traffic (01 R51): its own way, or that
of what it lets go on its flow, packets in the reorder store and tally writes in the hold queue. It stays where it is, and its row has no
effect until the region lets it pass (log 124). -/
def State.packetWaits (s : State) (k : Packet) : Bool :=
  if s.org.requestPlane.held = 0 ∧ s.org.responsePlane.held = 0 then false
  else
    let i := k.flow.toNat
    let d := if k.flow = noFlow then k.srcDie else flowDie i
    let waits (p : Packet) : Bool := match p.kind with
      | .write => s.dieAccessWaits d (Packet.off p) false
      | .readReq => s.dieAccessWaits d (Packet.off p) true
      | .tallyWrite => s.org.dieWaits s.org.requestPlane d (tallyCore p) false
      | .readResp => s.dieAccessWaits d (Packet.off p) false
      | .tinc => s.dieAccessWaits d (Packet.off p) false
      | _ => false
    waits k || (decide (k.flow ≠ noFlow) && decide (k.kind ≠ .readResp) && ((s.flow i).held.any waits ||
      (s.die d).holds.any (fun h => decide (h.flow = i) && waits h.pkt)))

/-- A packet row acts on a packet of its own kind. -/
def onKind (s : State) (k : Packet) (kind : PKind) (f : State → State) : Out :=
  if k.kind = kind ∧ k.dstChip = s.fab.chip ∧ s.org.transitOn ∧ s.hears k = true ∧ s.packetWaits k = false then
    .next ((f (s.claim k)).dropEarly k)
  else .next s

def execWritePacket (k : Packet) (s : State) : Out := onKind s k .write (fun s => s.onFlow k)
def execReadReq (k : Packet) (s : State) : Out := onKind s k .readReq (fun s => s.onFlow k)
def execTallyWrite (k : Packet) (s : State) : Out := onKind s k .tallyWrite (fun s => s.onFlow k)

/-! ## At the source (R423, R427, R428) -/

/-- The source context that an answer names: open, of this epoch, with the sender at its other end. -/
def State.sourceOf (s : State) (k : Packet) : Option Nat :=
  let f := s.flow k.flow.toNat
  if f.valid && !f.sink && decide (f.err = 0) && decide (f.epoch = k.epoch) && decide (f.peerChip = k.srcChip) then
    some k.flow.toNat
  else none

/-- A sequence below ACK_SEQ. -/
def below (seq ack : BitVec 32) : Bool := (seq - ack).msb

/-- A read of the flow's owner whose response has not been written. -/
def State.readOpen (s : State) (i : Nat) (seq : BitVec 32) : Bool :=
  (s.core (s.flow i).owner).ladleTxs.any (fun t => decide (t.path = .read i seq) && !t.acked)

/-- ACK_SEQ as the last ACK gives it, but not past a read whose last response has not been written (R427). -/
def State.ackReach (s : State) (i : Nat) : BitVec 32 :=
  let f := s.flow i
  (f.sentAt.filter (fun e => s.readOpen i e.1)).foldl (fun (low : BitVec 32) e => if (e.1 - low).msb then e.1 else low) f.peerAck

/-- Marks the owner's transactions that an ACK covers. -/
def Core.ackTxs (k : Core) (i : Nat) (ack : BitVec 32) : Core :=
  let covered (t : LadleTx) : Bool := match t.path with
    | .write f q => decide (f = i) && below q ack
    | .tally f q => decide (f = i) && below q ack
    | _ => false
  { k with ladleTxs := mapIf covered (fun t => { t with acked := true }) k.ladleTxs }

/-- ACK_SEQ of a source moves on. What the sink has acknowledged beyond an open read is acknowledged; ACK_SEQ alone stops below it. -/
def State.moveAck (s : State) (i : Nat) : State :=
  let f := s.flow i
  let f1 := { f with ackSeq := s.ackReach i, sentAt := f.sentAt.filter (fun e => !below e.1 f.peerAck || s.readOpen i e.1) }
  (s.setFlow i f1).modCore f.owner (fun c => c.ackTxs i f.peerAck)

/-- The last READ_RESP of a request marks its transaction, and ACK_SEQ may move past it. -/
def State.readDone (s : State) (i : Nat) (seq : BitVec 32) : State :=
  let c := (s.flow i).owner
  let s1 := s.modFlow i (fun f => { f with sentAt := f.sentAt.filter (fun e => e.1 != seq) })
  let done (k : Core) : List LadleTx :=
    mapIf (fun (t : LadleTx) => decide (t.path = .read i seq)) (fun t => { t with acked := true }) k.ladleTxs
  (s1.modCore c (fun k => { k with ladleTxs := done k })).moveAck i

/-- Why a response may not be written, if it may not: a compute die in reset (R458), a Cave (07 R339), or an address where nothing is
(01 R68). -/
def State.respRefused (s : State) (k : Packet) : Option Nat :=
  let off := Packet.off k
  if decide (spaceOf off ≠ .hbm) && !s.org.computeOn then some flowComputeDown
  else if !s.populated off k.data.length || s.inCave off k.data.length then some flowAddress
  else none

/-- The requesting die writes the data of a response. -/
def execReadResp (k : Packet) (s : State) : Out :=
  onKind s k .readResp (fun s =>
    match s.sourceOf k with
    | none => s.flowDiscard k.flow.toNat
    | some i =>
      match s.respRefused k with
      | some code => s.inboundRefuse i code k
      | none =>
        let s1 := (s.inboundTurn (flowDie i) (Packet.off k)).homeRest (Packet.off k) (payload k) [(s.flow i).owner]
          (s.earlyOf k).landed
        if k.last then s1.readDone i k.seq else s1)

/-! ## Lines of a packet that has arrived -/

/-- The sink would perform a packet of a flow as soon as it acts: an access that nothing refuses, to a home that is awake. -/
def State.flowTakes (s : State) (k : Packet) (len : Nat) (wr : Bool) : Bool :=
  let i := k.flow.toNat
  let f := s.flow i
  f.valid && f.sink && decide (f.err = 0) && decide (f.epoch = k.epoch) && decide (f.peerChip = k.srcChip) && f.fresh k.seq &&
    !(inOrder k.cls && decide (f.seq ≠ k.seq)) && (s.inboundError (flowDie i) (Packet.off k) len wr).isNone

/-- A packet in the mesh is on its way to its homes. -/
def State.packetGoes (s : State) (k : Packet) : Bool :=
  s.org.transitOn && decide (k.dstChip = s.fab.chip) && !s.packetWaits k && (s.homeAsleep (Packet.off k)).isNone

/-- A home performs a line, or some bytes of a masked line, of a packet that has arrived. -/
def State.packetWriteLine (s : State) (n line : Nat) (mask : BitVec 64) : State :=
  match s.fab.arrived[n]? with
  | none => s
  | some e =>
    let k := e.pkt
    let takes : Option Nat := match k.kind with
      | .write => if s.flowTakes k k.data.length true then some k.flow.toNat else none
      | .readResp => if (s.respRefused k).isSome then none else s.sourceOf k
      | _ => none
    match takes with
    | none => s
    | some i =>
      if !s.packetGoes k then s
      else
        let x := s.earlyOf k
        let (m, s1) := (s.inboundTurn (flowDie i) (Packet.off k)).landEarly (Packet.off k) (payload k) line (Tab.get 0 x.landed line) mask
        s1.setEarly { x with landed := Tab.put 0 x.landed line m }

/-- A home reads a line for a READ_REQ that has arrived. -/
def State.packetReadLine (s : State) (n line : Nat) : State :=
  match s.fab.arrived[n]? with
  | none => s
  | some e =>
    let k := e.pkt
    let len := (Packet.arg k 1).toNat
    let x := s.earlyOf k
    if decide (k.kind ≠ .readReq) || !s.packetGoes k || !s.flowTakes k len false || !mayRead x.read (Packet.off k) len line then s
    else
      let (bs, s1) := (s.inboundTurn (flowDie k.flow.toNat) (Packet.off k)).readEarly line
      s1.setEarly { x with read := Tab.put [] x.read line bs }

/-- OFF_SCHED comes back from the sink: the context keeps it, and the owner takes interrupt 0x25 (R456). -/
def State.goOffSched (s : State) (i : Nat) : State :=
  let f := s.flow i
  if f.offSched then s
  else (s.setFlow i { f with offSched := true }).modCore f.owner (fun k => k.raiseInt 5 (BitVec.ofNat 64 i))

/-- An ACK of a flow: ACK_SEQ and RETURNED move on. -/
def State.ackFlow (s : State) (i : Nat) (k : Packet) : State :=
  let f := s.flow i
  let ack : BitVec 32 := (Packet.arg k 0).setWidth 32
  let ack1 := if below f.peerAck ack then ack else f.peerAck
  let back := Packet.arg k 1
  let f1 := { f with peerAck := ack1, returned := if f.returned.toNat < back.toNat then back else f.returned }
  let s1 := (s.setFlow i f1).moveAck i
  let s2 := { s1 with fab := { s1.fab with
    sentTallies := s1.fab.sentTallies.filter (fun t => !(decide (t.flow = i) && below t.pkt.seq ack1)) } }
  if Packet.arg k 2 ≠ 0 then s2.goOffSched i else s2

/-- An ACK of a stream: the packet leaves its store, and later ones may be sent (R426). -/
def State.ackStream (s : State) (k : Packet) : State :=
  let seq : BitVec 32 := (Packet.arg k 0).setWidth 32
  (s.modDie k.srcDie (fun x => { x with store := x.store.filter (fun u => !(u.pkt.dstChip == k.srcChip && u.pkt.seq == seq)) })
    ).pumpStream k.srcDie k.srcChip

def execAck (k : Packet) (s : State) : Out :=
  onKind s k .ack (fun s =>
    if k.flow = noFlow then s.ackStream k
    else match s.sourceOf k with
      | none => s
      | some i => s.ackFlow i k)

/-- A tally write was refused for a full hold queue: counted, and sent again 2 us later (06 R305). -/
def State.tallyRefused (s : State) (i : Nat) (seq : BitVec 32) : State :=
  let s1 := s.modFlow i (fun f => { f with refusals := satAdd 0xFFFF f.refusals 1 })
  let sent := mapIf (fun (t : SentTally) => decide (t.flow = i) && t.pkt.seq == seq)
    (fun t => { t with refusedAt := some s.now }) s1.fab.sentTallies
  { s1 with fab := { s1.fab with sentTallies := sent } }

/-- A NAK carries a refusal or an error to the other end of a flow; one from a transit die names the destination that it
could not reach. -/
def State.takeNak (s : State) (k : Packet) : State :=
  let cause := (Packet.arg k 1).toNat
  let away := (Packet.arg k 2).toNat
  if k.flow = noFlow then s.unflowedLost cause (if away = 0 then k.srcChip else BitVec.ofNat 16 (away - 1))
  else if away ≠ 0 then
    let chip := BitVec.ofNat 16 (away - 1)
    match s.flowOfPeer false chip k.flow with
    | some i => s.endFlow i cause true 0 (some ((Packet.arg k 0).setWidth 32))
    | none =>
      (match s.flowOfPeer true chip k.flow with
       | some i => s.endFlow i cause true 0 (some ((Packet.arg k 0).setWidth 32))
       | none => s)
  else
    let i := k.flow.toNat
    let f := s.flow i
    if !f.valid || decide (f.epoch ≠ k.epoch) || decide (f.peerChip ≠ k.srcChip) then s
    else if cause = holdFull then s.tallyRefused i ((Packet.arg k 0).setWidth 32)
    else s.endFlow i cause false 0 (some ((Packet.arg k 0).setWidth 32))

def execNak (k : Packet) (s : State) : Out := onKind s k .nak (fun s => s.takeNak k)

/-! ## Streams of unflowed packets (R425) -/

def State.rxStream (s : State) (d : Die) (chip : BitVec 16) : RxStream :=
  ((s.die d).rx.find? (fun r => r.chip == chip && r.die == d)).getD { chip := chip, die := d, low := 0, map := 0, held := [] }

def State.setRxStream (s : State) (d : Die) (r : RxStream) : State :=
  s.modDie d (fun x =>
    if x.rx.any (fun o => o.chip == r.chip && o.die == r.die) then
      { x with rx := mapIf (fun (o : RxStream) => o.chip == r.chip && o.die == r.die) (fun _ => r) x.rx }
    else { x with rx := x.rx ++ [r] })

/-- Moves the lowest sequence past those accepted; bit `i` of the map stands for `low` + i. -/
def RxStream.slide (r : RxStream) : Nat → RxStream
  | 0 => r
  | n + 1 => if r.map.getLsbD 0 then RxStream.slide { r with low := r.low + 1, map := r.map >>> 1 } n else r

/-- A message of the stream that is still on its way to a queue. -/
def State.messageOpen (s : State) (d : Die) (k : Packet) : Bool :=
  s.dieMsgs.any (fun e => e.1 == d && decide (e.2.id = k.seq.toNat) && e.2.srcChip == k.srcChip) ||
  (match doorbellOf (Packet.off k) with
   | none => false
   | some (c, q) =>
     ((s.core c).queue q).msgs.any (fun m =>
       decide (m.via = some d) && decide (m.id = k.seq.toNat) && m.srcChip == k.srcChip && !m.ended))

/-- The abort that an ABORT packet brings (16 R700): performed and forwarded, or discarded and counted. -/
def State.abortIn (s : State) (k : Packet) : State :=
  let a := s.faults.abortWest
  let job := Packet.arg k 0
  let w5 := Packet.arg k 1
  let both (f : AbortCtx → AbortCtx) (s : State) : State :=
    { s with faults := { s.faults with abortWest := f s.faults.abortWest, abortEast := f s.faults.abortEast } }
  if a.jobId ≠ job then both (fun x => { x with stale := x.stale + 1 }) s
  else if a.aborted then both (fun x => { x with abortsIn := x.abortsIn + 1 }) s
  else
    let s1 := s.faultRecord
      { unit := 0x0B, cls := 3, source := 3, cause := 0x50, originChip := w5.extractLsb' 48 16, originSeq := w5.setWidth 32 }
    let s2 := s1.abortPerform s1.faults.seq
    let chips := if !(a.valid && a.leader) then []
      else if a.memberChips.contains k.srcChip then a.leaderChips ++ a.memberChips.filter (fun c => c ≠ k.srcChip)
      else a.memberChips
    { s2 with faults := { s2.faults with
      abortSends := s2.faults.abortSends ++ abortPackets job w5 chips } }

/-- A MESSAGE waits at the die for its queue; one whose address is no doorbell of a present core is discarded, counted and
refused (01 R68). -/
def State.takeMessage (s : State) (d : Die) (k : Packet) : State :=
  match doorbellOf (Packet.off k) with
  | none => ((s.modDie d (fun x => { x with discAddress := x.discAddress + 1 })).ackUnflowed k.srcChip d k.seq).sendNak
      k.srcChip d noFlow 0 k.seq flowAddress
  | some (c, _) =>
    if !s.coreServes c then
      ((s.modDie d (fun x => { x with discAddress := x.discAddress + 1 })).ackUnflowed k.srcChip d k.seq).sendNak
        k.srcChip d noFlow 0 k.seq flowAddress
    else if (s.queueAsleep (Packet.off k)).isSome then
      (s.ackUnflowed k.srcChip d k.seq).discardMsg c (Packet.arg k 0).toNat
    else
      let n := (Packet.arg k 0).toNat
      let bs := payload k
      let words := (List.range n).map (fun i =>
        (BitVec.ofNat 64 (leValue (((bs.drop (8 * i)).take 8).map (fun b => b.1))), (bs.getD (8 * i) (0, false)).2))
      let m : OutMsg := { id := k.seq.toNat, srcChip := k.srcChip, srcCore := k.srcCore, dst := Packet.address k, words := words,
                          admitted := false }
      { s with dieMsgs := s.dieMsgs ++ [(d, m)] }

/-- What a Signal packet of a stream does, and its acknowledgement. Of the ARGS of BARRIER_ARRIVE and BARRIER_RELEASE the spec says only
"Context, generation": W4 modulo 256 and the low half of W5 (DESIGN CHOICE, log 136). -/
def State.takeSignal (s : State) (d : Die) (k : Packet) : State :=
  let s1 := match k.kind with
    | .tinc =>
      (match tallyOf (Packet.off k) with
       | none => s.modDie d (fun x => { x with discAddress := x.discAddress + 1 })
       | some (o, t) =>
         if s.coreServes o then s.tallyAdd o t ((Packet.arg k 0).setWidth 32) [o]
         else s.modDie d (fun x => { x with discAddress := x.discAddress + 1 }))
    | .barrierArrive => s.barrierArrival ((Packet.arg k 0).toNat % 256) ((Packet.arg k 1).setWidth 32) k.srcChip
    | .barrierRelease => s.barrierReleased ((Packet.arg k 0).toNat % 256) ((Packet.arg k 1).setWidth 32) k.srcChip
    | .abort => s.abortIn k
    | _ => s
  s1.ackUnflowed k.srcChip d k.seq

/-- Performs the held Signal packets that are in sequence, lowest first. While COMPUTE is down one for a tally or a barrier context is
refused (R458). -/
def State.drainStream (s : State) (d : Die) (chip : BitVec 16) : Nat → State
  | 0 => s
  | n + 1 =>
    let r := s.rxStream d chip
    match takeFirst (fun (k : Packet) => (k.seq - r.low).msb && r.held.all (fun o => !(o.seq - k.seq).msb)) r.held with
    | none => s
    | some (k, rest) =>
      let s1 := s.setRxStream d { r with held := rest }
      (if s.org.computeOn || decide (k.kind = .abort) then s1.takeSignal d k
       else (s1.ackUnflowed chip d k.seq).sendNak chip d noFlow 0 k.seq flowComputeDown).drainStream d chip n

/-- A packet of a stream is accepted once: duplicates are acknowledged again and discarded; one 64 or more above the lowest
sequence not yet accepted is discarded without acknowledgement. -/
def State.onStream (s : State) (k : Packet) : State :=
  let d := k.srcDie
  let r := s.rxStream d k.srcChip
  let n := (k.seq - r.low).toNat
  if 0x80000000 ≤ n then (if s.messageOpen d k then s else s.ackUnflowed k.srcChip d k.seq)
  else if 64 ≤ n then s.modDie d (fun x => { x with discStream := x.discStream + 1 })
  else if r.map.getLsbD n then
    (if s.messageOpen d k || r.held.any (fun o => o.seq == k.seq) then s else s.ackUnflowed k.srcChip d k.seq)
  else
    let r1 := RxStream.slide { r with map := r.map ||| (1 <<< n) } 64
    if k.kind = .message then
      let s1 := (s.setRxStream d r1).takeMessage d k
      s1.drainStream d k.srcChip (r1.held.length + 1)
    else
      let s1 := s.setRxStream d { r1 with held := r1.held ++ [k] }
      s1.drainStream d k.srcChip (r1.held.length + 2)

/-- A packet for a queue, a tally or a barrier context is refused while COMPUTE is down (R458). -/
def State.onCompute (s : State) (k : Packet) : State :=
  if s.org.computeOn then s.onStream k
  else s.sendNak k.srcChip k.srcDie noFlow 0 k.seq flowComputeDown

def execMessagePacket (k : Packet) (s : State) : Out := onKind s k .message (fun s => s.onCompute k)
def execTincPacket (k : Packet) (s : State) : Out := onKind s k .tinc (fun s => s.onCompute k)
def execBarrierArrive (k : Packet) (s : State) : Out := onKind s k .barrierArrive (fun s => s.onCompute k)
def execBarrierRelease (k : Packet) (s : State) : Out := onKind s k .barrierRelease (fun s => s.onCompute k)
def execAbortPacket (k : Packet) (s : State) : Out := onKind s k .abort (fun s => s.onStream k)

/-! ## Resending and timeouts (R422, R424, R426) -/

/-- An unflowed packet without acknowledgement is sent again, and the next wait is twice as long, up to 12.8 ms. -/
def execUnflowedResend (d : Die) (i : Nat) (s : State) : Out :=
  match (s.die d).store[i]? with
  | none => .next s
  | some u =>
    if !u.sent || decide (s.now < u.sentTime + u.wait) then .next s
    else
      let s1 := s.modDie d (fun x =>
        { x with store := x.store.set i { u with sentTime := s.now, wait := Nat.min 12800000 (2 * u.wait) } })
      .next (s1.inject d u.pkt)

/-- Since when missing sequence `m` has held an accepted packet back: the acceptance of the first packet held above it, or its own
refusal where that is later. -/
def Flow.blocksSince (f : Flow) (m : BitVec 32) : Option Nat :=
  let above := (f.heldSince.filter (fun e => !(e.1 - m).msb)).map (fun e => e.2)
  let from' := ((f.missingSince.find? (fun e => e.1 == m)).map (fun e => e.2)).getD 0
  above.min?.map (Nat.max from')

/-- Since when the sequence that has been missing longest has held a packet back (R422). -/
def Flow.gapSince (f : Flow) : Option Nat :=
  if f.held.isEmpty then none
  else
    let missing := ((List.range 1025).map (fun n => f.seq + BitVec.ofNat 32 n)).filter (fun q => f.fresh q)
    (missing.filterMap f.blocksSince).min?

def execGapTimeout (flow : BitVec 14) (s : State) : Out :=
  let f := s.flow flow.toNat
  match f.gapSince with
  | none => .next s
  | some t =>
    if f.sink && decide (t + (if f.site then 5000000 else 100000) ≤ s.now) then
      .next (s.endFlow flow.toNat flowGapTimeout true)
    else .next s

def execAckTimeout (flow : BitVec 14) (s : State) : Out :=
  let f := s.flow flow.toNat
  match f.sentAt with
  | [] => .next s
  | (seq, t) :: _ =>
    if !f.sink && decide (t + (if f.site then 25000000 else 10000000) ≤ s.now) then
      .next (s.endFlow flow.toNat flowAckTimeout true 0 (some seq))
    else .next s

/-! ## Audits (R449, Table 9.12) -/

/-- The period of audits: the schedule's, or 8,388,608 ns. -/
def State.auditPeriod (s : State) : Nat := if s.sched.active then s.sched.activeSlots * 2048 else 8388608

/-- A window flow audits its sink; a source whose bytes in flight pass WINDOW has failed already. -/
def execAuditSend (flow : BitVec 14) (s : State) : Out :=
  let i := flow.toNat
  let f := s.flow i
  if !f.valid || f.sink || !f.winEn || decide (f.err ≠ 0) || decide (s.now < f.auditAt + s.auditPeriod) then .next s
  else if f.window.toNat < f.inFlight then .next (s.endFlow i flowAudit true)
  else
    let s1 := s.setFlow i { f with auditAt := s.now }
    let p := s.newPacket f.peerChip 0 noCore .signal .audit (flowDie i) [f.bytes, f.returned, f.count.setWidth 64]
    .next (s1.inject (flowDie i) { p with flow := f.peerFlow, epoch := f.epoch })

/-- The sink checks the source's figures against its own. -/
def execAudit (k : Packet) (s : State) : Out :=
  onKind s k .audit (fun s =>
    let i := k.flow.toNat
    let f := s.flow i
    if !f.valid || !f.sink || decide (f.err ≠ 0) || decide (f.epoch ≠ k.epoch) || decide (f.peerChip ≠ k.srcChip) then s
    else
      let ok := decide (f.bytes.toNat ≤ (Packet.arg k 0).toNat) && decide (f.returned.toNat ≤ f.bytes.toNat) &&
        decide ((Packet.arg k 1).toNat ≤ f.returned.toNat) && !((Packet.arg k 2).setWidth 32 - f.count).msb
      if ok then s else s.endFlow i flowAudit true)

end Sys2Proof.Machine
end

