-- ==== Sys2Proof/Machine/Time.lean ====
section
/-! DEFINITION. Fabric time and schedules: beacons, the error bound, primaries, the commit and activation of schedule
tables (09 R431-R443; 10 R475-R477). -/
namespace Sys2Proof.Machine

/-! ## Beacons (R431, 10 R475) -/

/-- The neighbour's offset from the four times of 10 R475: on a site link less this port's ASYMMETRY_NS. -/
def beaconOffset (t1 t2 t3 t4 asym : Int) : Int := ((t2 - t1) - (t4 - t3) - asym) / 2

/-- The sending time of the own beacon whose receipt at `t2` the neighbour reports: of those sent, the one for which both ways together
took the time nearest to twice the measured one (DESIGN CHOICE, log 128: a beacon does not say which beacon it answers). -/
def Port.beaconAnswered (x : Port) (t2 t3 t4 link : Int) : Option Int :=
  let aim := t4 - (t3 - t2) - 2 * link
  x.beaconTimes.foldl (fun (best : Option Int) t => match best with
    | none => some t
    | some b => if (t - aim).natAbs ≤ (b - aim).natAbs then some t else some b) none

/-- The offset of a port's neighbour by a beacon that arrives now; none before the two-way exchange is complete (R431). -/
def State.offsetBy (s : State) (p : Nat) (b : BeaconData) : Option Int :=
  let x := s.port p
  let q := s.sitePort p
  let link : Int := if s.isSite p then q.linkNs else x.flightNs
  if b.t2 = 0 then none
  else (x.beaconAnswered b.t2 b.t3 s.ftime link).map (fun t1 =>
    beaconOffset t1 b.t2 b.t3 s.ftime (if s.isSite p then q.asymmetry else 0))

/-- `d` held within plus or minus `m`. -/
def clampInt (d : Int) (m : Int) : Int := if d < -m then -m else if m < d then m else d

/-- Moves fabric time towards the parent: a step while acquiring, else at most 1 ns per us. -/
def State.slew (s : State) (off : Int) : State :=
  let t := s.time
  if t.state = 1 then
    let s1 := { s with ftime := s.ftime + off }
    s1.setTime { t with state := if t.bound ≤ t.limit then 2 else 0, slewAt := s.now }
  else
    let m : Int := ((s.now - t.slewAt) / 1000 : Nat)
    { s with ftime := s.ftime + clampInt off m, time := { t with slewAt := s.now } }

/-- ASYM_MISMATCH stands while the two ends differ by more than 1 ns (10 R476). -/
def State.checkAsym (s : State) (p : Nat) (peer : Int) : State :=
  if !s.isSite p then s
  else
    let q := s.sitePort p
    let bad := decide (1 < (peer + q.asymmetry).natAbs)
    s.setSitePort p { q with cause := if bad then 0x06 else if q.cause = 0x06 then 0 else q.cause }

def execBeacon (p : BitVec 6) (b : BeaconData) (s : State) : Out :=
  let n := p.toNat
  if !s.portUp n then .next s
  else
    let off := s.offsetBy n b
    let s1 := (s.checkAsym n b.asymmetry).modPort n (fun x =>
      { x with offset := off.getD x.offset, beaconRecv := s.ftime, nbStratum := b.stratum, nbBound := b.bound, nbValid := b.valid,
               nbPrimary := b.reachesPrimary, nbSite := b.acrossSite })
    let s2 := s1.follow
    match off with
    | some d => .next (if s2.time.role ≠ 1 ∧ s2.time.parent = n then s2.slew d else s2)
    | none => .next s2

/-- A beacon goes to VL8 every 10 us, with the fabric time, which its departure writes afresh, the receive time of the neighbour's last beacon,
and on a site link ASYMMETRY_NS. -/
def execBeaconSend (p : BitVec 6) (s : State) : Out :=
  let n := p.toNat
  let x := s.port n
  let due := match x.beaconSent with | none => true | some t => decide (t + 10000 ≤ s.now)
  if !s.portUp n || !due then .next s
  else
    let asym : Int := if s.isSite n then (s.sitePort n).asymmetry else 0
    let k := s.newPacket (BitVec.ofNat 16 x.nbChip) 0 noCore .signal .beacon (portDie n)
      [s.ftimeWord, BitVec.ofInt 64 x.beaconRecv, BitVec.ofInt 64 asym]
    .next ((s.setPort n { x with beaconSent := some s.now }).enqueue n (s.ownAt n { k with injectTime := BitVec.ofInt 48 s.ftime } 8))

/-! ## Without a parent, and primaries (R433, R434) -/

/-- Each ms without a parent adds 10 ns to the bound, also once time is not valid; past the limit it is not. -/
def execTimeNoParent (s : State) : Out :=
  let t := s.time
  match t.noParentSince with
  | none => .next s
  | some at' =>
    if t.role = 1 ∨ (t.role = 2 ∧ t.stratum = 0) ∨ t.parent ≠ noPort ∨ s.now < at' + 1000000 then .next s
    else
      let bound := t.bound + 10
      .next (s.setTime { t with bound := bound, noParentSince := some (at' + 1000000),
                                state := if t.state < 2 ∨ t.limit < bound then 0 else 3 })

/-- A backup primary that has had no parent reaching the primary for 1 ms takes stratum 0, with the primary's bound (log 30). -/
def execBackupPrimaryClaim (s : State) : Out :=
  let t := s.time
  match t.noPrimarySince with
  | none => .next s
  | some at' =>
    if t.role ≠ 2 ∨ t.stratum = 0 ∨ !s.org.transitOn ∨ s.now < at' + 1000000 then .next s
    else .next (s.setTime { t with stratum := 0, bound := 2, parent := noPort, state := 2, limit := 20, noParentSince := none, slewAt := s.now })

/-- The primary's own time: stratum 0, bound 2 ns, valid. -/
def TimeSt.asPrimary (t : TimeSt) (now : Nat) : TimeSt :=
  { t with stratum := 0, bound := 2, parent := noPort, state := 2, limit := 20, noParentSince := none, noPrimarySince := none,
           slewAt := now }

/-- Fabric time as it begins with TRANSIT. -/
def State.timeStart (s : State) : State :=
  if s.time.role = 1 then s.setTime (s.time.asPrimary s.now)
  else s.setTime { s.time with noParentSince := some s.now, noPrimarySince := some s.now }

/-- ROLE of object 0x4010. -/
def State.wTimeRole (s : State) (v : Nat) : WriteOut :=
  if 2 < v then s.deny stInvalid
  else
    let t := s.time
    let s1 := { s with time := { t with role := v } }
    let s2 := if v = 1 then (if s.org.transitOn then s1.setTime (s1.time.asPrimary s.now) else s1)
      else if t.role = 1 then
        (s1.setTime { s1.time with stratum := 0xFF, state := if t.state = 2 then 3 else t.state, noParentSince := some s.now,
                                   noPrimarySince := some s.now }).follow
      else s1.follow
    (s2.storeValue 0x4010 1).done

/-- A rising edge on PPS_IN marks the second: the primary slews its time to the nearest one. -/
def execPpsInPulse (s : State) : Out :=
  let s1 := { s with tray := { s.tray with pps := some s.now } }
  if s.time.role = 1 ∧ s.org.transitOn then
    let r := s.ftime % 1000000000
    .next (s1.slew (if r < 500000000 then -r else 1000000000 - r))
  else .next s1

/-! ## Schedules (R437, R442, R443) -/

/-- STATE of object 0x4300. -/
def State.schedState (s : State) : Nat :=
  if !s.sched.active then 0 else if !s.ftimeValid then 3 else if s.sched.armed.isSome then 2 else 1

/-- Slot entries of a table. -/
def slotEntries (bs : List Byte) (n : Nat) : List (BitVec 32) :=
  (List.range n).map (fun i => BitVec.ofNat 32 (leValue ((bs.drop (4 * i)).take 4)))

/-- A port's shadow table is written whole: 4 bytes for each of SLOTS slots, no reserved bit set. -/
def State.wSchedTable (s : State) (p : Nat) (v : List Byte) : WriteOut :=
  if v.length ≠ 4 * s.sched.slots then s.deny stLength
  else if (slotEntries v s.sched.slots).any (fun e => e &&& 0x7FFF0000 ≠ 0) then s.deny stInvalid
  else (s.modPort p (fun x => { x with schedShadow := v })).done

/-- COMMIT of object 0x4300 arms the shadow of every port. -/
def State.wSchedCommit (s : State) (v : Nat) : WriteOut :=
  let c := s.sched
  if v ≠ 1 || !s.ftimeValid || decide ((c.start.toNat : Int) < s.ftime + 1000000) || decide (c.slots = 0) ||
      decide (4096 < c.slots) then s.deny stInvalid
  else { s with sched := { c with armed := some (c.shadowId, c.slots, c.start) } }.done

/-- At fabric time START the armed schedule becomes active on every port. -/
def execScheduleActivate (s : State) : Out :=
  match s.sched.armed with
  | none => .next s
  | some (id, slots, start) =>
    if s.ftime < (start.toNat : Int) then .next s
    else
      let s1 := { s with sched := { s.sched with activeId := id, activeSlots := slots, activeStart := (start.toNat : Int),
                                                 active := true, armed := none, epoch := s.sched.epoch + 1 } }
      .next ((allPorts.foldl (fun (s : State) p =>
        s.modPort p (fun x => { x with schedActive := slotEntries x.schedShadow slots })) s1).notify 0x4300)

end Sys2Proof.Machine
end

