-- ==== Sys2Proof/Machine/Firmware.lean ====
section
/-! DEFINITION. Firmware, identity and attestation (17 R725-R766): image checks, update sessions, sources of blocks, repair,
attestation reports, the owner lock. -/
namespace Sys2Proof.Machine

/-! ## The descriptor (Tables 17.1, 17.3) -/

def blockBytes : Nat := 4096

def descType (d : List Byte) : Nat := bitsOf (wordOf d 0) 55 48
def descRegime (d : List Byte) : Nat := bitsOf (wordOf d 0) 47 40
def descVariants (d : List Byte) : Nat := bitsOf (wordOf d 0) 39 32
def descLength (d : List Byte) : Nat := bitsOf (wordOf d 2) 63 32
def descBody (d : List Byte) : Nat := bitsOf (wordOf d 2) 31 0
def descTable (d : List Byte) : Nat := bitsOf (wordOf d 3) 63 32
def descTotal (d : List Byte) : Nat := 1 + descTable d + descBody d
def descDigest (d : List Byte) : List Byte := (d.drop 32).take 48
def imageIdOf (d : List Byte) : List Byte := (Config.sha384 (d.take 128)).take 16

def ceilDiv (n k : Nat) : Nat := (n + k - 1) / k

/-- The bytes that a slot of each type holds. -/
def slotBytes (type : Nat) : Nat :=
  if type = 1 then 0x40000 else if type = 2 then 0x800000 else if type = 3 then 0x600000
  else if type = 4 then 0x1C00000 else if type = 5 then 0x7000000 else 0x100000

/-- RIND is hitless; every other image is staged. -/
def isStaged (type : Nat) : Bool := decide (type ≠ 2)

/-- Code 0x0006: FORMAT, REGIME, reserved fields, BODY_BLOCKS against LENGTH, and R734. -/
def descFormat (type : Nat) (d : List Byte) : Bool :=
  let body := descBody d
  let small := decide (1 + body ≤ 4096)
  decide (d.length = blockBytes) && decide (bitsOf (wordOf d 0) 63 56 = 1) && decide (bitsOf (wordOf d 0) 31 0 = 0) &&
    decide (descVariants d < 8) && decide (bitsOf (wordOf d 1) 15 0 = 0) && decide (bitsOf (wordOf d 3) 31 0 = 0) &&
    (decide (type = 6) || (decide (wordOf d 10 = 0) && decide (wordOf d 11 = 0))) &&
    [12, 13, 14, 15].all (fun i => decide (wordOf d i = 0)) && (d.drop 3501).all (fun b => b = 0) &&
    (if descRegime d = 1 then small && decide (body = ceilDiv (descLength d) 4092) && decide (descTable d = 0)
     else decide (descRegime d = 2) && !small && decide (body = ceilDiv (descLength d) 4096) &&
       decide (descTable d = ceilDiv (32 * body) 4096))

/-- Code 0x0007: both signatures over the digest of bytes 0-127. -/
def descSigned (type : Nat) (d : List Byte) : Bool :=
  let keys := if type = 6 then Config.factoryKeys else Config.imageKeys
  let digest := Config.sha384 (d.take 128)
  Config.ed25519Ok keys digest ((d.drop 128).take 64) && Config.mldsaOk keys digest ((d.drop 192).take 3309)

/-- The slot of a type that runs: for RIND, the active controller's. -/
def State.runSlot (s : State) (t : Nat) : Nat := if t = 2 then (if s.rind.b = .active then 1 else 0) else (s.image t).active

def State.runningSlot (s : State) (t : Nat) : Slot := (s.image t).slot (s.runSlot t)

/-- The slot that a transfer writes: the one that is not active, and for RIND the standby's. -/
def State.targetSlot (s : State) (t : Nat) : Nat := 1 - s.runSlot t

/-- The first descriptor check that fails, in the order of Table 17.4; 0 when none does. -/
def State.descCode (s : State) (type : Nat) (d : List Byte) : Nat :=
  let major := (versionOf (s.runningSlot 2).desc).1
  let now := (versionOf d).1
  if !descFormat type d then 0x06
  else if !descSigned type d then 0x07
  else if descType d ≠ type then 0x08
  else if !(descVariants d).testBit (s.org.record.variant - 1) ||
      (decide (type = 6) && decide ((d.drop 80).take 16 ≠ s.ownSerial)) then 0x09
  else if (securityVersion d).toNat < (s.image type).floor.toNat then 0x0A
  else if type = 2 ∧ now ≠ major ∧ now ≠ major + 1 then 0x0B
  else if slotBytes type < descTotal d * blockBytes then 0x0C
  else 0

/-! ## Blocks (R732, R733, R736, R737) -/

/-- SHA-256 of a body block as the table gives it. -/
def Slot.tableEntry (x : Slot) (i : Nat) : List Byte :=
  let t := (List.range (descTable x.desc)).flatMap (fun k => Tab.get [] x.blocks (k + 1))
  (t.drop (32 * i)).take 32

/-- The digest of what is stored: the body in regime 0x01, the block table in regime 0x02. -/
def Slot.digestOk (x : Slot) : Bool :=
  let n := if descRegime x.desc = 1 then descBody x.desc else descTable x.desc
  Config.sha384 ((List.range n).flatMap (fun k => Tab.get [] x.blocks (k + 1))) = descDigest x.desc

/-- A block's own check. -/
def Slot.blockOk (x : Slot) (i : Nat) (bs : List Byte) : Bool :=
  let d := x.desc
  if bs.length ≠ blockBytes then false
  else if descRegime d = 1 then crc32c (bs.take 4092) == BitVec.ofNat 32 (leValue (bs.drop 4092))
  else if i ≤ descTable d then true
  else Config.sha256 bs = x.tableEntry (i - 1 - descTable d)

/-- Blocks not yet stored, ascending. -/
def missingBlocks (total : Nat) (got : List Nat) : List Nat := (List.range total).filter (fun i => !got.contains i)

def State.modSlot (s : State) (t n : Nat) (f : Slot → Slot) : State :=
  s.setImage t ((s.image t).setSlot n (f ((s.image t).slot n)))

/-- A program step of flash may start: HOLDUP_OK is high and EJECT_N deasserted (13 R597). -/
def State.flashOpen (s : State) : Bool := s.tray.holdup && !s.tray.eject

/-- Writes a block that has been read back. -/
def State.storeBlock (s : State) (t n i : Nat) (bs : List Byte) : State :=
  s.modSlot t n (fun x => { x with blocks := Tab.put [] x.blocks i bs })

/-! ## Sources (R739-R741): 0 tray, 1 peer flash, 2 fabric neighbours, 3 recovery server -/

/-- Ports that a PIECE_REQ may take. -/
def State.piecePorts (s : State) : List Nat := allPorts.filter (fun p => s.portUp p && decide (2 ≤ (s.port p).runMinor))

def State.sourceAvailable (s : State) (t : Nat) (id : List Byte) (src : Nat) : Bool :=
  if src = 0 then s.tray.auxPg && decide (s.tray.format / 256 = 1)
  else if src = 1 then
    if t = 2 ∨ t = 5 then decide (((s.image t).slot (s.targetSlot t)).imageId = id) else true
  else if src = 2 then s.org.transitOn && decide (s.fw.fabricFetch = 1) && !s.piecePorts.isEmpty
  else (s.oap.portA.up || s.oap.portB.up) && !s.fw.server.isEmpty

/-- Words of a piece packet's arguments. -/
def pieceArgs (t i : Nat) (id : List Byte) : List Word :=
  [BitVec.ofNat 64 (t * 2 ^ 56 + i * 2 ^ 32), BitVec.ofNat 64 (wordOf id 0), BitVec.ofNat 64 (wordOf id 1)]

/-- Puts a Service packet on one port for its neighbour. -/
def State.toNeighbour (s : State) (p : Nat) (kind : PKind) (args : List Word) (data : List Byte) : State :=
  let x := s.port p
  let k := s.newPacket (BitVec.ofNat 16 x.nbChip) 0 noCore .service kind (portDie p) args
  s.enqueue p (s.ownAt p { k with data := data, injectTime := BitVec.ofInt 48 s.ftime } 0)

/-- Requests a block from a source. The peer's flash is read directly. -/
def State.askBlock (s : State) (t i : Nat) (id : List Byte) (src : Nat) : State :=
  if src = 0 then { s with tray := { s.tray with pieceImage := t, pieceBlock := i } }
  else if src = 2 then
    match s.piecePorts.head? with
    | none => s
    | some p => s.toNeighbour p .pieceReq (pieceArgs t i id) []
  else if src = 3 then
    if s.fw.recovery.length < 64 then { s with fw := { s.fw with recovery := s.fw.recovery ++ [(t, i, s.now)] } } else s
  else s

/-- Seconds of the retry after every source has failed. -/
def retryNs : Nat := 10000000000

/-! ## Update sessions (R743-R746) -/

def State.setUpdate (s : State) (u : UpdateSt) : State := { s with fw := { s.fw with update := u } }

/-- Changes the session; an EVENT goes with each change of its STATE. -/
def State.update (s : State) (u : UpdateSt) : State :=
  let s1 := s.setUpdate u
  if u.state = s.fw.update.state then s1 else s1.notify 0x7101

/-- A session stands between its open and its end. -/
def UpdateSt.isOpen (u : UpdateSt) : Bool := decide (1 ≤ u.state) && decide (u.state ≤ 4)

def UpdateSt.sources (u : UpdateSt) : List Nat := if u.source = 1 then [0] else [2, 3]

/-- The slot's descriptor has passed its checks and its blocks are being received, in a pause or not. -/
def UpdateSt.writing (u : UpdateSt) : Bool := decide (u.state = 2) || (decide (u.state = 3) && decide (u.resume = 2))

/-- A block has been taken; the next one is asked of the first source again (R739). -/
def UpdateSt.nextBlock (u : UpdateSt) : UpdateSt := { u with status := 0, failures := 0, asked := none, from' := u.sources.headD 0 }

/-- The block that the session needs next. -/
def UpdateSt.needs (u : UpdateSt) : Option Nat :=
  if u.state = 1 then some 0 else (missingBlocks u.total u.received).head?

/-- Asks for the next block, from the source in use or the next one available; with none, again after 10 s. -/
def State.askNext (s : State) : State :=
  let u := s.fw.update
  match u.needs with
  | none => s
  | some i =>
    let avail := u.sources.filter (fun x => decide (u.from' ≤ x) && s.sourceAvailable u.type u.imageId x)
    match avail.head? with
    | none => s.setUpdate { u with asked := none, retryAt := s.now + retryNs, from' := u.sources.headD 0 }
    | some src =>
      (s.setUpdate { u with asked := some (i, s.now), from' := src,
                            failures := if src = u.from' then u.failures else 0 }).askBlock u.type i u.imageId src

/-- The source in use is passed over; after the last, STATUS and a retry 10 s later. -/
def State.passOver (s : State) (status : Nat) : State :=
  let u := s.fw.update
  match (u.sources.filter (fun x => decide (u.from' < x) && s.sourceAvailable u.type u.imageId x)).head? with
  | some src => (s.setUpdate { u with from' := src, failures := 0 }).askNext
  | none =>
    let u1 := { u with status := status, asked := none, failures := 0, from' := u.sources.headD 0,
                       retryAt := s.now + retryNs }
    if status = 0x0E then s.update { u1 with state := 3, resume := u.state } else s.update u1

/-- The session ends with a code. -/
def State.endSession (s : State) (code : Nat) : State :=
  s.update { s.fw.update with state := 7, status := code, asked := none }

/-- The condition that pauses a session, the first in code order (R744). -/
def State.pauseCode (s : State) : Nat :=
  if s.tray.eject then 1 else if !s.tray.holdup then 2
  else if isStaged s.fw.update.type && !s.standbyHealthy then 4 else 0

/-- Pauses or resumes the session as the conditions of R744 stand. -/
def State.gateSession (s : State) : State :=
  let u := s.fw.update
  let c := s.pauseCode
  if u.state = 1 ∨ u.state = 2 then
    (if c = 0 then s else s.update { u with state := 3, status := c, resume := u.state, asked := none })
  else if u.state = 3 then
    if c ≠ 0 then s.setUpdate { u with status := c }
    else if u.status = 1 ∨ u.status = 2 ∨ u.status = 4 then (s.update { u with state := u.resume, status := 0 }).askNext
    else s
  else s

/-- The condition that refuses an open, the first in code order. -/
def State.openCode (s : State) (type stage : Nat) : Nat :=
  if s.tray.eject then 0x01
  else if !s.tray.holdup then 0x02
  else if s.fw.locked then 0x03
  else if !s.standbyHealthy then 0x04
  else if s.fw.update.isOpen || (decide (type = 2) && (s.rind.switching.isSome || decide (s.start.step ≠ 0x0A))) then 0x05
  else if (isStaged type && decide (stage = 0)) || (!isStaged type && decide (stage ≠ 0)) then 0x0D
  else 0

def State.openSession (s : State) (type source : Nat) (stage : BitVec 32) : WriteOut :=
  if type = 0 ∨ 6 < type ∨ source = 0 ∨ 2 < source then s.deny stInvalid
  else
    let c := s.openCode type stage.toNat
    if c ≠ 0 then s.refuse c
    else
      let u : UpdateSt := { UpdateSt.reset with
        state := 1, type := type, source := source, stageId := stage, stageResult := s.fw.update.stageResult,
        from' := if source = 1 then 0 else 2 }
      ((s.setUpdate u).notify 0x7101).askNext.done

/-- COMMAND abort: the session ends, and its bitmap stays. -/
def State.abortSession (s : State) : WriteOut :=
  if s.fw.update.isOpen then (s.endSession 0x13).done else s.deny stInvalid

/-- COMMAND of object 0x7101: 8 bytes. -/
def State.wUpdate (s : State) (v : List Byte) : WriteOut :=
  let w := wordOf v 0
  let action := bitsOf w 7 0
  if bitsOf w 31 24 ≠ 0 then s.deny stInvalid
  else if action = 1 then s.openSession (bitsOf w 15 8) (bitsOf w 23 16) (BitVec.ofNat 32 (bitsOf w 63 32))
  else if action = 2 then s.abortSession
  else s.deny stInvalid

/-- The standby restarts into its Starter, which erases and writes the RIND slot (R752). -/
def State.standbyStarts (s : State) : State :=
  let r := if s.rind.a = .standby then { s.rind with a := .starter }
    else if s.rind.b = .standby then { s.rind with b := .starter } else s.rind
  { s with rind := { r with healthy := false, healthySince := none } }

/-- Block 0 of a session: the checks of Table 17.4, then the slot is erased, unless it holds a part of the same image. -/
def State.takeDescriptor (s : State) (d : List Byte) : State :=
  let u := s.fw.update
  let code := s.descCode u.type d
  if code ≠ 0 then s.endSession code
  else
    let n := s.targetSlot u.type
    let old := (s.image u.type).slot n
    let id := imageIdOf d
    let keep := decide (old.imageId = id) && decide (old.state = 1)
    let slot : Slot := { state := 1, torn := false, imageId := id, stageId := u.stageId,
                         blocks := Tab.put [] (if keep then old.blocks else []) 0 d }
    let s1 := (s.modSlot u.type n (fun _ => slot)).notify (0x7000 + u.type)
    let s2 := if u.type = 2 then s1.standbyStarts else s1
    (s2.update { u.nextBlock with
      state := 2, imageId := id, total := descTotal d, table := descTable d, body := descBody d,
      regime := descRegime d, erasing := !keep, received := slot.blocks.map (fun e => e.1) }).askNext

/-- Power is lost: an erase in progress leaves its sectors torn, and the blocks of the slot are lost (13 R597). -/
def State.tearErase (s : State) : State :=
  let u := s.fw.update
  if u.erasing && u.isOpen then
    (s.modSlot u.type (s.targetSlot u.type) (fun _ => { Slot.reset with torn := true })).setUpdate
      { u with state := 1, received := [], erasing := false }
  else s

/-- The Starter erases a torn slot again before use. -/
def Image.eraseTorn (i : Image) : Image :=
  let mend (x : Slot) : Slot := if x.torn then Slot.reset else x
  { i with slot0 := mend i.slot0, slot1 := mend i.slot1 }

/-- Every block is stored and checked: a staged image is staged; a RIND image boots on the standby and must confirm. -/
def State.finishTransfer (s : State) : State :=
  let u := s.fw.update
  let n := s.targetSlot u.type
  if !((s.image u.type).slot n).digestOk then
    let s1 := if u.regime = 1 then s.modSlot u.type n (fun x => { x with blocks := [] }) else s
    (s1.setUpdate { u with received := if u.regime = 1 then [] else u.received }).endSession 0x10
  else if isStaged u.type then
    ((s.modSlot u.type n (fun x => { x with state := 3 })).notify (0x7000 + u.type)).update
      { u with state := 5, status := 0, asked := none }
  else
    let s1 := s.modSlot 2 n (fun x => { x with state := 4 })
    ((s1.setImage 2 { s1.image 2 with state := 1 }).notify 0x7002).update
      { u with state := 4, status := 0, asked := none, bootAt := some s.now, holdFrom := none }

/-- A block of a session in its receiving state. A body block of regime 0x02 is accepted only under a table that matches DIGEST (R737). -/
def State.takeBlock (s : State) (i : Nat) (bs : List Byte) : State :=
  let u := s.fw.update
  let n := s.targetSlot u.type
  let x := (s.image u.type).slot n
  if u.regime = 2 ∧ u.table < i ∧ x.digestOk = false then s.endSession 0x10
  else if x.blockOk i bs then
    let s1 := s.storeBlock u.type n i bs
    let got := u.received ++ [i]
    let s2 := s1.setUpdate { u.nextBlock with received := got, erasing := false }
    let y := (s2.image u.type).slot n
    if u.regime = 2 ∧ i ≤ u.table ∧ (missingBlocks (1 + u.table) got).isEmpty ∧ y.digestOk = false then s2.endSession 0x10
    else if (missingBlocks u.total got).isEmpty then s2.finishTransfer
    else s2.askNext
  else if u.failures + 1 < 8 then (s.setUpdate { u with failures := u.failures + 1 }).askNext
  else s.passOver 0x0F

/-! ## Repair at start (R751) -/

/-- The image that is under repair, the lowest TYPE first. -/
def State.repairing (s : State) : Option Nat := [1, 2, 3, 4, 5, 6].find? (fun t => decide ((s.image t).state = 2))

/-- The first block of a slot that its checks do not pass. -/
def State.badBlock (s : State) (t : Nat) : Option Nat :=
  let x := s.runningSlot t
  if s.descCode t x.desc ≠ 0 then some 0
  else (List.range (descTotal x.desc)).find? (fun i => decide (i ≠ 0) && !x.blockOk i (Tab.get [] x.blocks i))

/-- Asks for the next block of a repair from the first source, from `src` on, that is available. -/
def State.askRepair (s : State) (src : Nat) : State :=
  match s.repairing with
  | none => s
  | some t =>
    match s.badBlock t with
    | none => s
    | some i =>
      let id := (s.runningSlot t).imageId
      match ([1, 2, 3].filter (fun x => decide (src ≤ x) && s.sourceAvailable t id x)).head? with
      | none => { s with fw := { s.fw with repairAsked := none, repairFrom := 1, repairFailures := 0,
                                           repairRetry := s.now + retryNs } }
      | some x =>
        ({ s with fw := { s.fw with repairAsked := some (i, s.now), repairFrom := x,
                                    repairFailures := if x = s.fw.repairFrom then s.fw.repairFailures else 0 } }).askBlock
          t i id x

/-- A repair ends when every check passes: the image takes effect at the next step that loads it. -/
def State.endRepair (s : State) (t : Nat) : State :=
  if (s.badBlock t).isNone && (s.runningSlot t).digestOk then
    let s1 := (s.setImage t { s.image t with state := 0 }).notify (0x7000 + t)
    { s1 with fw := { s1.fw with repairAsked := none, repairFrom := 1, repairFailures := 0 } }.askRepair 1
  else s.askRepair 1

/-- A block of a repair: the descriptor faces every check of R735, any other block its own. While flash may not be programmed (13 R597)
it is not written, and it is asked for again. -/
def State.takeRepair (s : State) (t i : Nat) (bs : List Byte) : State :=
  let n := s.runSlot t
  let good := if i = 0 then decide (s.descCode t bs = 0) else (s.runningSlot t).blockOk i bs
  if good && !s.flashOpen then { s with fw := { s.fw with repairAsked := none, repairRetry := s.now } }
  else if good then
    let s1 := s.storeBlock t n i bs
    (s1.modSlot t n (fun x => { x with imageId := if i = 0 then imageIdOf bs else x.imageId })).endRepair t
  else if s.fw.repairFailures + 1 < 8 then
    ({ s with fw := { s.fw with repairFailures := s.fw.repairFailures + 1 } }).askRepair s.fw.repairFrom
  else s.askRepair (s.fw.repairFrom + 1)

/-! ## Blocks as they arrive -/

def BlockSource.place : BlockSource → Nat
  | .tray => 0
  | .peerFlash => 1
  | .neighbours => 2
  | .server => 3

/-- An answer to a request: to the session's, when it asked this source for this block, else to the repair's. -/
def State.blockArrives (s : State) (b : ImageBlock) : State :=
  let src := BlockSource.place b.source
  let s0 := if src = 3 then
      { s with fw := { s.fw with recovery := s.fw.recovery.filter (fun e => decide (e.2.1 ≠ b.index)) } }
    else s
  let u := s0.fw.update
  let mine := match u.asked with | some (i, _) => decide (i = b.index) && decide (u.from' = src) | none => false
  let rep := match s0.fw.repairAsked with
    | some (i, _) => decide (i = b.index) && decide (s0.fw.repairFrom = src)
    | none => false
  if mine && (decide (u.state = 1) || decide (u.state = 2)) then
    if b.noSuchBlock then s0.passOver 0x0E
    else if u.state = 1 then s0.takeDescriptor b.bytes
    else s0.takeBlock b.index b.bytes
  else if rep then
    match s0.repairing with
    | none => s0
    | some t => if b.noSuchBlock then s0.askRepair (src + 1) else s0.takeRepair t b.index b.bytes
  else s0

/-- The tray's window holds a block, or its PIECE_STATUS tells that there is none (13 Table 13.5). -/
def State.seePiece (s : State) (b : ImageBlock) : State :=
  if b.source = .tray then
    { s with tray := { s.tray with pieceStatus := if b.noSuchBlock then 2 else 0, pieceEcho := b.index } }
  else s

/-- A block from the recovery server comes by an MGMT port that is up (17 Table 17.5). -/
def execImageBlockReceive (b : ImageBlock) (s : State) : Out :=
  if !s.rindActive || (decide (b.source = .server) && !s.oap.portA.up && !s.oap.portB.up) then .next s
  else .next ((s.seePiece b).blockArrives b)

/-- A source that has not answered for 100 ms is passed over for the block. -/
def execBlockRequestTimeout (s : State) : Out :=
  let late (a : Option (Nat × Nat)) : Bool := match a with | some (_, t) => decide (t + 100000000 ≤ s.now) | none => false
  let s1 := if late s.fw.update.asked then s.passOver s.fw.update.status else s
  if late s1.fw.repairAsked then .next (s1.askRepair (s1.fw.repairFrom + 1)) else .next s1

/-- A block that every source failed is requested again every 10 s. -/
def execBlockRetry (s : State) : Out :=
  let u := s.fw.update
  let due := u.asked.isNone && decide (u.retryAt ≤ s.now)
  let s1 :=
    if due && decide (u.state = 3) && decide (u.status = 0x0E) then (s.update { u with state := u.resume, status := 0 }).askNext
    else if due && (decide (u.state = 1) || decide (u.state = 2)) then s.askNext
    else s
  if s1.fw.repairAsked.isNone && decide (s1.fw.repairRetry ≤ s1.now) then .next (s1.askRepair 1) else .next s1

/-- A recovery request without a full answer for 50 ms is sent again. -/
def execRecoveryResend (block : Nat) (s : State) : Out :=
  .next { s with fw := { s.fw with recovery := s.fw.recovery.map (fun e =>
    if e.2.1 = block ∧ e.2.2 + 50000000 ≤ s.now then (e.1, block, s.now) else e) } }

/-! ## Pieces over the fabric (R740) -/

/-- The slot of a type that holds a complete image of an IMAGE_ID. -/
def State.completeSlot (s : State) (t : Nat) (id : List Byte) : Option Slot :=
  [(s.image t).slot0, (s.image t).slot1].find? (fun x => decide (2 ≤ x.state) && decide (x.imageId = id))

def pieceId (k : Packet) : List Byte := leBytes 8 (Packet.arg k 1).toNat ++ leBytes 8 (Packet.arg k 2).toNat

/-- PIECE packets that wait at a port. -/
def Port.piecesOut (x : Port) : Nat := (x.out.filter (fun e => e.pkt.kind = .piece)).length

def execPieceReq (k : Packet) (s : State) : Out :=
  onKind s k .pieceReq (fun s =>
    let t := bitsOf (Packet.arg k 0).toNat 63 56
    let i := bitsOf (Packet.arg k 0).toNat 55 32
    let drop := { s with fw := { s.fw with discarded := s.fw.discarded + 1 } }
    match allPorts.find? (fun p => s.portUp p && decide ((s.port p).nbChip = k.srcChip.toNat)) with
    | none => drop
    | some p =>
      match s.completeSlot t (pieceId k) with
      | none => drop
      | some x =>
        if !s.rindActive || decide (t = 6) || decide (s.fw.fabricFetch ≠ 1) || decide (16 ≤ (s.port p).piecesOut) ||
            (Tab.get [] x.blocks i).isEmpty then drop
        else
          let s1 := s.toNeighbour p .piece k.args (Tab.get [] x.blocks i)
          { s1 with fw := { s1.fw with served := s1.fw.served + 1 } })

/-- A piece answers the request that asked a neighbour for it. -/
def execPiece (k : Packet) (s : State) : Out :=
  onKind s k .piece (fun s =>
    if !s.rindActive then s
    else s.blockArrives { index := bitsOf (Packet.arg k 0).toNat 55 32, source := .neighbours, bytes := k.data,
                          noSuchBlock := false })

/-! ## Attestation (R761, R762, Table 17.8) -/

/-- The signing island: 1 A, 2 B. -/
def State.island (s : State) : Nat := if s.rind.b = .active then 2 else 1

/-- What is measured of an image: its descriptor's bytes 0-127; for PART the factory body. -/
def Slot.measured (x : Slot) (t : Nat) : List Byte :=
  if t = 6 then ((List.range (descBody x.desc)).flatMap (fun k => (Tab.get [] x.blocks (k + 1)).take 4092)).take (descLength x.desc)
  else x.desc.take 128

/-- The eight words of one image. -/
def State.reportImage (s : State) (t : Nat) : List Byte :=
  let x := s.runningSlot t
  let v := versionOf x.desc
  leBytes 8 (t * 2 ^ 56 + s.runSlot t * 2 ^ 48 + (s.image t).state * 2 ^ 40 + v.1 * 2 ^ 32 + v.2.1 * 2 ^ 24 + v.2.2 * 2 ^ 8) ++
    leBytes 8 ((securityVersion x.desc).toNat * 2 ^ 48) ++ padTo 48 (Config.sha384 (x.measured t))

/-- The 512-byte body. -/
def State.reportBody (s : State) (nonce : List Byte) : List Byte :=
  leBytes 8 (2 ^ 56 + s.island * 2 ^ 48 + s.fab.chip.toNat * 2 ^ 32 + s.faults.tier * 2 ^ 24 +
      (if s.fw.locked then 2 ^ 16 else 0)) ++
    s.ownSerial ++ padTo 32 nonce ++
    leBytes 8 ((s.ftimeWord.toNat % 2 ^ 48) * 2 ^ 16 + (if s.ftimeValid then 2 ^ 15 else 0)) ++
    leBytes 8 (s.pow.auxEpoch.toNat * 2 ^ 32 + s.rind.takeovers.toNat) ++ leBytes 8 s.fab.planId ++
    List.replicate 48 0 ++ [1, 2, 3, 4, 5, 6].flatMap s.reportImage

/-- The report: body and both signatures over its SHA-384. -/
def State.attestation (s : State) (nonce : List Byte) : List Byte :=
  let body := s.reportBody nonce
  let digest := Config.sha384 body
  body ++ padTo 64 (Config.signEd25519 s.island digest) ++ padTo 3309 (Config.signMldsa s.island digest)

/-- A session's NONCE: the active controller builds and signs the report for it. -/
def State.wNonce (s : State) (sid : Nat) (v : List Byte) : WriteOut :=
  let r := s.attestation v
  let new (x : Session) : Session := if x.id = sid then { x with nonce := v, report := r } else x
  let s1 := { s with
    oap := { s.oap with sessions := s.oap.sessions.map new },
    fw := { s.fw with reports := s.fw.reports + 1 } }
  s1.done

/-! ## Owner lock (R763-R765) -/

/-- A fresh NONCE of 32 random bytes. -/
def State.newLockNonce (s : State) : State :=
  { s with freeCount := s.freeCount + 32,
           fw := { s.fw with lockNonce := (List.range 32).map (fun i => Config.freeByte (s.freeCount + i)) } }

/-- LOCKED of object 0x7201. -/
def State.wLocked (s : State) (v : Nat) : WriteOut :=
  let u := s.fw.update
  if v = 0 then s.refuse 0x03
  else if v ≠ 1 then s.deny stInvalid
  else if decide (u.type = 2) && (u.writing || decide (u.state = 4)) then s.refuse 0x05
  else if s.fw.locked then s.done
  else
    let s1 := { s with fw := { s.fw with locked := true, lockAnchor := Config.sha384 s.oap.anchorOwner } }
    let s2 := s1.storeValue 0x7201 1
    (if u.isOpen && isStaged u.type then s2.endSession 0x03 else s2).done

/-- What a token must show (Table 17.9). -/
def State.tokenOk (s : State) (v : List Byte) : Bool :=
  let w := wordOf v 0
  let n := bitsOf w 31 0
  let cert := (v.drop 64).take n
  let digest := Config.sha384 (v.take (64 + n))
  decide (v.length = 64 + n + 64 + 3309) && decide (bitsOf w 63 56 = 1) && decide (bitsOf w 55 48 = 1) &&
    decide (bitsOf w 47 32 = 0) && decide ((v.drop 8).take 16 = s.ownSerial) &&
    decide ((v.drop 24).take 32 = s.fw.lockNonce) && decide (wordOf v 7 = 0) && Config.namesOwner cert &&
    Config.chainsTo cert s.fw.lockAnchor && Config.ed25519Ok cert digest ((v.drop (64 + n)).take 64) &&
    Config.mldsaOk cert digest ((v.drop (128 + n)).take 3309)

/-- CLEAR_TOKEN: a token that verifies clears the lock; NONCE changes either way. -/
def State.wClearToken (s : State) (v : List Byte) : WriteOut :=
  if s.fw.locked && s.tokenOk v then
    let s1 := { s with fw := { s.fw with locked := false, clears := s.fw.clears + 1 } }
    ((s1.storeValue 0x7201 1).newLockNonce).done
  else s.newLockNonce.deny stInvalid

end Sys2Proof.Machine
end

