-- ==== Sys2Proof/Machine/Flash.lean ====
section
/-! DEFINITION. The persistent values in flash (15 R647): what a program step writes, and what an AUX reset finds. -/
namespace Sys2Proof.Machine

/-! ## Programming -/

/-- A value of a numbered object in the form that flash holds it. -/
def Flashed.takeValue (f : Flashed) (s : State) (index sub : Nat) : Flashed :=
  match index, sub with
  | 0x2001, 1 => { f with rackCap := s.pow.rackCap }
  | 0x2001, 2 => { f with window := s.pow.window }
  | 0x2002, 1 => { f with hostCap := s.pow.hostCap }
  | 0x2020, 1 => { f with rackOrder := s.pow.rackOrder }
  | 0x2020, 3 => { f with hold := s.pow.hold }
  | 0x2301, 1 => { f with mode := (s.pow.heldMode.getD s.pow.mode) }
  | 0x2301, 2 => { f with fixedMhz := (s.pow.heldMhz.getD s.pow.fixedMhz) }
  | 0x2301, 3 => { f with boostEn := s.pow.boostEn }
  | 0x4010, 1 => { f with timeRole := s.time.role }
  | 0x3002, 3 => { f with marks := s.therm.marks, masked := s.therm.masked }
  | 0x9003, 3 => { f with isolations := s.tray.isolations }
  | 0x1101, 1 => { f with media := s.oap.media }
  | 0x1103, 1 => { f with anchorOwner := s.oap.anchorOwner }
  | 0x1103, 2 => { f with anchorRack := s.oap.anchorRack }
  | 0x1103, 3 => { f with anchorHost := s.oap.anchorHost }
  | 0x1103, 4 => { f with anchorObserver := s.oap.anchorObserver }
  | 0x7010, 1 => { f with server := s.fw.server }
  | 0x7010, 2 => { f with fabricFetch := s.fw.fabricFetch }
  | 0x7201, 1 => { f with locked := s.fw.locked, lockAnchor := s.fw.lockAnchor }
  | 0xA001, 1 => { f with controlOwner := s.counters.controlOwner }
  | 0x8010, 1 => { f with windowMs := (s.faults.windowNext.getD s.faults.windowMs) }
  | 0x8001, 1 => { f with reasons := s.faults.reasons, firstNs := s.faults.firstNs, raised := s.faults.raised }
  | 0x4020, 1 => { f with planBlob := s.fab.planBlob, planSigner := s.fab.planSigner }
  | 0x4020, 2 => { f with signer := s.fab.signer }
  | 0x4020, 6 => { f with swaps := s.fab.swaps }
  | i, 4 =>
    if inRun i 0x4501 4 then
      { f with asymmetry := Tab.put 0 f.asymmetry (i - 0x4501) (s.sitePort (44 + (i - 0x4501))).asymmetry }
    else if inRun i 0x5010 8 then { f with retire := Tab.put 0 f.retire (i - 0x5010) (s.stack (i - 0x5010)).retireRequest }
    else f
  | i, 5 =>
    if inRun i 0x4501 4 then
      { f with moduleNs := Tab.put 8000 f.moduleNs (i - 0x4501) (s.sitePort (44 + (i - 0x4501))).moduleNext }
    else f
  | _, _ => f

/-- One program step takes the value that stands; appendix entries lie in the part record's copies. -/
def Flashed.take (f : Flashed) (s : State) : FlashItem → Flashed
  | .value index sub => f.takeValue s index sub
  | .cycles => { f with bins := s.therm.bins, residue := s.therm.residue, lastSave := s.therm.lastSave }
  | .routes => { f with routes := s.fab.flashRoutes }
  | .record => f
  | .appendix => f

/-- The value reaches flash. -/
def State.program (s : State) (i : FlashItem) : State := { s with flashed := s.flashed.take s i }

/-! ## What an AUX reset finds -/

/-- The stored plan, with no swap of it. -/
def State.recallPlan (s : State) : State :=
  let f := s.flashed
  let p := planOf f.planBlob f.planSigner
  let none' := f.planBlob.isEmpty
  { s with fab := { s.fab with
      planBlob := f.planBlob, planSigner := f.planSigner, plan := if none' then none else some p,
      planId := if none' then 0 else p.id, chip := if none' then 0xFFFF else BitVec.ofNat 16 p.chip,
      group := if none' then 0 else BitVec.ofNat 16 p.group, member := if none' then 0 else BitVec.ofNat 8 p.member } }

/-- The stored swaps, each port with the name that they leave it. -/
def State.recallSwaps (s : State) (l : List (Nat × Nat)) : State :=
  let s1 := { s with fab := { s.fab with
    swaps := l, ports := Tab.mapVals Port.reset (fun x => { x with logical := noPort }) s.fab.ports } }
  l.foldl (fun (s : State) e =>
    let la := s.logicalOf e.1
    let lb := s.logicalOf e.2
    (s.modPort e.1 (fun x => { x with logical := lb })).modPort e.2 (fun x => { x with logical := la })) s1

/-- A value whose program step had not come is as flash holds it. -/
def State.recallValue (s : State) (index sub : Nat) : State :=
  let f := s.flashed
  match index, sub with
  | 0x2001, 1 => { s with pow := { s.pow with rackCap := f.rackCap } }
  | 0x2001, 2 => { s with pow := { s.pow with window := f.window } }
  | 0x2002, 1 => { s with pow := { s.pow with hostCap := f.hostCap } }
  | 0x2020, 1 => { s with pow := { s.pow with rackOrder := f.rackOrder } }
  | 0x2020, 3 => { s with pow := { s.pow with hold := f.hold } }
  | 0x2301, 1 => { s with pow := { s.pow with mode := f.mode, heldMode := none } }
  | 0x2301, 2 => { s with pow := { s.pow with fixedMhz := f.fixedMhz, heldMhz := none } }
  | 0x2301, 3 => { s with pow := { s.pow with boostEn := f.boostEn } }
  | 0x4010, 1 => { s with time := { s.time with role := f.timeRole } }
  | 0x3002, 3 => { s with therm := { s.therm with marks := f.marks, masked := f.masked } }
  | 0x9003, 3 => { s with tray := { s.tray with isolations := f.isolations } }
  | 0x1101, 1 => { s with oap := { s.oap with media := f.media } }
  | 0x1103, 1 => { s with oap := { s.oap with anchorOwner := f.anchorOwner } }
  | 0x1103, 2 => { s with oap := { s.oap with anchorRack := f.anchorRack } }
  | 0x1103, 3 => { s with oap := { s.oap with anchorHost := f.anchorHost } }
  | 0x1103, 4 => { s with oap := { s.oap with anchorObserver := f.anchorObserver } }
  | 0x7010, 1 => { s with fw := { s.fw with server := f.server } }
  | 0x7010, 2 => { s with fw := { s.fw with fabricFetch := f.fabricFetch } }
  | 0x7201, 1 => { s with fw := { s.fw with locked := f.locked, lockAnchor := f.lockAnchor } }
  | 0xA001, 1 => { s with counters := { s.counters with controlOwner := f.controlOwner } }
  | 0x8010, 1 => { s with faults := { s.faults with windowMs := f.windowMs, windowNext := none } }
  | 0x8001, 1 => { s with faults := { s.faults with reasons := f.reasons, firstNs := f.firstNs, raised := f.raised } }
  | 0x4020, 1 => s.recallPlan
  | 0x4020, 2 => { s with fab := { s.fab with signer := f.signer } }
  | 0x4020, 6 => s.recallSwaps f.swaps
  | i, 4 =>
    if inRun i 0x4501 4 then s.modSitePort (44 + (i - 0x4501)) (fun x => { x with asymmetry := Tab.get 0 f.asymmetry (i - 0x4501) })
    else if inRun i 0x5010 8 then s.modStack (i - 0x5010) (fun x => { x with retireRequest := Tab.get 0 f.retire (i - 0x5010) })
    else s
  | i, 5 =>
    if inRun i 0x4501 4 then s.modSitePort (44 + (i - 0x4501)) (fun x => { x with moduleNext := Tab.get 8000 f.moduleNs (i - 0x4501) })
    else s
  | _, _ => s

def State.recall (s : State) : FlashItem → State
  | .value index sub => s.recallValue index sub
  | .routes => { s with fab := { s.fab with flashRoutes := s.flashed.routes } }
  | .cycles => s
  | .record => s
  | .appendix => s

/-- Every value as flash holds it: those that waited for a program step are lost, and the thermal cycles since the last save. -/
def State.recallAll (s : State) : State :=
  let f := s.flashed
  let s1 := s.tray.flash.foldl State.recall s
  { s1 with therm := { s1.therm with bins := f.bins, residue := f.residue, lastSave := f.lastSave } }

end Sys2Proof.Machine
end

