-- ==== Sys2Proof/Machine/Power.lean ====
section
/-! DEFINITION. Power limits, orders, operating points, ramps, the Ripener, parking and energy (11 R487-R543), with the
PHASE instruction (02 R145, R146). Powers are in mW unless a name says otherwise. -/
namespace Sys2Proof.Machine

def allRegions : List Nat := List.range 16

/-- A time since which a condition has held: kept while it holds. -/
def since (old : Option Nat) (holds : Bool) (now : Nat) : Option Nat := if holds then some (old.getD now) else none

def heldFor (t : Option Nat) (ns now : Nat) : Bool := match t with | some x => decide (x + ns ≤ now) | none => false

/-! ## Caps and orders (R491-R493, R502-R505) -/

def PowSt.cap (p : PowSt) : Nat := Nat.min (Nat.min p.rackCap p.hostCap) 4800

def PowSt.capSource (p : PowSt) : Nat :=
  if p.rackCap = p.cap then 0 else if p.hostCap = p.cap then 1 else 2

/-- One record of the power order log. -/
def State.orderRecord (s : State) (kind rack host result winner : Nat) : State :=
  let r : OrderRec := { time := s.ftimeWord.toNat, kind := kind, rack := rack, host := host, result := result,
                        winner := winner }
  ({ s with pow := { s.pow with orderLog := pushLast 64 s.pow.orderLog r,
                                orderTotal := s.pow.orderTotal + 1 } }).notify 0x2011

/-- A new cap or window takes effect at a Ripener step. -/
def State.takeCap (s0 : State) : State :=
  let s := { s0 with pow := { s0.pow with windowUse := s0.pow.window } }
  let p := s.pow
  if !p.capPending then s
  else
    let s1 := { s with pow := { p with capPending := false, effCap := p.cap, source := p.capSource } }
    if p.rackCap = p.hostCap then s1
    else s1.orderRecord 1 p.rackCap p.hostCap p.cap (if p.rackCap ≤ p.hostCap then 1 else 2)

/-- The units of COMPUTE are gone: no dump and no ladder step follows (R504). -/
def State.noLadder (s : State) : State :=
  { s with faults := { s.faults with
      inAbort := false, dumpDue := false, ladder := { s.faults.ladder with want := 0, wantRetrain := false, cores := [] } } }

/-- OFF ends the loaded job with cause POWER_OFF, parks, and powers COMPUTE off. -/
def State.powerOff (s : State) : State :=
  let s1 :=
    if s.jobLoaded then
      let r := s.faultRecord { unit := 0x0B, cls := 3, cause := 0x51 }
      (r.jobEnd 4 4).abortStart r.faults.seq
    else s
  ({ s1 with pow := { s1.pow with parkOff := true, parkOrder := false, parked := 0xFFFF } }).computeDown.noLadder.evalTier

/-- Applies the effective power state (R504). -/
def State.applyOrders (s : State) : State :=
  let p := s.pow
  let eff := Nat.max p.rackOrder p.hostOrder
  let s1 := if p.rackOrder = p.hostOrder then s
    else s.orderRecord 2 p.rackOrder p.hostOrder eff (if p.hostOrder < p.rackOrder then 1 else 2)
  let s2 := { s1 with pow := { s1.pow with effective := eff } }
  if eff = 2 then (if p.effective = 2 then s2 else s2.powerOff).showCaps
  else
    let s3 :=
      if p.effective = 2 then
        ({ s2 with pow := { s2.pow with parkOff := false, parked := 0 } }).computePower
      else s2
    (({ s3 with pow := { s3.pow with parkOrder := decide (eff = 1) && s3.jobLoaded } }).park.jobPark).showCaps

/-! ## PHASE (02 R145, R146; R520) -/

def phaseId (v : Word) : BitVec 16 := v.extractLsb' 16 16
def phaseClass (v : Word) : Nat := (v.extractLsb' 12 4).toNat
def phaseAhead (v : Word) : Nat := (v.extractLsb' 0 12).toNat

/-- The governor takes a PHASE value. -/
def Region.phase (r : Region) (v : Word) (ftime : Word) : Region :=
  if phaseAhead v = 0 then
    { r with currentPhase := v, nextPhase := if phaseId r.nextPhase = phaseId v then 0 else r.nextPhase }
  else
    { r with nextPhase := v,
             nextDue := (ftime + BitVec.ofNat 64 (phaseAhead v * 10000000)) &&& 0x0000FFFFFFFFFFFF }

/-- PHASE of rs1; bits 63:32, which must be 0, are ignored (DESIGN CHOICE, log 103). -/
def execPhase (c : CoreId) (rs1 : Reg) (s : State) : Out :=
  s.issue c [.g rs1] (fun s =>
    let k := s.core c
    let v := k.getG rs1 &&& 0xFFFFFFFF
    let s1 := if k.phaseEn then s.modRegion (coreRegion c) (fun r => r.phase v s.ftimeWord) else s
    .next (s1.modCore c Core.retire))

/-- How far fabric time stands past NEXT_DUE, which holds its low 48 bits. -/
def State.pastDue (s : State) (x : Region) : Int := ((s.ftimeWord - x.nextDue).setWidth 48).toInt

/-- NEXT is cleared 100 ms after NEXT_DUE. -/
def execNextExpire (r : BitVec 4) (s : State) : Out :=
  let x := s.region r.toNat
  if x.nextPhase ≠ 0 ∧ 100000000 ≤ s.pastDue x then
    .next (s.setRegion r.toNat { x with nextPhase := 0 })
  else .next s

/-! ## Rises (R517, R518) -/

def State.risingCount (s : State) : Nat := (allRegions.filter (fun r => (s.region r).rising)).length

def State.riseLimit (s : State) : Nat := if s.regions.any (fun e => decide (2000 < e.2.current)) then 6 else 8

/-- Whether region `a` waits before region `b`: by the order of their releases, and a region that no barrier released by
its distance from the rotation pointer (log 28). -/
def State.riseBefore (s : State) (a b : Nat) : Bool :=
  let d (r : Nat) : Nat := (r + 16 - s.barriers.rotation) % 16
  match (s.region a).releasedAt, (s.region b).releasedAt with
  | some x, some y => decide (x < y)
  | some _, none => true
  | none, some _ => false
  | none, none => decide (d a < d b)

/-- Puts a region into the waiting list. -/
def State.waitRise (s : State) (r : Nat) : State :=
  if s.pow.riseWait.contains r then s
  else
    let before := s.pow.riseWait.filter (fun x => !s.riseBefore r x)
    let after := s.pow.riseWait.filter (fun x => s.riseBefore r x)
    { s with pow := { s.pow with riseWait := before ++ [r] ++ after } }

def Region.enterRise (r : Region) : Region :=
  { r.riseCeiling with rising := true, riseStart := r.cycles, limitCause := r.limitCause % 128 }

/-- A region's ceiling may rise: a controller owns the actuators, no source of Table 11.6 above its grant demands less, and its
draw leaves room below the grant (R501, R507, R508). -/
def State.mayRise (s : State) (r : Nat) : Bool :=
  let x := s.region r
  s.rindActive && x.risen && !x.inReset && decide (s.forcedCause r = 0) && decide (x.ceiling < 8) &&
    decide (x.power * 100 < x.grant * 97)

/-- The waiting regions that may still rise. -/
def State.risers (s : State) : List Nat := s.pow.riseWait.filter s.mayRise

/-- A region's ceiling begins to rise toward 8, or goes on with its rise, or takes its place in the waiting list. -/
def State.raiseCeiling (s : State) (r : Nat) : State :=
  let x := s.region r
  if x.rising then
    s.setRegion r (if x.ceilRise || decide (x.cycles < x.ceilStep + 512000) then { x with ceilRise := true } else x.riseCeiling)
  else if s.risingCount < s.riseLimit ∧ (s.risers.head?.getD r) = r then
    let s1 := s.setRegion r x.enterRise
    { s1 with pow := { s1.pow with riseWait := s1.pow.riseWait.filter (fun y => y ≠ r) } }
  else (s.setRegion r { x with limitCause := x.limitCause % 128 + 128 }).waitRise r

/-- Waiting regions enter their rises while there is a place (R518); one that may no longer rise leaves the list. -/
def State.enterWaiting (s : State) : Nat → State
  | 0 => s
  | n + 1 =>
    match s.risers with
    | [] => { s with pow := { s.pow with riseWait := [] } }
    | w :: rest =>
      if s.risingCount < s.riseLimit then
        (({ s with pow := { s.pow with riseWait := rest } }).modRegion w Region.enterRise).enterWaiting n
      else { s with pow := { s.pow with riseWait := w :: rest } }

/-- A rise ends 3,584 array cycles after it began, and a waiting region enters its own. -/
def execRiseEnd (r : BitVec 4) (s : State) : Out :=
  let x := s.region r.toNat
  if x.rising && decide (x.riseStart + 3584000 ≤ x.cycles) then
    .next ((s.setRegion r.toNat { x with rising := false }).enterWaiting 16)
  else .next s

/-! ## Region governors (R501, R506-R511) -/

/-- Boost above 2,000 MHz is allowed (R509). -/
def State.boostOk (s : State) : Bool :=
  decide (s.pow.mode = 0) && decide (s.pow.boostEn = 1) && decide (s.therm.junction ≤ 90 * 16) &&
    decide (s.pow.windowAvg * 100 ≤ s.pow.effCap * 95) && !s.pow.alertHeld

/-- The runtime has started since COMPUTE was powered (14 R617). -/
def State.runtimeRuns (s : State) : Bool := s.start.ran || s.cores.any (fun e => e.2.run)

/-- The highest clock that the frequency mode allows. Clocks rise above 800 MHz only once the runtime has started (14 R617). -/
def State.topMhz (s : State) : Nat :=
  if !s.runtimeRuns then 800
  else if s.pow.mode = 1 then s.pow.fixedMhz
  else if s.boostOk then 2300 else 2000

/-- The same for one region: while more than 6 regions are in a rise, none passes 2,000 MHz (R517). -/
def State.topFor (s : State) (r : Nat) : Nat :=
  if decide (6 < s.risingCount) && decide ((s.region r).current ≤ 2000) then Nat.min 2000 s.topMhz else s.topMhz

/-- The clock after one governor step toward a higher or lower clock: it falls to any lower step; to rise by a step of 25 MHz, its
rail first goes to the higher voltage, and the step comes once the rail has settled, 10 us after the last (R506). -/
def Region.clockTo (x : Region) (top now : Nat) (settled : Bool) : Region :=
  if top < x.current then { x with current := top, target := top }
  else if top < x.current + 25 then { x with target := x.current }
  else if decide (x.target = x.current + 25) && settled && x.raisedAt.all (fun t => decide (t + 10000 ≤ now)) then
    { x with current := x.target, target := Nat.max x.target (Nat.min top (x.target + 25)), raisedAt := some now }
  else { x with target := x.current + 25 }

/-- A step down of a region above its grant: the clock, or at 800 MHz and in fixed mode the ceiling (R508, R510). -/
def Region.stepUnder (x : Region) (fixed : Bool) : Region :=
  if !fixed && decide (800 < x.current) then { x with current := x.current - 25, target := x.current - 25 }
  else { x with ceiling := Nat.max 1 (x.ceiling - 1) }

/-- No fall is under way. -/
def Region.endFalls (x : Region) : Region := { x with ceilFall := false, clockFall := false }

/-- Grants whose rise was due take effect (R525). -/
def State.landGrants (s : State) : State :=
  match s.pow.grantsDue with
  | none => s
  | some (t, gs) =>
    if s.now < t then s
    else
      let s1 := { s with pow := { s.pow with grantsDue := none } }
      gs.zipIdx.foldl (fun s e => s.modRegion e.2 (fun r => { r with grant := e.1 })) s1

/-- LIMIT_CAUSE of a region that its grant keeps where it is: the grant while it binds, else the frequency mode (R507). -/
def State.grantCause (s : State) (x : Region) : Nat :=
  if decide (x.ceiling < 8) || decide (x.current < s.topMhz) then 1
  else if s.pow.mode = 1 then 0x20
  else if s.topMhz = 2000 then 0x40 else 0

/-- What one governor step does to its region when only the grant and the frequency mode bind. The ceiling rises at the rate of
03 R194, which time alone carries on (R499). -/
def State.governGrant (s : State) (r : Nat) (settled : Bool) : State :=
  let x := (s.region r).endFalls
  let top := s.topFor r
  let fixed := decide (s.pow.mode = 1)
  let turn (y : Region) : Region := if fixed || decide (top < y.current) then y.clockTo top s.now settled else y
  if x.grant < x.power then
    let y : Region := { x.stepUnder fixed with limitCause := 1, ceilRise := false }
    s.setRegion r (turn y)
  else if !s.rindActive then s.setRegion r { x with ceilRise := false }
  else if x.power * 100 < x.grant * 97 then
    if x.ceiling < 8 then ((s.setRegion r { x with limitCause := 0 }).raiseCeiling r).modRegion r turn
    else
      let y := x.clockTo top s.now settled
      s.setRegion r { y with limitCause := if y.current = s.topMhz then s.grantCause y else 0 }
  else
    let y := turn { x with ceilRise := false }
    s.setRegion r { y with limitCause := s.grantCause y }

/-- The step while the limiter acts: the ceiling stays in its fall, and a lower demand on the clock holds too (R507). -/
def State.governLimited (s : State) (r : Nat) (x : Region) : Region :=
  let fixed := decide (s.pow.mode = 1)
  let y : Region := { x.fallCeiling with limitCause := 2, clockFall := false }
  if s.pow.parked.getLsbD r then { y with current := 800, target := 800 }
  else
    let z := if decide (y.grant < y.power) && !fixed then y.stepUnder fixed else y
    if s.topMhz < z.current then z.clockTo s.topMhz s.now false else z

/-- A source demands the lowest operating state (Table 11.6; Table 11.10). -/
def State.lowestForced (s : State) : Bool := s.thermalForced || s.pow.alertHeld || decide (s.pow.floorMode = 1)

/-- A region governor's step, every 10 us: the lowest point that any source demands, with the cause that stands highest (R507). -/
def State.govern (s : State) (n : Nat) (settled : Bool) : State :=
  let cause := s.forcedCause n
  if s.lowestForced then
    s.modRegion n (fun x =>
      let y : Region := { x.fallLowest with target := 800, limitCause := cause }
      if cause = 16 then y.parkClock else y)
  else if s.pow.limiter then s.modRegion n (s.governLimited n)
  else if s.pow.parked.getLsbD n || decide (s.pow.effective = 2) then
    s.modRegion n (fun x => { x.endFalls with current := 800, target := 800, limitCause := 16, ceilRise := false })
  else s.governGrant n settled

/-- Bits of Table 11.7 for a region's LIMIT_CAUSE. -/
def throttleCause (limit : Nat) : BitVec 16 :=
  if limit % 2 = 1 then 1 else if limit = 2 then 2 else if limit = 4 then 4 else if limit = 8 then 8
  else if limit = 16 then 0x20 else 0

/-- A region that has risen stands below its place in fixed mode. -/
def Region.away (x : Region) (fixedMhz : Nat) : Bool := x.risen && (decide (x.current ≠ fixedMhz) || decide (x.ceiling < 8))

/-- The causes of a region's departure from fixed mode (R511), which count until it has returned. -/
def Region.departs (x : Region) (fixedMhz : Nat) : BitVec 16 :=
  (if x.stretching then 0x10 else 0) ||| (if x.away fixedMhz then throttleCause (x.limitCause % 32) ||| x.lastCause else 0)

/-- A region's departure counts for the tick in which it happens, however short it is. -/
def State.gather (s : State) (r : Nat) : State :=
  let x := s.region r
  let p := s.pow
  let last : BitVec 16 := if p.mode = 1 ∧ x.away p.fixedMhz = true then throttleCause (x.limitCause % 32) ||| x.lastCause else 0
  let s1 := s.setRegion r { x with lastCause := last }
  if p.mode = 1 ∧ x.departs p.fixedMhz ≠ 0 then
    { s1 with pow := { p with tickCauses := p.tickCauses ||| x.departs p.fixedMhz,
                              tickCeiling := Nat.min p.tickCeiling x.ceiling,
                              tickMhz := Nat.min p.tickMhz x.current } }
  else s1

/-- A region whose ceiling no longer waits leaves the waiting list. -/
def State.leaveWait (s : State) (r : Nat) : State :=
  if (s.region r).limitCause < 128 then
    { s with pow := { s.pow with riseWait := s.pow.riseWait.filter (fun y => y ≠ r) } }
  else s

/-- The governor takes its reading. The region's Presses obey a ceiling
that has fallen (03 R197). -/
def execGovernorStep (r : BitVec 4) (reading : GovernorReading) (s : State) : Out :=
  let n := r.toNat
  if !(s.region n).risen || (s.region n).inReset then .next s
  else
    let s0 := { s with start := { s.start with ran := s.runtimeRuns } }
    let s1 := (s0.landGrants.modRegion n (fun x => { x with power := reading.power })).govern n reading.settled
    .next (((s1.gather n).leaveWait n).obeyCeilings.showCaps)

/-! ## The hardware limiter (R497-R499) -/

/-- Every ceiling stands at 1. -/
def State.atFloor (s : State) : Bool := s.regions.all (fun e => !e.2.risen || decide (e.2.ceiling ≤ 1))

/-- The limiter acts. -/
def State.limiterOn (s : State) : State :=
  ({ s with pow := { s.pow with
      limiter := true, limiterSince := s.now, limiterClock := s.now, limiterBelow := none, limiterFloor := none,
      tickCauses := s.pow.tickCauses ||| 2 } }).lowerCeilings.showCauses.obeyCeilings.showCaps

/-- A sample while the limiter acts and a condition of R497 may hold: 100 us at ceiling 1 after, every clock falls by a step in
10 us. -/
def State.limiterStep (s : State) (above : Bool) : State :=
  let since := if above && s.atFloor then some (s.pow.limiterFloor.getD s.now) else none
  let s1 := ({ s with pow := { s.pow with limiterBelow := none, limiterFloor := since } }).lowerCeilings
  if heldFor since 100000 s.now && decide (s.pow.limiterClock + 10000 ≤ s.now) then
    { s1 with
      pow := { s1.pow with limiterClock := s.now },
      regions := Tab.mapVals Region.reset (fun r => { r with current := Nat.max 800 (r.current - 25), target := 800 }) s1.regions }
  else s1

def execLimiterSample (us100 ms1 : Nat) (s : State) : Out :=
  let p := s.pow
  let above := decide (p.fastLimit < us100) || decide (5300000 < ms1)
  let below := decide (us100 * 100 < p.fastLimit * 95)
  if !p.limiter then .next (if above then s.limiterOn else s)
  else if below && heldFor p.limiterBelow 100000 s.now then
    .next ({ s with pow := { p with limiter := false, limiterBelow := none, limiterFloor := none } }).showCaps
  else
    let s1 := s.limiterStep above
    .next (if below then { s1 with pow := { s1.pow with limiterBelow := some (p.limiterBelow.getD s.now) } } else s1).showCaps

/-! ## SUPPLY_ALERT_N (R515, R516) -/

def State.alertOn (s : State) : State :=
  let s1 := { s with tray := { s.tray with supplyAlert := true },
                     pow := { s.pow with alertHeld := true, alertUntil := none, tickCauses := s.pow.tickCauses ||| 4 } }
  s1.fallLowest.showCaps

def State.alertOff (s : State) : State :=
  if s.tray.supplyAlert then
    { s with tray := { s.tray with supplyAlert := false },
             pow := { s.pow with alertUntil := some (s.now + 10000000) } }
  else s

/-- The tray, or a regulator for a reason of its own, pulls the line down. -/
def execSupplyAlertAssert (s : State) : Out :=
  .next ({ s with tray := { s.tray with supplyTray := true } }).alertOn

/-- It lets the line go, which rises unless the main entry still holds it down (R487). -/
def execSupplyAlertDeassert (s : State) : Out :=
  let s1 := { s with tray := { s.tray with supplyTray := false } }
  .next (if s.tray.supplyReg then s1 else s1.alertOff)

def execSupplyAlertHoldEnd (s : State) : Out :=
  match s.pow.alertUntil with
  | none => .next s
  | some t =>
    if !s.tray.supplyAlert && decide (t ≤ s.now) then
      .next ({ s with pow := { s.pow with alertHeld := false, alertUntil := none } }).showCaps
    else .next s

/-! ## Droop (R514) -/

def execDroopDetect (r : BitVec 4) (s : State) : Out :=
  let x := s.region r.toNat
  if x.risen && !x.stretching then
    let s1 := s.setRegion r.toNat
      { x with stretching := true, stretchFrom := x.cycles, stretchEvents := x.stretchEvents + 1 }
    .next { s1 with pow := { s1.pow with tickCauses := s1.pow.tickCauses ||| 0x10 } }
  else .next s

def execDroopRecover (r : BitVec 4) (s : State) : Out :=
  let x := s.region r.toNat
  if x.stretching && decide (x.stretchFrom + 32000 ≤ x.cycles) then
    let s1 := s.setRegion r.toNat
      { x with stretching := false,
               stretchCycles := x.stretchCycles + BitVec.ofNat 64 ((x.cycles - x.stretchFrom) / 1000) }
    .next { s1 with pow := { s1.pow with tickCauses := s1.pow.tickCauses ||| 0x10 } }
  else .next s

/-! ## Throttled intervals (R511, R512) -/

/-- The causes that hold at this tick, and those gathered since the last. -/
def State.tickThrottle (s : State) : BitVec 16 :=
  if s.pow.mode = 1 then
    s.regions.foldl (fun (acc : BitVec 16) e => acc ||| e.2.departs s.pow.fixedMhz) s.pow.tickCauses
  else 0

/-- The power state with nothing gathered. -/
def PowSt.newTick (p : PowSt) : PowSt := { p with tickCauses := 0, tickCeiling := 8, tickMhz := 2300 }

def execThrottleTick (s : State) : Out :=
  let p := s.pow.newTick
  let causes := s.tickThrottle
  let risen := s.regions.filter (fun e => e.2.risen)
  let ceil := risen.foldl (fun m e => Nat.min m e.2.ceiling) s.pow.tickCeiling
  let mhz := risen.foldl (fun m e => Nat.min m e.2.current) s.pow.tickMhz
  if causes ≠ 0 then
    let old : ThrottleRec := p.throttleOpen.getD
      { start := s.ftimeWord.toNat - 1000000, finish := 0, causes := 0, ceiling := 8, mhz := 2300 }
    let new : ThrottleRec := { old with finish := s.ftimeWord.toNat, causes := old.causes ||| causes,
                                        ceiling := Nat.min old.ceiling ceil, mhz := Nat.min old.mhz mhz }
    .next ({ s with pow := { p with throttleOpen := some new,
                                    jobTicks := if s.jobLoaded then p.jobTicks + 1 else p.jobTicks } }).showCaps
  else
    match p.throttleOpen with
    | none => .next { s with pow := p }
    | some r =>
      .next (({ s with pow := { p with throttleOpen := none, intervals := p.intervals + 1,
                                       throttleLog := pushLast 32 p.throttleLog r } }).notify 0x2302).showCaps

/-! ## Window, energy (R490, R495, R536) -/

/-- WINDOW_AVG, in W, and the energy drawn since the last update, in uJ. -/
def execWindowAvgUpdate (avg main aux : Nat) (s : State) : Out :=
  .next ({ s with pow := { s.pow with windowAvg := avg, energyMain := s.pow.energyMain + main,
                                      energyAux := s.pow.energyAux + aux } }).showCaps

/-! ## The Ripener (R494, R500, R521-R528) -/

def PhaseEntry.avg (e : PhaseEntry) (r : Nat) : Nat := e.regions.getD r 0

def PowSt.phase (p : PowSt) (id : BitVec 16) : Option PhaseEntry :=
  if id = 0 then none else p.phaseTable.find? (fun e => e.id == id)

/-- CURRENT's PHASE_ID of a region. -/
def State.currentId (s : State) (r : Nat) : BitVec 16 := phaseId (s.region r).currentPhase

/-- The package phase: the one that most regions hold, a tie going to the lowest region. -/
def State.packagePhase (s : State) : BitVec 16 :=
  let ids := allRegions.map s.currentId
  let count (i : BitVec 16) : Nat := (ids.filter (fun j => j == i)).length
  (ids.filter (fun i => i ≠ 0)).foldl (fun best i => if best = 0 || decide (count best < count i) then i else best) 0

/-- B of R494. -/
def State.budgetNow (s : State) : Nat :=
  let p := s.pow
  1000 * (Nat.min p.effCap s.therm.allowance - (p.windowAvg - p.effCap))

def State.hasCores (s : State) (r : Nat) : Bool :=
  allCores.any (fun c => decide (coreRegion c = r) && s.org.present c)

/-- The demand of NEXT (R523). -/
def State.nextDemand (s : State) (even r : Nat) : Nat :=
  let v := (s.region r).nextPhase
  if !s.hasCores r then 0 else
  match s.pow.phase (phaseId v) with
  | some e => e.avg r
  | none => even * phaseClass v / 8

def State.demandOf (s : State) (even r : Nat) : Nat :=
  let x := s.region r
  let base := match s.pow.phase (phaseId x.currentPhase) with
    | some e => e.avg r
    | none => even
  if !s.hasCores r then 0
  else if phaseId x.nextPhase ≠ 0 ∧ -10000000 ≤ s.pastDue x then Nat.max base (s.nextDemand even r) else base

/-- One sample folded into an average (R527): the first sets it; one that the grant held down counts only above it. -/
def foldAvg (avg x : Nat) (held : Bool) : Nat :=
  if avg = 0 then x
  else if held && decide (x ≤ avg) then avg
  else ((avg : Int) + ((x : Int) - avg) / 8).toNat

/-- The table with an entry for the phase, the one seen least recently making room (R528). -/
def PowSt.ensurePhase (p : PowSt) (id : BitVec 16) : PowSt :=
  if id = 0 || (p.phase id).isSome then p
  else
    let new : PhaseEntry := { id := id, samples := 0, lastSeen := BitVec.ofNat 32 p.steps,
                              regions := List.replicate 16 0, hbm := 0, fabric := 0 }
    let age (e : PhaseEntry) : Nat := (BitVec.ofNat 32 p.steps - e.lastSeen).toNat
    let oldest := p.phaseTable.foldl (fun m e => Nat.max m (age e)) 0
    let kept :=
      if p.phaseTable.length < 64 then p.phaseTable
      else match takeFirst (fun e => decide (age e = oldest)) p.phaseTable with
        | none => p.phaseTable
        | some (_, rest) => rest
    { p with phaseTable := kept ++ [new] }

/-- Folds a region's sample into its phase's entry. -/
def PowSt.foldRegion (p : PowSt) (id : BitVec 16) (r x : Nat) (held : Bool) : PowSt :=
  let p1 := p.ensurePhase id
  { p1 with phaseTable := mapIf (fun (e : PhaseEntry) => e.id == id) (fun e =>
      { e with regions := e.regions.set r (foldAvg (e.avg r) x held), samples := satAdd 0xFFFF e.samples 1,
               lastSeen := BitVec.ofNat 32 p.steps }) p1.phaseTable }

def PowSt.foldPackage (p : PowSt) (id : BitVec 16) (hbm fabric : Nat) : PowSt :=
  { p with phaseTable := mapIf (fun (e : PhaseEntry) => id ≠ 0 && e.id == id) (fun e =>
      { e with hbm := foldAvg e.hbm hbm false, fabric := foldAvg e.fabric fabric false }) p.phaseTable }

/-- The grants of R524. -/
def shareBudget (ds : List (Nat × Bool)) (avail : Nat) : List Nat :=
  let sum := ds.foldl (fun n d => if d.2 then n + d.1 else n) 0
  let n := (ds.filter (fun d => d.2)).length
  ds.map (fun d =>
    if !d.2 then 0
    else if sum ≤ avail then d.1 + (avail - sum) / n
    else d.1 * avail / sum)

/-- The fixed terms and the HBM term of one step (R522). -/
def fixedOf (t : Telemetry) : Nat := t.fabric + t.aux + t.absentRegions

def State.hbmTerm (s : State) (t : Telemetry) : Nat :=
  match s.pow.phase s.packagePhase with
  | some e => e.hbm
  | none => t.hbm

def State.available (s : State) (t : Telemetry) : Nat := s.budgetNow - fixedOf t - s.hbmTerm t

/-- The even share of R523. -/
def State.evenShare (s : State) (t : Telemetry) : Nat :=
  let n := (allRegions.filter s.hasCores).length
  if n = 0 then 0 else s.available t / n

/-- Each region's demand, with whether it has a present core. -/
def State.demandList (s : State) (t : Telemetry) : List (Nat × Bool) :=
  allRegions.map (fun r => (s.demandOf (s.evenShare t) r, s.hasCores r))

/-- Table 11.10: 0 clock and ceiling under the grants, 1 park duty, 2 held parked, by B alone (R529). -/
def State.floorOf (s : State) (t : Telemetry) : Nat :=
  if s.budgetNow < t.parked then 2 else if s.budgetNow < t.lowestTotal then 1 else 0

/-- A grant falls below its region's draw at the lowest operating state (R526). -/
def State.underLowest (s : State) (t : Telemetry) (grants : List Nat) : Bool :=
  allRegions.any (fun r => s.hasCores r && decide (grants.getD r 0 < t.lowest.getD r 0))

/-- The grants of a step whose grants under R524 fall below the lowest-state draw while B does not (R526; Table 11.10, first row). The
spec names no others; each region gets its lowest-state draw and an equal share of what is left (DESIGN CHOICE, log 120). -/
def State.floorGrants (s : State) (t : Telemetry) : List Nat :=
  shareBudget (allRegions.map (fun r => (t.lowest.getD r 0, s.hasCores r))) (s.available t)

/-- The grants of a step. In park duty and when held parked the Ripener grants nothing (R526; log 120). -/
def State.stepGrants (s : State) (t : Telemetry) : List Nat :=
  let new := shareBudget (s.demandList t) (s.available t)
  if s.floorOf t ≠ 0 then List.replicate 16 0
  else if s.underLowest t new then s.floorGrants t
  else new

/-- The samples of the step, folded into the phase table (R527). -/
def State.foldSamples (s : State) (t : Telemetry) : PowSt :=
  let held (r : Nat) : Bool := decide (s.pow.grants.getD r 0 < s.pow.demands.getD r 0)
  let p1 := t.regions.zipIdx.foldl (fun (p : PowSt) e =>
    if s.currentId e.2 = 0 then p else p.foldRegion (s.currentId e.2) e.2 e.1 (held e.2)) s.pow
  p1.foldPackage s.packagePhase t.hbm t.fabric

/-- The power state after a step that gives these grants. -/
def State.ripened (s : State) (t : Telemetry) (grants : List Nat) (mode : Nat) : PowSt :=
  let p := s.foldSamples t
  let ds := s.demandList t
  { p with
    budget := s.budgetNow, hbmGrant := s.hbmTerm t, fixedTerms := fixedOf t, grants := grants,
    demands := ds.map (fun d => d.1), nextDemands := allRegions.map (s.nextDemand (s.evenShare t)),
    grantSum := fixedOf t + s.hbmTerm t + grants.foldl (fun a g => a + g) 0, steps := p.steps + 1,
    grantsDue := some (s.now + 1000, grants),
    capLimiting := ds.zipIdx.any (fun e => e.1.2 && decide (grants.getD e.2 0 < e.1.1)),
    fastLimit := Nat.min (s.budgetNow * 11 / 10) 5280000, floorMode := mode,
    attainable := decide (t.parked ≤ s.budgetNow), parkFloor := decide (mode = 2),
    parkSlice := p.parkSlice && decide (mode = 1) }

/-- Grants that fall are sent at once (R525). -/
def State.sendFalls (s : State) (grants : List Nat) : State :=
  grants.zipIdx.foldl (fun s e =>
    s.modRegion e.2 (fun r => if e.1 < r.grant then { r with grant := e.1 } else r)) s

def execRipenerStep (t : Telemetry) (s : State) : Out :=
  if !s.rindActive then .next s
  else
    let s0 := s.takeCap
    let grants := s0.stepGrants t
    .next ((({ s0 with pow := s0.ripened t grants (s0.floorOf t) }).sendFalls grants).park.showCauses.showCaps)

/-! ## Slices and unparking (R530, R532) -/

/-- `energy` is what the last WINDOW - 10 ms drew, in uJ, `lowest` the measured draw at the lowest operating state. -/
def execParkSlice (energy lowest : Nat) (s : State) : Out :=
  let p := s.pow
  if p.floorMode = 1 then
    let fits := decide (energy + 10 * lowest ≤ p.effCap * p.windowUse * 1000000)
    .next ({ s with pow := { p with parkSlice := !fits } }).park.showCaps
  else .next ({ s with pow := { p with parkSlice := false } }).showCaps

/-- The next region is released, 250 ns after the one before, from the rotation pointer, which the sequence moves on at its start
(06 R322). -/
def execUnpark (s : State) : Out :=
  let p := s.pow
  let begins := decide (p.parked = 0xFFFF)
  let from' := if begins then s.barriers.rotation else p.unparkFrom
  let order := (List.range 16).map (fun i => (from' + i) % 16)
  let busy := match s.barriers.lastRelease with
    | some t => decide (s.now < t + 250)
    | none => false
  if p.parkReason || busy || decide (s.now < p.unparkAt) then .next s
  else match order.find? (fun r => p.parked.getLsbD r) with
    | none => .next s
    | some r =>
      let left := p.parked &&& ~~~((1 : BitVec 16) <<< r)
      let s1 := { s with
        pow := { p with parked := left, unparkAt := s.now + 250, unparkFrom := from' },
        barriers := { s.barriers with
          lastRelease := some s.now,
          rotation := if begins then (s.barriers.rotation + 1) % 16 else s.barriers.rotation } }
      .next ((s1.modRegion r (fun x => { x with releasedAt := some s.now })).jobPark).showCaps

/-! ## Power gates (R541, R542) -/

/-- A core's gate may change: it is the core of that position, present, HALTED, with no Press or Ladle work. -/
def State.gateFree (s : State) (r pos : Nat) : Bool :=
  match s.org.coreAt r pos with
  | none => false
  | some c =>
    let k := s.core c
    s.org.present c && k.halted && k.pressQ.isEmpty && k.pressRun.isEmpty && k.ladleQ.isEmpty && k.ladleRun.isEmpty &&
      k.ladleTxs.isEmpty

/-- One bit of a gate write: off loses the Vat and whatever else the core holds, on comes up in CORE reset. -/
def State.gateBit (s : State) (r pos : Nat) (on : Bool) : State :=
  let x := s.region r
  if x.gate.getLsbD pos = on then s
  else if !s.gateFree r pos then
    s.setRegion r { x with gateRefused := if x.gateRefused = 0xFFFF then 0xFFFF else x.gateRefused + 1 }
  else
    let m : BitVec 68 := 1 <<< pos
    let s1 := s.setRegion r { x with gate := if on then x.gate ||| m else x.gate &&& ~~~m,
                                     on := if on then x.on ||| m else x.on &&& ~~~m }
    match s.org.coreAt r pos with
    | none => s1
    | some c => if on then s1.coreReset c else (s1.coreReset c).modCore c Core.powerDown

/-- A write of GATE_LO or GATE_HI: the bits that the mask writes. -/
def State.gateWrite (s : State) (r : Nat) (hi : Bool) (v mask : Word) : State :=
  let n := if hi then 4 else 64
  (List.range n).foldl (fun s i =>
    if mask.getLsbD i then s.gateBit r (if hi then 64 + i else i) (v.getLsbD i) else s) s

def execGateWrite (w : Writer) (r : BitVec 4) (hi : Bool) (v : Word) (s : State) : Out :=
  if s.mayControl w then .next (s.gateWrite r.toNat hi v allBits) else .next s

end Sys2Proof.Machine
end

