-- ==== Sys2Proof/Machine/Thermal.lean ====
section
/-! DEFINITION. Thermal control and cooling (12 R544-R582). Readings are in 1/16 degrees C. -/
namespace Sys2Proof.Machine

/-- Degrees C in the units of a reading. -/
def deg (n : Int) : Int := 16 * n

/-! ## STATE of objects 0x3001 and 0x3101 (R579, R581) -/

def ThermSt.stateNow (t : ThermSt) : Nat :=
  if t.heatTrip then 4
  else if t.dieForced || t.hbmForced then 3
  else if t.dieThrottle || t.hbmThrottle then 2
  else if t.sustained then 1 else 0

def ThermSt.coolNow (t : ThermSt) : Nat :=
  if t.heatTrip then 4
  else if t.fastStop then (if t.restoreFrom.isSome then 3 else 2)
  else if t.dataLost then 1 else 0

/-- Both STATE values follow what stands; an EVENT goes with each change. -/
def State.showTherm (s : State) : State :=
  let t := s.therm
  let s1 := if t.stateNow = t.state then s
    else ({ s with therm := { t with state := t.stateNow } }).notify 0x3001
  let s2 := if t.coolNow = t.coolState then s1
    else ({ s1 with therm := { s1.therm with coolState := t.coolNow } }).notify 0x3101
  s2.showCaps

/-- A health event of the thermal units, which Table 16.4 gives no unit code (log 31). -/
def State.thermHealth (s : State) (index object : Nat) : State := s.health 1 0 0 index object 0

/-! ## Die sensors (R545-R550) -/

def ThermSt.mark (t : ThermSt) (i : Nat) : Nat := Tab.get 0 t.marks i
def ThermSt.reading (t : ThermSt) (i : Nat) : Int := Tab.get 0 t.readings i

/-- Table 12.6: usable, or usable in a suspect pair. -/
def ThermSt.usable (t : ThermSt) (i : Nat) : Bool := decide (t.mark i ≤ 1)

/-- The other sensor of the hot spot. -/
def partner (i : Nat) : Nat := if i % 2 = 0 then i + 1 else i - 1

/-- New marks of sensors: kept in flash, a health event, and the reason THERMAL_SENSOR raised (R550). -/
def State.markSensors (s : State) (is : List Nat) (m : Nat) : State :=
  match is.filter (fun i => decide (s.therm.mark i < m)) with
  | [] => s
  | i :: rest =>
    let t := { s.therm with marks := (i :: rest).foldl (fun ms j => Tab.put 0 ms j m) s.therm.marks }
    ((({ s with therm := t }).storeValue 0x3002 3).thermHealth i 0x3002).raiseReason 5

def State.markSensor (s : State) (i m : Nat) : State := s.markSensors [i] m

/-- The controller masks a removed sensor from its comparator, unless both of the hot spot would then be masked (R569;
DESIGN CHOICE, log 32). -/
def State.maskSensor (s : State) (i : Nat) : State :=
  if Tab.get false s.therm.masked (partner i) then s
  else { s with therm := { s.therm with masked := Tab.put false s.therm.masked i true } }

/-- R547. -/
def implausible (old : Option Int) (r : SensorRead) : Bool :=
  decide (r.value < deg (-40)) || decide (deg 150 < r.value) || !r.checkOk ||
    (match old with | none => false | some o => decide (deg 20 < r.value - o) || decide (deg 20 < o - r.value))

def State.judgeSensor (s : State) (i : Nat) (r : SensorRead) : State :=
  let old := if s.therm.valid then some (s.therm.reading i) else none
  let s1 := if implausible old r then (s.markSensor i 3).maskSensor i else s
  { s1 with therm := { s1.therm with readings := Tab.put 0 s1.therm.readings i r.value } }

/-- R546: a pair that differs by more than 5 K for 100 ms without a break. -/
def State.judgePair (s : State) (h : Nat) : State :=
  let t := s.therm
  let a := t.reading (2 * h)
  let b := t.reading (2 * h + 1)
  if t.usable (2 * h) && t.usable (2 * h + 1) && (decide (deg 5 < a - b) || decide (deg 5 < b - a)) then
    let t0 := (Tab.get none t.differ h).getD s.now
    let s1 := { s with therm := { t with differ := Tab.put none t.differ h (some t0) } }
    if t0 + 100000000 ≤ s.now then s1.markSensors [2 * h, 2 * h + 1] 1 else s1
  else { s with therm := { t with differ := Tab.put none t.differ h none } }

/-- Whether a sensor rose as R548 expects over a step of `dp` mW. -/
def roseEnough (coef : Nat) (dp : Nat) (before after : Int) : Bool :=
  decide (8 ≤ after - before) && decide (40 * (coef * dp : Nat) ≤ (after - before) * 100 * 16000)

/-- Judges one sensor at the end of a qualifying step, by the highest reading within it. -/
def State.judgeCold (s : State) (dp : Nat) (w : PowerStep) (i : Nat) : State :=
  let rose (j : Nat) : Bool :=
    roseEnough (s.org.record.thermalCoef.getD (j / 2) 0) dp (w.readings.getD (j % 8) 0) (w.peaks.getD (j % 8) 0)
  if !rose i && rose (partner i) then
    let n := Tab.get 0 s.therm.coldFails i + 1
    let s1 := { s with therm := { s.therm with coldFails := Tab.put 0 s.therm.coldFails i n } }
    if 3 ≤ n then s1.markSensor i 2 else s1
  else { s with therm := { s.therm with coldFails := Tab.put 0 s.therm.coldFails i 0 } }

/-- The watch of a region with this sample's readings. -/
def PowerStep.see (w : PowerStep) (read : Nat → Int) : PowerStep :=
  { w with peaks := w.peaks.zipIdx.map (fun e => max e.1 (read e.2)) }

/-- The samples of the last 500 ms that no later one has undercut, oldest first: the first is the lowest POWER of that time. -/
def lowsWith (old : List PowerStep) (w : PowerStep) : List PowerStep :=
  old.filter (fun x => decide (w.since < x.since + 500000000) && decide (x.base < w.base)) ++ [w]

/-- R548 over one region: a rise of 40 W within 500 ms (DESIGN CHOICE, log 121) opens a watch, which ends when POWER falls back or
after 500 ms more. -/
def State.watchRegion (s : State) (r : Nat) : State :=
  let p := (s.region r).power
  let t := s.therm
  let rs := (List.range 8).map (fun k => t.reading (8 * r + k))
  let lows := lowsWith (Tab.get [] t.lows r) { since := s.now, base := p, readings := rs, peaks := rs }
  let setWatch (lows : List PowerStep) (s : State) (w : Option PowerStep) : State :=
    { s with therm := { s.therm with stepWatch := Tab.put none s.therm.stepWatch r w, lows := Tab.put [] s.therm.lows r lows } }
  match Tab.get none t.stepWatch r with
  | none =>
    match lows.head? with
    | none => s
    | some low =>
      if low.base + 40000 ≤ p then setWatch [] s (some { low with since := s.now, peaks := rs }) else setWatch lows s none
  | some w0 =>
    let w := w0.see (fun k => t.reading (8 * r + k))
    if p < w.base + 40000 then setWatch [] s none
    else if s.now < w.since + 500000000 then setWatch [] s (some w)
    else setWatch [] ((List.range 8).foldl (fun s k => s.judgeCold (p - w.base) w (8 * r + k)) s) none

/-- The governing reading of a hot spot with a usable sensor (R545 to R548). -/
def ThermSt.govern (t : ThermSt) (h : Nat) : Option Int :=
  let a := 2 * h
  let b := 2 * h + 1
  let guard (x : Int) : Int := if t.mark a = 0 ∧ t.mark b = 0 then x else x + deg 3
  if t.usable a && t.usable b then some (guard (max (t.reading a) (t.reading b)))
  else if t.usable a then some (guard (t.reading a))
  else if t.usable b then some (guard (t.reading b))
  else none

def maxOf (l : List Int) : Option Int :=
  l.foldl (fun m x => match m with | none => some x | some y => some (max x y)) none

/-- Governing readings of all hot spots: one without a usable sensor takes the highest of the others plus 10 K (R549). With
no usable sensor at all the spec gives no reading: `free`. -/
def ThermSt.governAll (t : ThermSt) (free : Int) : List Int :=
  let gs := (List.range 64).map t.govern
  let top := maxOf (gs.filterMap id)
  gs.map (fun g => match g with
    | some x => x
    | none => match top with | some m => m + deg 10 | none => free)

/-- The governing reading of a stack (R545). -/
def Stack.heat (x : Stack) : Int := max x.temperature x.packageTemp

def State.stackHeats (s : State) : List Int := s.org.fitted.map (fun n => (s.stack n).heat)

/-- Junction and stack limits that act within 1 ms (Table 12.4). -/
def ThermSt.limits (t : ThermSt) (now : Nat) (j h : Int) : ThermSt :=
  let dieCool := since t.dieCool (decide (j ≤ deg 100)) now
  let hbmCool := since t.hbmCool (decide (h ≤ deg 92)) now
  let below := since t.below92 (decide (j ≤ deg 92)) now
  { t with
    junction := j, hbmHottest := h, above95 := since t.above95 (decide (deg 95 < j)) now, below92 := below,
    sustained := t.sustained && !heldFor below 60000000000 now,
    dieThrottle := decide (deg 100 ≤ j) || (t.dieThrottle && decide (deg 97 ≤ j)),
    hbmThrottle := decide (deg 95 ≤ h) || (t.hbmThrottle && decide (deg 92 ≤ h)),
    dieForced := decide (deg 108 ≤ j) || (t.dieForced && !heldFor dieCool 1000000000 now),
    hbmForced := decide (deg 100 ≤ h) || (t.hbmForced && !heldFor hbmCool 1000000000 now),
    dieCool := dieCool, hbmCool := hbmCool }

/-- Forms the governing readings and acts on the limits; a forced state takes the lowest operating state. -/
def State.judgeHeat (s : State) (free : Int) : State :=
  let gs := s.therm.governAll free
  let j := (maxOf gs).getD free
  let h := (maxOf s.stackHeats).getD 0
  let t := { s.therm.limits s.now j h with governing := gs, hotSpot := gs.findIdx (fun x => x == j), valid := true }
  let s1 := { s with therm := t }
  (if (t.dieForced && !s.therm.dieForced) || (t.hbmForced && !s.therm.hbmForced) then s1.fallLowest else s1).showTherm

/-- All 128 sensors, every 1 ms. -/
def execDieSensorSample (rs : List SensorRead) (s : State) : Out :=
  if s.rindActive && decide (rs.length = 128) then
    let s1 := rs.zipIdx.foldl (fun s e => s.judgeSensor e.2 e.1) s
    let s2 := (List.range 64).foldl (fun s h => s.judgePair h) s1
    let s3 := (List.range 16).foldl (fun s r => s.watchRegion r) s2
    let (f, s4) := s3.drawFree
    .next (s4.judgeHeat f)
  else .next s

/-- CLEAR_FAULTS: every mark is cleared, and the sensors are evaluated afresh (R550). -/
def State.wClearFaults (s : State) (v : Nat) : WriteOut :=
  if v ≠ 1 then s.deny stInvalid
  else
    (({ s with therm := { s.therm with
        marks := [], masked := [], differ := [], coldFails := [], stepWatch := [], valid := false } }).storeValue
      0x3002 3).done

/-! ## Coolant flow (R554-R561) -/

/-- The taken flow in 0.000001 L/min (R556). -/
def ThermSt.taken (t : ThermSt) : Nat :=
  if t.suspect && decide (t.implied ≠ 0) then Nat.min (100000 * t.flow) t.implied else 100000 * t.flow

/-- A_flow (R557, R559), in W. It keeps its default until the first report. -/
def State.flowAllowance (s : State) : Nat :=
  let t := s.therm
  if t.dataLost then 1050
  else if s.tray.lastReport = 0 then t.aflow
  else Nat.min 4800 (((71 * t.taken : Nat) : Int) - 600000 * max 0 (t.inlet - 350) |>.ediv 100000).toNat

/-- Every 100 ms, from the 10 s averages of input power in W and of outlet minus inlet in 0.1 K (R554, R555). -/
def execFlowCheck (power : Nat) (dt : Int) (s : State) : Out :=
  let t := s.therm
  if !s.rindActive then .next s
  else if power < 1000 ∨ dt < 20 then
    .next { s with therm := { t with implied := 0, differFrom := none, agreeFrom := none } }
  else
    let q := 4000000 * power / (27 * dt.toNat)
    let f := 100000 * t.flow
    let gap := if f ≤ q then q - f else f - q
    let differ := since t.differFrom (decide (f < 5 * gap)) s.now
    let agree := since t.agreeFrom (decide (10 * gap ≤ f)) s.now
    let s1 := { s with therm := { t with implied := q, differFrom := differ, agreeFrom := agree } }
    if !t.suspect && heldFor differ 10000000000 s.now then
      let s2 := ({ s1 with therm := { s1.therm with suspect := true, suspectEvents := t.suspectEvents + 1 } })
      let s3 := (s2.thermHealth 0 0x3101).notify 0x3101
      .next (if t.suspectEvents = 0 then s3.raiseReason 7 else s3)
    else if t.suspect && heldFor agree 60000000000 s.now then
      .next (({ s1 with therm := { s1.therm with suspect := false } }).notify 0x3101)
    else .next s1

/-- ALLOWANCE is the lowest of 4,800 W, A_flow and A_J (R558). -/
def State.takeAllowance (s : State) : State :=
  let a := s.flowAllowance
  ({ s with therm := { s.therm with
      aflow := a, allowance := Nat.min 4800 (Nat.min a s.therm.aj) } }).showCaps

def execAllowanceUpdate (s : State) : Out := if s.rindActive then .next s.takeAllowance else .next s

/-- R559: no valid report for 2 s. -/
def execCoolantDataLost (s : State) : Out :=
  if s.rindActive && !s.therm.dataLost && decide (s.tray.lastReport + 2000000000 ≤ s.now) then
    .next ({ s with therm := { s.therm with dataLost := true, aflow := 1050 } }).showTherm
  else .next s

/-- P_f in W (R561); 0 when no NEXT lies within 10 s. -/
def State.forecast (s : State) : Nat :=
  let p := s.pow
  let holds (r : Nat) : Bool :=
    decide ((s.region r).nextPhase ≠ 0) && decide (-10000000000 ≤ s.pastDue (s.region r))
  if allRegions.any holds then
    let sum := allRegions.foldl (fun n r => n + (if holds r then p.nextDemands.getD r 0 else p.demands.getD r 0)) 0
    Nat.min p.effCap ((p.fixedTerms + p.hbmGrant + sum) / 1000)
  else 0

/-- The coolant demand in 0.1 L/min, rounded up (R560). -/
def State.demandNow (s : State) (power : Nat) : Nat :=
  if s.therm.sustained || s.therm.fastStop then 70
  else
    let x : Int := (11 * Nat.max power s.forecast : Nat) + 60 * max 0 (s.therm.inlet - 350)
    Nat.max 20 (Nat.min 70 ((x + 709) / 710).toNat)

/-! ## Fast stop (R562-R565) -/

/-- A fast stop begins: the falls of Table 11.8, then the park, and a demand of 7.0 L/min. -/
def State.fastStopOn (s : State) : State :=
  if s.therm.fastStop then s
  else
    let s1 := { s with therm := { s.therm with fastStop := true } }
    let s2 := if s.rindActive then ({ s1 with therm := { s1.therm with demand := 70 } }).trayWrite else s1
    s2.fallLowest.coolPark

/-- The coolant stop timer and the restore conditions follow the two triggers. -/
def State.followTriggers (s : State) : State :=
  let t := s.therm
  let on := t.fastLine || t.fastReport
  let ran := match t.stopFrom with | some a => t.stopTimer + (s.now - a) | none => t.stopTimer
  let restored := t.fastStop && !t.fastLine && decide (2 ≤ t.goodReports)
  let t1 := { t with stopTimer := if on then t.stopTimer else ran,
                     stopFrom := if on then some (t.stopFrom.getD s.now) else none,
                     restoreFrom := since t.restoreFrom restored s.now }
  ({ s with therm := t1 }).showTherm

def execCoolantFaultAssert (s : State) : Out :=
  let s1 := { s with tray := { s.tray with coolantFault := true }, therm := { s.therm with fastLine := true } }
  .next s1.fastStopOn.followTriggers

def execCoolantFaultDeassert (s : State) : Out :=
  let s1 := { s with tray := { s.tray with coolantFault := false }, therm := { s.therm with fastLine := false } }
  .next s1.followTriggers.retryMain

/-- A valid coolant report (13 R604): temperatures in 0.1 degrees C, flow in 0.1 L/min. -/
def State.coolantReport (s : State) (inlet outlet : Int) (flow : Nat) : State :=
  let t := { s.therm with inlet := inlet, outlet := outlet, flow := flow, dataLost := false }
  let low := decide (t.taken < 1000000)
  let good := if 2000000 ≤ t.taken then t.goodReports + 1 else 0
  let s1 := { s with therm := { t with fastReport := low, goodReports := good },
                     tray := { s.tray with lastReport := s.now } }
  let s2 := { s1 with therm := { s1.therm with aflow := s1.flowAllowance } }
  (if low then s2.fastStopOn else s2).followTriggers

/-- HEAT_TRIP_N is asserted (R569, R570): the lowest operating state; main power is not requested until it clears (R572), and a start
that waits for it shows why (14 R616). -/
def State.heatTripOn (s : State) (cause : Nat) : State :=
  if s.therm.heatTrip then s
  else
    let s1 := { s with therm := { s.therm with heatTrip := true, tripCause := cause, tripAt := s.now } }
    let s2 := (s1.setNotice 1 true).noRequest.fallLowest
    (if s2.inStep 3 && !s2.tray.holdsMain then s2.startCause 3 else s2).showTherm

def execCoolantStopTimeout (s : State) : Out :=
  let t := s.therm
  match t.stopFrom with
  | none => .next s
  | some a => if 5000000000 ≤ t.stopTimer + (s.now - a) then .next (s.heatTripOn 2) else .next s

def execFlowRestored (s : State) : Out :=
  let t := s.therm
  if t.fastStop && heldFor t.restoreFrom 1000000000 s.now then
    let s1 := { s with therm := { t with
      fastStop := false, restoreFrom := none, stopTimer := 0, stopFrom := none, fastReport := false } }
    .next (s1.coolPark.takeAllowance).showTherm
  else .next s

/-! ## Junction limits (R566, R567) -/

/-- A_J changes by its rule every 10 ms; `power` is the 10 ms average input power in W. -/
def execJunctionStep (power : Nat) (s : State) : Out :=
  let t := s.therm
  let j := t.junction
  let h := t.hbmHottest
  if !s.rindActive || !s.org.computeOn then .next s
  else
    let aj :=
      if deg 100 ≤ j ∨ deg 95 ≤ h then Nat.max 1050 (Nat.min t.aj power - 240)
      else if deg 97 ≤ j ∨ deg 92 ≤ h then t.aj
      else Nat.min 4800 (t.aj + 40)
    .next { s with therm := { t with aj := aj } }

def execSustainedLimit (s : State) : Out :=
  let t := s.therm
  if s.rindActive && !t.sustained && heldFor t.above95 60000000000 s.now then
    .next (({ s with therm := { t with
      sustained := true, sustainedEvents := t.sustainedEvents + 1, demand := 70 } }).trayWrite).showTherm
  else .next s

/-! ## Hardware trip (R569-R572) -/

def execComparatorTrip (i : BitVec 7) (s : State) : Out :=
  if Tab.get false s.therm.masked i.toNat then .next s else .next (s.heatTripOn 1)

/-- 1 ms after HEAT_TRIP_N every main-fed rail is off, as on loss of main power. -/
def execMainRailsOff (s : State) : Out :=
  if s.therm.heatTrip && decide (s.therm.tripAt + 1000000 ≤ s.now) && s.tray.holdsMain then
    .next (s.lossOfMain 0x4C).showTherm
  else .next s

/-- TRIP_CLEAR (R572). -/
def State.wTripClear (s : State) (v : Nat) : WriteOut :=
  if decide (v = 1) && !s.tray.mainPg && decide (s.tray.mainOff + 60000000000 ≤ s.now) && !s.tray.coolantFault &&
      decide (2000000 ≤ s.therm.taken) then
    let s1 := ({ s with therm := { s.therm with heatTrip := false, tripCause := 0 } }).setNotice 1 false
    s1.showTherm.restartMain.done
  else s.deny stInvalid

/-! ## Leak loop (R551-R553) -/

/-- Table 12.2: 0 dry, 1 wet, 2 fault. -/
def leakClass (ohm : Nat) : Nat := if ohm < 8000 then 1 else if ohm ≤ 12000 then 0 else 2

/-- A class takes effect. -/
def State.leakEffect (s : State) (c : Nat) : State :=
  let s1 := (({ s with therm := { s.therm with leak := c } }).notify 0x3101).setNotice 0 (decide (c = 1))
  if c = 1 then
    let s2 := { s1 with therm := { s1.therm with leakPark := true } }
    (s2.thermHealth 0 0x3101).fallLowest.coolPark
  else if c = 2 then ((s1.thermHealth 0 0x3101).raiseReason 6).retryMain
  else s1.retryMain

def execLeakSample (ohm : Nat) (s : State) : Out :=
  let c := leakClass ohm
  let t := s.therm
  let from' := if c = t.leakSeen then t.leakSince else s.now
  let dry := since t.leakDry (decide (c = 0)) s.now
  let s1 := { s with therm := { t with leakOhm := ohm, leakSeen := c, leakSince := from', leakDry := dry } }
  let s2 := if c ≠ t.leak ∧ from' + 100000000 ≤ s.now then s1.leakEffect c else s1
  if s2.therm.leakPark && decide (s2.therm.leak = 0) && heldFor dry 10000000000 s.now then
    .next ({ s2 with therm := { s2.therm with leakPark := false } }).coolPark.showTherm
  else .next s2.showTherm

/-! ## Thermal cycles and life (R574-R578) -/

/-- The bin of a cycle between two reversal points (R576). -/
def cycleBin (x y : Int) : Nat :=
  let ia := Nat.min ((x - y).natAbs / 80) 15
  let im := Nat.min (((x + y - 320) / 320).toNat) 11
  12 * ia + im

def addBin (bins : Tab Nat) (x y : Int) (n : Nat) : Tab Nat :=
  Tab.put 0 bins (cycleBin x y) (Tab.get 0 bins (cycleBin x y) + n)

/-- The four-point method over the residue, newest point first (R575). -/
def fourPoint : Nat → Tab Nat → List Int → Tab Nat × List Int
  | 0, bins, l => (bins, l)
  | fuel + 1, bins, l =>
    match l with
    | d :: c :: b :: a :: rest =>
      let x := (a - b).natAbs
      let y := (b - c).natAbs
      let z := (c - d).natAbs
      if x < y ∨ z < y then (bins, l) else fourPoint fuel (addBin bins b c 2) (d :: a :: rest)
    | _ => (bins, l)

/-- One reversal point: full cycles leave the residue, and a residue of 256 points gives its oldest half cycle up. -/
def ThermSt.reversal (t : ThermSt) (x : Int) : ThermSt :=
  let (bins, l) := fourPoint 256 t.bins (x :: t.residue.reverse)
  let r := l.reverse
  if r.length = 256 then { t with bins := addBin bins (r.getD 0 0) (r.getD 1 0) 1, residue := r.drop 1 }
  else { t with bins := bins, residue := r }

/-- One 100 ms sample of the junction temperature (R574). -/
def ThermSt.cycle (t : ThermSt) (j : Int) : ThermSt :=
  match t.extreme, t.rising with
  | none, _ => { t with extreme := some j }
  | some e, none =>
    if deg 1 ≤ j - e then { t with extreme := some j, rising := some true }
    else if deg 1 ≤ e - j then { t with extreme := some j, rising := some false }
    else t
  | some e, some true =>
    if e < j then { t with extreme := some j }
    else if deg 1 ≤ e - j then { t.reversal e with extreme := some j, rising := some false }
    else t
  | some e, some false =>
    if j < e then { t with extreme := some j }
    else if deg 1 ≤ j - e then { t.reversal e with extreme := some j, rising := some true }
    else t

def execCycleSample (s : State) : Out :=
  if s.rindActive then .next { s with therm := s.therm.cycle s.therm.junction } else .next s

/-- Bins and residue wait to be written to flash; FLASH_PROGRAM writes them as R597 allows. -/
def execCycleSave (s : State) : Out := if s.rindActive then .next (s.queueFlash .cycles) else .next s

/-- LIFE_USED in parts per million (R578), rounded down. -/
def lifeUsed (p : PartRecord) (bins : Tab Nat) : Nat :=
  let sum := bins.foldl (fun n e => n + e.2 * p.lifeM.getD (e.1 % 12) 0 * (10 * (e.1 / 12) + 5) ^ p.lifeN) 0
  sum * 1000 / (2 * p.lifeARef ^ p.lifeN * p.lifeNRef)

def execLifeEvaluate (s : State) : Out :=
  if !s.rindActive then .next s
  else
    let n := lifeUsed s.org.record s.therm.bins
    let warn := !s.therm.lifeWarned && decide (800000 < n)
    let s1 := { s with therm := { s.therm with lifeUsed := n, lifeWarned := s.therm.lifeWarned || warn } }
    let s2 := if warn then s1.thermHealth 0 0x3201 else s1
    .next (if s.therm.lifeUsed ≤ 1000000 ∧ 1000000 < n then s2.raiseReason 8 else s2)

end Sys2Proof.Machine
end

