-- ==== Sys2Proof/Machine/Tray.lean ====
section
/-! DEFINITION. The tray interface (13 R583-R613): power-good, reset, hold-up and eject lines, clocks, the I3C sideband,
isolation, flash programming, indicators. -/
namespace Sys2Proof.Machine

/-! ## LINES and the indicators (R609-R613) -/

/-- PPS_IN is present: its last pulse, of which each second brings one (R588), lies less than 2 s back (DESIGN CHOICE, log 122). -/
def State.ppsPresent (s : State) : Bool := s.tray.pps.any (fun t => decide (s.now < t + 2000000000))

def State.lineBits (s : State) : BitVec 16 :=
  let t := s.tray
  let bit (i : Nat) (b : Bool) : BitVec 16 := if b then 1 <<< i else 0
  bit 0 t.auxPg ||| bit 1 t.mainPg ||| bit 2 t.supplyAlert ||| bit 3 t.coolantFault ||| bit 4 s.therm.heatTrip |||
  bit 5 t.trayAlert ||| bit 6 t.eject ||| bit 7 t.holdup ||| bit 8 t.refFab ||| bit 9 t.refSys ||| bit 10 s.ppsPresent

/-- LED_STATUS_G and LED_STATUS_A (Table 13.7): the first row whose condition holds. -/
def State.statusLeds (s : State) : Blink × Blink :=
  if !s.org.auxOn then (.off, .off)
  else if s.therm.heatTrip then (.off, .on)
  else if s.faults.tierLost then (.off, .fast)
  else if s.start.step < 0x0A then (.slow, .off)
  else if (s.fw.update.type = 2 ∧ s.fw.update.isOpen = true) ∨ s.tray.stageState = 2 then (.on, .slow)
  else if s.faults.tier = 1 then (.off, .slow)
  else if s.faults.tier = 2 then (.on, .on)
  else if s.faults.tier = 3 then (.on, .off)
  else (.off, .off)

/-- LED_SERVICE_A (R611). -/
def State.serviceLed (s : State) : Blink := if s.faults.reasons ≠ 0 then .on else .off

/-- LED_LOCATE_B (R612). -/
def State.locateLed (s : State) : Blink := if s.tray.locateUntil.isSome then .slow else .off

/-- The active Rind controller writes the pattern registers; while none is active they keep their values, and an AUX domain in
reset shows nothing (R609). -/
def State.refreshLeds (s : State) : State :=
  let leds : Leds :=
    if !s.org.auxOn then Leds.reset
    else if s.rindActive then
      { green := s.statusLeds.1, amber := s.statusLeds.2, service := s.serviceLed, locate := s.locateLed }
    else s.tray.leds
  { s with tray := { s.tray with leds := leds } }

/-- LOCATE: 30 minutes from the last write of 1. -/
def State.wLocate (s : State) (v : Nat) : WriteOut :=
  let set (u : Option Nat) (on : Bool) : WriteOut :=
    (({ s with tray := { s.tray with locateUntil := u } }).setNotice 3 on).done
  if v = 1 then set (some (s.now + 1800000000000)) true else if v = 0 then set none false else s.deny stInvalid

def execLocateTimeout (s : State) : Out :=
  match s.tray.locateUntil with
  | none => .next s
  | some t =>
    if t ≤ s.now then .next (({ s with tray := { s.tray with locateUntil := none } }).setNotice 3 false) else .next s

/-! ## Main power (R593-R595) -/

/-- The tray grants the request; a MAIN_PG without one is ignored. -/
def execMainPgAssert (s : State) : Out :=
  let s1 := { s with tray := { s.tray with mainPg := true } }
  if s.tray.mainReq = 1 ∧ s.therm.heatTrip = false then
    .next ({ s1 with tray := { s1.tray with holdsMain := true } }).restoreTier
  else .next s1

/-- Releases main power in order: MAIN_REQ 0x02. The bins are saved (12 R577). -/
def State.releaseMain (s : State) : State :=
  (({ s with tray := { s.tray with mainReq := 2, holdsMain := false } }).trayWrite.queueFlash .cycles).evalTier

/-- MAIN_PG is deasserted: a loss while main power is held (R594), else the end of a release. -/
def execMainPgLoss (s : State) : Out :=
  let s1 := { s with
    tray := { s.tray with mainPg := false, mainOff := s.now },
    faults := { s.faults with ladder := { s.faults.ladder with
      offSince := if s.faults.ladder.step = 5 ∧ s.tray.mainReq = 2 then some s.now else none } } }
  if s.tray.holdsMain then .next (s1.lossOfMain 0x4A) else .next s1.mainDown.evalTier

/-- MAIN_RETRY of object 0x9003. -/
def State.wMainRetry (s : State) (v : Nat) : WriteOut :=
  if v ≠ 1 then s.deny stInvalid
  else if s.tray.holdsMain || decide (s.tray.mainReq = 1) then s.done
  else s.restartMain.done

/-- A domain fed from the main entry is powered. -/
def State.mainFed (s : State) : Bool := s.org.transitOn || s.org.computeOn || decide (s.org.memoryOn ≠ 0)

/-- The main entry leaves its range (11 Table 11.1): outside 36-63 V every rail that it feeds is switched off, in an orderly release
too. -/
def execMainEntryFault (e : EntryRange) (s : State) : Out :=
  match e with
  | .low => .next ({ s with tray := { s.tray with supplyReg := true } }).alertOn
  | .off => if s.tray.holdsMain || s.mainFed then .next (s.lossOfMain 0x4A) else .next s
  | .high => .next (s.health 1 0x0A 0 0 0x9002 0)
  | .back =>
    let s1 := { s with tray := { s.tray with supplyReg := false } }
    .next (if s.tray.supplyTray then s1 else s1.alertOff)

/-! ## Hold-up, eject and flash (R597-R599) -/

def execEjectAssert (s : State) : Out :=
  .next (({ s with tray := { s.tray with eject := true } }).notify 0x9002).gateSession

def execEjectDeassert (s : State) : Out := .next ({ s with tray := { s.tray with eject := false } }).gateSession

def execHoldupOkChange (high : Bool) (s : State) : Out :=
  .next ({ s with tray := { s.tray with holdup := high } }).gateSession

/-- An entry appended to a copy, whose appendix the island of the active Rind controller signs (01 R38). -/
def RecordCopy.append (x : RecordCopy) (e : AppEntry) (byA : Bool) : RecordCopy :=
  ({ x with entries := (if x.valid then x.entries else []) ++ [e] }).sign byA

/-- Appends the oldest pending entry to copy A, and with a write of its own to copy B, after which it pends no longer (01
R42, R43). -/
def State.appendEntry (s : State) : State :=
  let o := s.org
  let byA := decide (s.rind.a = .active)
  match o.pendingEntries with
  | [] => s
  | e :: rest =>
    if o.behindB then
      let s1 := { s with org := { o with
        copyB := o.copyB.append { e with seq := o.fieldSequence.toNat } byA, pendingEntries := rest } }
      if rest.isEmpty then s1 else s1.queueFlash .appendix
    else
      let n := o.fieldSequence + 1
      ({ s with org := { o with
        copyA := o.copyA.append { e with seq := n.toNat } byA, fieldSequence := n } }).queueFlash .appendix

/-- The other copy of the part record is rewritten from the one that governs (01 R39); with no valid appendix, the factory body alone. -/
def OrgSt.rewriteCopies (o : OrgSt) : OrgSt :=
  match o.governing with
  | none => { o with copyA := { o.copyA with bodyOk := true }, copyB := { o.copyB with bodyOk := true } }
  | some x => { o with copyA := x, copyB := x }

/-- Starts the oldest flash write that waits, only while HOLDUP_OK is high and EJECT_N deasserted. -/
def execFlashProgram (s : State) : Out :=
  if !s.rindActive || !s.flashOpen then .next s
  else match s.tray.flash with
    | [] => .next s
    | i :: rest =>
      let s1 := { s with tray := { s.tray with flash := rest } }
      match i with
      | .record => .next { s1 with org := s1.org.rewriteCopies }
      | .appendix => .next s1.appendEntry
      | .value _ _ => .next (s1.program i)
      | .cycles => .next (State.program { s1 with therm := { s1.therm with lastSave := s1.stamp } } i)
      | .routes => .next (s1.program i)

/-! ## Reference clocks (R589) -/

/-- A MGMT port leaves service (15 R652). -/
def State.mgmtDown (s : State) (p : MgmtPort) : State :=
  let f (x : MgmtPortSt) : MgmtPortSt := if x.up then { x with up := false, downSince := s.now } else x
  let o := match p with
    | .a => { s.oap with portA := f s.oap.portA }
    | .b => { s.oap with portB := f s.oap.portB }
  ({ s with oap := o }).notify 0x1101

/-- Each port that has a link loses it. -/
def State.portsLost (s : State) : State := allPorts.foldl (fun (t : State) p => t.linkLost p) s

def State.setRef (s : State) (k : RefClk) (on : Bool) : State :=
  match k with
  | .sys => { s with tray := { s.tray with refSys := on } }
  | .fab => { s with tray := { s.tray with refFab := on } }

def State.refOn (s : State) (k : RefClk) : Bool :=
  match k with
  | .sys => s.tray.refSys
  | .fab => s.tray.refFab

/-- The record of a lost clock; a start in progress stops with CAUSE 0x08. -/
def State.clockFault (s : State) (cause : Nat) : State :=
  let s1 := s.fatal { unit := 0x0A, cls := 4, cause := cause }
  if decide (s1.start.step ≤ 9) then s1.stopStart 8 else s1

/-- Releases main power when it is held or asked for. -/
def State.releaseIfHeld (s : State) : State :=
  if s.tray.holdsMain || decide (s.tray.mainReq = 1) then s.releaseMain else s

/-- Without REFCLK_SYS main power is released; without REFCLK_FAB every fabric and MGMT port leaves service. -/
def execRefclkLoss (k : RefClk) (s : State) : Out :=
  if !s.refOn k then .next s
  else
    let s1 := s.setRef k false
    match k with
    | .sys => .next (s1.clockFault 0x4D).releaseIfHeld
    | .fab => .next ((((s1.clockFault 0x4E).portsLost.mgmtDown .a).mgmtDown .b).evalTier)

def execRefclkRestore (k : RefClk) (s : State) : Out := .next (s.setRef k true).evalTier

/-! ## The sideband (R602-R605, Table 13.5) -/

/-- Register 0x008: a report is valid when SEQ has changed since the last read and both valid bits are set. -/
def State.readCoolant (s : State) (t : TrayRegs) : State :=
  let fresh := decide (s.tray.lastSeq ≠ some t.seq)
  let s1 := { s with tray := { s.tray with lastSeq := some t.seq } }
  if fresh && t.tValid && t.fValid then s1.coolantReport t.inlet t.outlet t.flow else s1

/-- Register 0x010 (R608): an isolation raises ISOLATED; a refusal ends the start. -/
def State.readPower (s : State) (t : TrayRegs) : State :=
  let old := s.tray.mainState
  let s1 := { s with tray := { s.tray with mainState := t.mainState, isoCause := t.isoCause } }
  if t.mainState = old then s1
  else
    let s2 := s1.notify 0x9003
    if t.mainState = 3 then
      let s3 := ({ s2 with tray := { s2.tray with isolations := s2.tray.isolations + 1 } }).storeValue 0x9003 3
      let s4 := s3.raiseReason 9
      if s4.tray.holdsMain then s4.lossOfMain 0x4B else s4.noRequest
    else if t.mainState = 2 ∧ s2.tray.mainReq = 1 then
      (if s2.inStep 3 then s2.noRequest.stopStart 1 else s2.noRequest)
    else s2

/-- Register 0x018: MODULE_STATE of G12 to G15. -/
def State.readModules (s : State) (t : TrayRegs) : State :=
  t.modules.zipIdx.foldl (fun s e =>
    if e.2 < 4 then s.moduleReport (44 + e.2) e.1 else s)
    { s with tray := { s.tray with modules := t.modules } }

/-- A tray that counts as absent reports no module (10 Table 10.3). -/
def State.modulesUnknown (s : State) : State := [44, 45, 46, 47].foldl (fun s p => s.moduleReport p 5) s

/-- Register 0x020. -/
def State.readStage (s : State) (t : TrayRegs) : State :=
  { s with tray := { s.tray with stageId := BitVec.ofNat 32 t.stageId, stageState := t.stageState } }

/-- NOTICE_ACK, register 0x108: TRAY_ALERT_N is deasserted when the tray has written it with the bits of NOTICE (R601). -/
def State.readAck (s : State) (t : TrayRegs) : State :=
  let a := BitVec.ofNat 8 t.noticeAck
  { s with tray := { s.tray with noticeAck := a,
                                 trayAlert := s.tray.trayAlert && !(t.ackWritten && decide (a = s.tray.notice)) } }

/-- PIECE_STATUS and PIECE_ECHO, register 0x030, which the package polls while it waits for a block. -/
def State.readPiece (s : State) (t : TrayRegs) : State :=
  { s with tray := { s.tray with pieceStatus := t.pieceStatus, pieceEcho := t.pieceEcho } }

/-- SETDASA gives the tray target, which has static address 0x3A, the dynamic address 0x08 (R602). -/
def State.setDasa (s : State) : State := { s with tray := { s.tray with address := 0x08 } }

/-- FORMAT; a major other than 1 means that the tray counts as absent. -/
def State.readFormat (s : State) (t : TrayRegs) : State :=
  { s with tray := { s.tray with format := t.formatMajor * 256 + t.formatMinor,
                                 busErrors := s.tray.busErrors + BitVec.ofNat 32 t.busErrors } }

/-- Every 100 ms: reads, then one write of 0x100 with the coolant demand; `power` is the 1 s average input power in W.
The first reading after power-up or a takeover reads every register (R605). -/
def execSidebandPoll (t : TrayRegs) (power : Nat) (s : State) : Out :=
  if !s.rindActive then .next s
  else
    let whole := decide (s.tray.format = 0) || s.rind.switching.isSome
    let s0 := s.setDasa.readFormat t
    if t.formatMajor ≠ 1 then .next s0.modulesUnknown
    else
      let s1 := (((s0.readCoolant t).readModules t).readAck t).readPiece t
      let s2 := if whole then (s1.readPower t).readStage t else s1
      .next ({ s2 with therm := { s2.therm with demand := s2.demandNow power } }).trayWrite

/-- Reads the registers that the interrupt's mandatory byte names. -/
def execInBandInterrupt (bits : BitVec 4) (t : TrayRegs) (s : State) : Out :=
  if !s.rindActive || decide (t.formatMajor ≠ 1) then .next s
  else
    let s1 := if bits.getLsbD 0 then s.readCoolant t else s
    let s2 := if bits.getLsbD 1 then s1.readPower t else s1
    let s3 := if bits.getLsbD 2 then s2.readModules t else s2
    .next (if bits.getLsbD 3 then s3.readStage t else s3)

end Sys2Proof.Machine
end

