-- ==== Sys2Proof/Machine/Startup.lean ====
section
/-! DEFINITION. Start-up (14 R614-R625): the AUX reset and what survives it, election, steps, region rise, training groups,
staged images (13 R606; 17 R747-R749, R756), the start of the runtime (02 R77). -/
namespace Sys2Proof.Machine

/-! ## What an AUX reset leaves (13 R592): values that lie in flash -/

def OrgSt.afterAux (o : OrgSt) : OrgSt :=
  { OrgSt.reset with
    record := o.record, recordBefore := o.recordBefore, copyA := o.copyA, copyB := o.copyB, fieldSequence := o.fieldSequence,
    auxOn := false }

/-- A reverted PART brings back the factory body before it (17 R749). -/
def OrgSt.revert (o : OrgSt) (i : Image) : OrgSt :=
  match o.recordBefore with
  | none => o
  | some x => if i.state = 1 then { o with record := x, recordBefore := none } else o

def PowSt.afterAux (p : PowSt) : PowSt :=
  let h := p.applyHeld
  { PowSt.reset with
    rackCap := p.rackCap, hostCap := p.hostCap, window := p.window, windowUse := p.window, capPending := true, rackOrder := p.rackOrder,
    effective := p.rackOrder, hold := p.hold, mode := h.mode, fixedMhz := h.fixedMhz, boostEn := p.boostEn,
    auxEpoch := p.auxEpoch + 1 }

def FaultSt.afterAux (f : FaultSt) : FaultSt :=
  { FaultSt.reset with
    health := f.health, reasons := f.reasons, firstNs := f.firstNs, raised := f.raised,
    windowMs := f.windowNext.getD f.windowMs }

def FabSt.afterAux (f : FabSt) : FabSt :=
  { FabSt.reset with
    chip := f.chip, group := f.group, member := f.member, planBlob := f.planBlob, signer := f.signer,
    planSigner := f.planSigner, planId := f.planId, plan := f.plan, planCause := f.planCause, swaps := f.swaps,
    ports := Tab.mapVals Port.reset (fun x => { Port.reset with logical := x.logical }) f.ports,
    flashRoutes := f.flashRoutes }

/-- The channels of a stack that the field appendix names. -/
def recordedChannels (es : List AppEntry) (n : Nat) : BitVec 32 :=
  es.foldl (fun (m : BitVec 32) e =>
    if e.kind = .hbmChannel ∧ e.location / 32 = n then m ||| (1 <<< (e.location % 32)) else m) 0

/-- Of a stack, what the field appendix and RETIRE_REQUEST hold; a mark that was not recorded is lost (01 R44). -/
def Stack.afterAux (x : Stack) (es : List AppEntry) (n : Nat) : Stack :=
  let named := recordedChannels es n
  let kept := (x.retired ||| x.failed) &&& (named ||| x.retireRequest)
  { Stack.reset with
    retired := kept, retirePending := named &&& ~~~kept, retireRequest := x.retireRequest,
    marked := x.marked.filter (fun m => es.any (fun e =>
      e.kind = .hbmRow && decide (e.location = (32 * n + m.1) * 2097152 + m.2))) }

def ThermSt.afterAux (t : ThermSt) : ThermSt :=
  { ThermSt.reset with marks := t.marks, masked := t.masked, bins := t.bins, residue := t.residue, lifeUsed := t.lifeUsed,
                       lifeWarned := t.lifeWarned, lastSave := t.lastSave }

def SitePort.afterAux (p : SitePort) : SitePort :=
  { SitePort.reset with asymmetry := p.asymmetry, moduleNs := p.moduleNs, moduleNext := p.moduleNext }

def OapSt.afterAux (o : OapSt) : OapSt :=
  { OapSt.reset with
    anchorOwner := o.anchorOwner, anchorRack := o.anchorRack, anchorHost := o.anchorHost,
    anchorObserver := o.anchorObserver, media := o.media, portA := MgmtPortSt.reset o.portA.mac,
    portB := MgmtPortSt.reset o.portB.mac }

/-- The first start after an activation stopped with CAUSE 0x04 to 0x07: the slots active before it are active again
(17 R749). -/
def Image.revert (i : Image) : Image :=
  match i.previous with
  | none => i
  | some n =>
    if i.state = 1 then
      { ((i.setSlot i.active { i.running with state := 2 }).setSlot n { i.slot n with state := 5 }) with
        active := n, previous := none, state := 4 }
    else i

/-- A RIND slot that is incomplete or not confirmed takes the confirmed image of its peer (17 R756). -/
def Image.rindCopy (i : Image) : Image :=
  if i.slot0.state = 5 ∧ i.slot1.state ≠ 5 then { i with slot1 := i.slot0 }
  else if i.slot1.state = 5 ∧ i.slot0.state ≠ 5 then { i with slot0 := i.slot1 } else i

def StartSt.failed (x : StartSt) : Bool := decide (x.step = 0x0B) && decide (4 ≤ x.cause) && decide (x.cause ≤ 7)

/-- A session over RIND ends as done when both controllers hold the new image, else as INTERRUPTED; any other resumes
(17 R746, R756). -/
def UpdateSt.afterAux (u : UpdateSt) (i : Image) : UpdateSt :=
  if u.type = 2 ∧ u.isOpen = true then
    (if i.slot0.state = 5 ∧ i.slot1.state = 5 ∧ i.slot0.imageId = i.slot1.imageId ∧ u.imageId = i.slot0.imageId then
       { u with state := 6, status := 0, asked := none }
     else { u with state := 7, status := 0x12, asked := none })
  else { u with asked := none }

def FwSt.afterAux (f : FwSt) (start : StartSt) (flashOpen : Bool) : FwSt :=
  let reverted := if start.failed then Tab.mapVals Image.reset Image.revert f.images else f.images
  let rind := Tab.get Image.reset reverted 2
  { FwSt.reset with
    images := Tab.put Image.reset reverted 2 (if flashOpen then rind.rindCopy else rind), server := f.server,
    fabricFetch := f.fabricFetch, locked := f.locked, lockAnchor := f.lockAnchor, certificate := f.certificate,
    update := f.update.afterAux (Tab.get Image.reset f.images 2) }

/-- The whole package after an AUX reset; the queue and memory stay as they were. -/
def State.auxReset (s0 : State) (byPin : Bool) : State :=
  let s := s0.recallAll.tearErase
  { State.reset with
    pending := s.pending, flashed := s.flashed, freeCount := s.freeCount, mem := s.mem, poison := s.poison, uncorrectable := s.uncorrectable, cellErrs := s.cellErrs, symbolErrs := s.symbolErrs,
    org := if s.start.failed then s.org.afterAux.revert (s.image 6) else s.org.afterAux, pow := s.pow.afterAux, faults := s.faults.afterAux, fab := s.fab.afterAux,
    hbm := { HbmSt.reset with stackTab := (List.range 8).filterMap (fun n =>
      let x := (s.stack n).afterAux s.org.appendix n
      if x = Stack.reset then none else some (n, x)) },
    therm := s.therm.afterAux, oap := s.oap.afterAux,
    site := { SiteSt.reset with ports := Tab.mapVals SitePort.reset SitePort.afterAux s.site.ports },
    tray := { TraySt.reset with auxPg := byPin, resetAsserted := byPin, isolations := s.tray.isolations,
                                eject := s.tray.eject, holdup := s.tray.holdup, refFab := s.tray.refFab,
                                refSys := s.tray.refSys, supplyAlert := s.tray.supplyAlert,
                                supplyTray := s.tray.supplyTray, supplyReg := s.tray.supplyReg,
                                coolantFault := s.tray.coolantFault, mainPg := s.tray.mainPg },
    fw := s.fw.afterAux s.start s.flashOpen, counters := { CounterSt.reset with controlOwner := s.counters.controlOwner },
    time := { TimeSt.reset with role := s.time.role }, start := { StartSt.reset with byPin := byPin } }

/-- The effective power state is decided afresh, between RACK_ORDER as flash holds it and HOST_ORDER, which reads RUN again (11 R505). -/
def State.ordersAfterAux (s : State) : State :=
  if s.pow.rackOrder = 0 then s else s.orderRecord 2 s.pow.rackOrder 0 s.pow.rackOrder 1

/-- The safety lines that stay asserted keep their hardware effect (R600). -/
def State.linesHeld (s : State) : State :=
  let s1 := if s.tray.supplyAlert then s.alertOn else s
  if s1.tray.coolantFault then
    ({ s1 with therm := { s1.therm with fastLine := true } }).fastStopOn.followTriggers
  else s1

/-- AUX_PG deasserted, or PKG_RESET_N asserted for 1 us: the AUX domain is reset at once, and main power held is lost. -/
def execAuxReset (byPin : Bool) (s : State) : Out :=
  let s1 := if s.tray.holdsMain then s.lossOfMain 0x4A else s
  .next (s1.auxReset byPin).ordersAfterAux.linesHeld

/-! ## Election (R615; 17 R727, R756, R760) -/

/-- A controller passes its Starter: a STARTER and a RIND image of either flash, its self-test, and its keys. -/
def starterPasses (x peer : StarterResult) : Bool :=
  (x.starterOk || peer.starterOk) && (x.rindOk || peer.rindOk) && x.selfTest && x.keysMatch

/-- No boot record verifies in either flash: each rollback floor is the SECURITY_VERSION of the running image (17 R729). -/
def Image.floorLost (i : Image) : Image := { i with floor := securityVersion i.running.desc }

def FwSt.floorsLost (f : FwSt) : FwSt :=
  { f with images := [1, 2, 3, 4, 5, 6].foldl (fun t k => Tab.put Image.reset t k (Tab.get Image.reset t k).floorLost) f.images }

/-- A reference clock that is absent when a controller claims is found by its Starter's check (R615) and acts as its loss (13 R589). -/
def State.checkClocks (s : State) : State :=
  let s1 := if s.tray.refSys then s else s.clockFault 0x4D
  if s.tray.refFab then s1 else s1.clockFault 0x4E

/-- Both Starters run. Rind A claims when it passes; Rind B waits for OWN_B_CLAIM; with no controller active the AUX domain stays held
(Table 14.1). Straps are sampled. -/
def execAuxPowerUp (straps : BitVec 2) (a b : StarterResult) (s : State) : Out :=
  if !s.inStep 1 || decide (s.rind.a ≠ .starter) || decide (s.rind.b ≠ .starter) then .next s
  else
    let pa := starterPasses a b
    let pb := starterPasses b a
    let s1 := { s with
      org := { s.org with auxOn := pa },
      tray := { s.tray with auxPg := true, resetAsserted := false, slot := straps.toNat },
      rind := { s.rind with a := if pa then .active else .starter, b := if pb then .standby else .starter,
                            ownA := pa, lowA := s.now, lowB := s.now },
      fw := { s.fw with images := Tab.mapVals Image.reset Image.eraseTorn s.fw.images },
      start := { s.start with stepMs := Tab.put notBegun s.start.stepMs 1 (s.now / 1000000) } }
    let s2 := (if a.bootOk || b.bootOk then s1 else { s1 with fw := s1.fw.floorsLost }).newLockNonce
    let s3 := if pa then s2.checkClocks else s2
    .next (if a.keysMatch && b.keysMatch then s3 else s3.raiseReason 10).evalTier

/-- Rind B claims when it has passed and OWN_A is still deasserted 3 s after AUX power-up. -/
def execOwnBClaim (s : State) : Out :=
  if s.inStep 1 && decide (s.rind.b = .standby) && !s.rind.ownA && decide (3000000000 ≤ s.now) then
    .next (({ s with org := { s.org with auxOn := true }, rind := { s.rind with b := .active, ownB := true } }).checkClocks).evalTier
  else .next s

/-! ## Step 0x02: part record, staged images, image checks -/

/-- The governing copy of the part record (01 R39, R41). -/
def OrgSt.selectRecord (o : OrgSt) : OrgSt :=
  match o.governing with
  | none =>
    ({ o with recordState := 2 } : OrgSt).applyRecord [] o.record.hidden
  | some x =>
    let o1 := { o with
      recordState := if o.copiesEqual then 0 else 1,
      fieldSequence := BitVec.ofNat 32 (Nat.max o.fieldSequence.toNat x.seq) }
    o1.applyRecord x.entries x.hidden

/-- An image as held in flash passes R738. -/
def State.slotVerifies (s : State) (t n : Nat) : Bool :=
  let x := (s.image t).slot n
  descFormat t x.desc && descSigned t x.desc && x.digestOk &&
    (List.range (descTotal x.desc)).all (fun i => decide (i = 0) || x.blockOk i (Tab.get [] x.blocks i))

/-- Types with a staged slot. -/
def State.stagedTypes (s : State) : List Nat :=
  [1, 3, 4, 5, 6].filter (fun t => decide (((s.image t).slot (s.targetSlot t)).state = 3))

def State.setStageResult (s : State) (r : Nat) : State :=
  s.setUpdate { s.fw.update with stageResult := r }

/-- The part record that the body of a PART image holds (17 R747). -/
def PartRecord.ofBody (body : List Byte) : PartRecord :=
  let f (k : Nat) : List Nat := Config.partField body k
  let num (k : Nat) : Nat := (f k).headD 0
  let bytes (k : Nat) : List Byte := (f k).map (BitVec.ofNat 8)
  { variant := num 0, hbmFitted := BitVec.ofNat 8 (num 1), opticalPorts := BitVec.ofNat 16 (num 2),
    siteCapable := BitVec.ofNat 16 (num 3), serial := bytes 4, assemblyVersion := bytes 5, factoryVersion := bytes 6,
    defects := f 7, hidden := (f 8).map (fun x => (x / 64, x % 64)), hbmRepair := f 9, calibration := bytes 10,
    signatures := bytes 11, thermalCoef := f 12, lifeARef := num 13, lifeN := num 14, lifeNRef := num 15, lifeM := f 16 }

/-- A copy of the part record whose factory body is replaced: the appendix is kept and signed again (17 R747). -/
def RecordCopy.renew (x : RecordCopy) (byA : Bool) (hid : Tab Nat) : RecordCopy :=
  ({ x with bodyOk := true, hidden := hid }).sign byA

/-- A PART activated replaces the factory body of both copies, and the grid follows the new record (17 R747). -/
def State.renewRecord (s : State) (body : List Byte) : State :=
  let o := s.org
  let x := PartRecord.ofBody body
  let byA := decide (s.rind.a = .active)
  let o1 := { o with
    record := x, recordBefore := some o.record, copyA := o.copyA.renew byA x.hidden, copyB := o.copyB.renew byA x.hidden }
  { s with org := o1.applyRecord o.appendix x.hidden }

/-- The body of an image in a slot (17 Table 17.4). -/
def Slot.body (x : Slot) : List Byte :=
  ((List.range (descBody x.desc)).flatMap (fun k => Tab.get [] x.blocks (1 + descTable x.desc + k))).take (descLength x.desc)

/-- Makes a staged slot active, awaiting confirmation; the slot active before stays complete. -/
def State.activate (s : State) (t : Nat) : State :=
  let i := s.image t
  let n := s.targetSlot t
  let i1 := (i.setSlot i.active { i.running with state := 2 }).setSlot n { i.slot n with state := 4 }
  let s1 := (s.setImage t { i1 with active := n, previous := some i.active, state := 1 }).notify (0x7000 + t)
  if t = 6 then s1.renewRecord (i.slot n).body else s1

/-- What the Starter does with the staged images (13 R606; 17 R748): it activates those with the tray's STAGE_ID if every staged
image verifies, discards them, or keeps them staged. A
tray that has not answered, or a start after PKG_RESET_N, keeps them. -/
def State.decideStaged (s : State) : State :=
  let ts := s.stagedTypes.filter (fun t => decide (((s.image t).slot (s.targetSlot t)).stageId = s.tray.stageId))
  if s.tray.format / 256 ≠ 1 ∨ ts = [] then s
  else if s.tray.stageState = 3 then ts.foldl (fun s t => s.modSlot t (s.targetSlot t) (fun _ => Slot.reset)) s
  else if s.tray.stageState = 2 ∧ s.start.byPin = false then
    (if s.stagedTypes.all (fun t => s.slotVerifies t (s.targetSlot t)) then (ts.foldl (fun s t => s.activate t) s).setStageResult 1
     else (s.setStageResult 3).health 1 0 0 0 0x7101 0)
  else s

/-- Running images that fail R738 are under repair (17 R751). -/
def State.imagesBad (s : State) (bad : List Nat) : State :=
  (bad.foldl (fun s t => (s.setImage t { s.image t with state := 2 }).notify (0x7000 + t)) s).askRepair 1

/-- Step 0x02 has ended: the other copy of the part record waits to be rewritten as R42 allows (01 R39; R624), and main power is requested, unless the part record or an image that Transit needs fails. -/
def State.endMgmt (s : State) (e : StepEnd) : State :=
  if !s.org.anyBody || decide (e = .failed) then (s.raiseReason 0).stopStart 5
  else
    let s0 := ({ s with org := s.org.selectRecord } : State)
    let s1 := (if s.org.copiesEqual then s0 else s0.queueFlash .record).decideStaged
    let s2 := match e with
      | .images bad => (s1.imagesBad bad).startCause 4
      | _ => s1
    let s3 := s2.gateSession.askNext
    if s3.imageOk 4 && s3.imageOk 6 then s3.startMain else s3.stopStart 4

/-! ## Steps 0x04 to 0x06 -/

/-- Both I/O dies are ready: the plan is verified again, the stored bank restored if it belongs to the plan in force, fabric
time acquires. -/
def State.transitUp (s : State) : State :=
  let s1 := ({ s with org := { s.org with transitOn := true } }).reloadPlan
  let s2 := match s1.fab.flashRoutes with
    | none => s1
    | some (bank, id) =>
      if s1.fab.plan.isSome && decide (id = s1.fab.planId) then
        { s1 with fab := { s1.fab with routes := bank, shadow := bank, activePlan := id } }
      else s1
  s2.timeStart.evalTier

def State.allRisen (s : State) : Bool := (List.range 16).all (fun r => (s.region r).risen)

/-- The RUNTIME image's body in the runtime area of HBM; what a factory image holds is left free. -/
def State.loadRuntime (s : State) : State :=
  let x := s.runningSlot 5
  let d := x.desc
  if d.isEmpty then s.havoc s.hbm.runtimeBase runtimeSize else s.storeAll s.hbm.runtimeBase x.body false

/-- Gives a core its first table entry and its starting address, which the spec leaves to the loader (free values, log 35),
and releases it. -/
def State.releaseCore (s : State) (c : CoreId) : State :=
  let (a, s1) := s.drawFree
  let (b, s2) := s1.drawFree
  let (p, s3) := s2.drawFree
  let e : RatEntry := { base := BitVec.ofNat 64 a &&& ratBaseMask, limit := BitVec.ofNat 64 b &&& ratLimitMask }
  s3.modCore c (fun k =>
    ({ k with rat := Tab.put RatEntry.zero k.rat 0 e, startPc := BitVec.ofNat 64 p }).start.raiseInt 4 0)

/-- The runtime is loaded and every present core released (02 R77). -/
def State.startRuntime (s : State) : State :=
  (allCores.filter s.org.present).foldl (fun s c => s.releaseCore c)
    (let s1 := s.loadRuntime
     { s1 with start := { s1.start with ran := true } })

/-- The Compute tier's parts are there. -/
def State.computeReady (s : State) : Bool :=
  s.org.computeOn && s.allRisen && s.hbmServes && allCores.any s.org.present

/-- Step 0x06 has ended: a layout, and with the Compute tier the runtime; fewer than two stacks lose the tier. -/
def State.endHbm (s : State) : State :=
  let s1 := if !s.hbmServes then
      (({ s with faults := { s.faults with tierLost := true } }).evalTier).startCause 7 else s
  (if s1.computeReady && s1.imageOk 5 then s1.startRuntime else s1).enterStep 7

/-- A site port that a retraining took out of service asks for its module's reset (07 R357; 10 R480). -/
def State.siteBack (s : State) (p : Nat) : State := if s.isSite p then (s.moduleRequest p 3).siteShow p else s

/-- Training ends on every fitted stack; after a retraining in recovery the site ports come back and the runtime is started
(07 R356, R357; 16 R711). -/
def execHbmTrainingDone (ts : List StackTraining) (s : State) : Out :=
  match s.hbm.trainingSince with
  | none => .next s
  | some _ =>
    let s1 := s.hbmTrained ts
    if !s.hbm.trainingRecovery then .next s1
    else
      let s2 := [44, 45, 46, 47].foldl (fun s p => s.siteBack p) { s1 with hbm := { s1.hbm with trainingRecovery := false } }
      .next (if s2.computeReady && s2.imageOk 5 then s2.startRuntime else s2)

/-- Training on every fitted stack has ended. -/
def State.trainingEnded (s : State) : Bool :=
  s.hbm.trainingSince.isNone && s.laidOut

/-! ## Steps 0x08 to 0x0A -/

/-- A port is decided (R614, step 0x08). -/
def State.portDecided (s : State) (p : Nat) : Bool :=
  let x := s.port p
  decide (x.state = stService) || decide (x.state = stQuarantine) || decide (x.state = stUnused) ||
    (decide (x.state = stDown) && decide (x.cause = 0x0A)) ||
    (s.fab.plan.isNone && decide (x.state = stDown) && (match x.limitFrom with
      | some t => decide (t + 5000000000 ≤ s.now)
      | none => false))

def State.portsDecided (s : State) : Bool := decide (s.start.groups = 6) && allPorts.all s.portDecided

/-- MISSING: ports that ended the step DOWN. -/
def State.missingPorts (s : State) : BitVec 48 :=
  allPorts.foldl (fun (m : BitVec 48) p => if (s.port p).state = stDown then m ||| (1 <<< p) else m) 0

/-- READY confirms every image that awaits it, and raises its floor (17 R729, R749). -/
def State.confirmImage (s : State) (t : Nat) : State :=
  let i := s.image t
  if i.state = 1 then
    let i1 := i.setSlot i.active { i.running with state := 5 }
    let s1 := (s.setImage t { i1 with state := 0, previous := none, floor := securityVersion i.running.desc }).notify (0x7000 + t)
    if t = 6 then { s1 with org := { s1.org with recordBefore := none } } else s1
  else s

def State.enterReady (s : State) : State :=
  let s1 := [1, 3, 4, 5, 6].foldl (fun s t => s.confirmImage t) s
  let s2 := s1.enterStep 0x0A
  { s2 with start := { s2.start with endTier := s2.faults.tier, recovery := false } }

/-- Step 0x09 has ended. -/
def State.tablesEnded (s : State) : Bool := decide (s.time.state = 2) || decide (s.start.begun + 3000000000 ≤ s.now)

/-- Ports of which a lane has failed its calibration (Table 14.1, step 0x07). -/
def State.lanesFailed (s : State) (ports : List Nat) : State :=
  ports.foldl (fun s p => s.modPort p (fun x => { x with laneFailed := true })) s

/-- The Compute tier is lost in step 0x05 or 0x06; the start goes on (R614). -/
def State.loseCompute (s : State) (cause : Nat) : State :=
  (({ s with faults := { s.faults with tierLost := true },
             start := { s.start with rising := false } }).evalTier).startCause cause

/-- The next step begins when the one in progress has ended as `e` tells; while its end condition does not hold, nothing
happens. -/
def execStartStepBegin (e : StepEnd) (s : State) : Out :=
  let bad := decide (e = .failed)
  match s.start.step with
  | 1 => .next (if s.rindActive then s.enterStep 2 else s)
  | 2 => .next (if s.rindActive then s.endMgmt e else s)
  | 3 => .next (if s.tray.mainPg && s.tray.holdsMain then s.enterStep 4 else s)
  | 4 =>
    if bad then .next (s.stopStart 0)
    else
      .next (s.transitUp.enterStep 5).computePower
  | 5 =>
    if bad then .next ((s.loseCompute 6).enterStep 6)
    else .next (if s.allRisen || !s.org.computeOn then s.enterStep 6 else s)
  | 6 => .next (if s.trainingEnded || bad then s.endHbm else s)
  | 7 =>
    let s1 := match e with
      | .lanes ports => (s.raiseReason 13).lanesFailed ports
      | .failed => (s.raiseReason 13).lanesFailed allPorts
      | _ => s
    let s2 := s1.enterStep 8
    .next { s2 with start := { s2.start with groups := 0, lastGroup := none } }
  | 8 =>
    if s.portsDecided then
      let s1 := s.fabricEval.enterStep 9
      .next { s1 with start := { s1.start with missing := s1.missingPorts } }
    else .next s
  | 9 => .next (if s.tablesEnded then s.enterReady else s)
  | _ => .next s

/-! ## Region rise (R617) -/

/-- The field appendix holds, or is to hold, an entry for a region. -/
def OrgSt.regionNoted (o : OrgSt) (r : Nat) : Bool :=
  (o.appendix ++ o.pendingEntries).any (fun e => decide (e.kind = .region) && decide (e.location = r))

/-- A failed region is recorded once in the field appendix (01 R38, R42). -/
def State.noteRegion (s : State) (r : Nat) : State := if s.org.regionNoted r then s else s.pendEntry .region r 0x43

/-- A router or clock generator that fails removes the Compute tier (16 Table 16.2). -/
def State.riseFailed (s : State) (r : Nat) : State :=
  let s1 := ((s.setRegionState r 2).noteRegion r).fatal { unit := 5, cls := 4, cause := 0x43, index := r }
  let s2 := s1.raiseReason 14
  { s2 with start := { s2.start with rising := false } }

/-- The shift selectors of a region's segments, set from the part record (01 R34). -/
def OrgSt.setSelectors (o : OrgSt) (r : Nat) : OrgSt :=
  { o with selectors := (List.range 8).foldl (fun t i =>
      Tab.put 0 t (4 * (8 * (r / 4) + i) + r % 4) (o.segSelectors (8 * (r / 4) + i) (r % 4))) o.selectors }

/-- The next region, 2 ms after the one before: rails, clock at 800 MHz; its self-test's defects are recorded and the remap takes
them in (01 R41, R788); shift selectors and gates as the part record then gives them; every core halted. -/
def execRegionRise (routerOk : Bool) (defects : List Nat) (s : State) : Out :=
  let r := s.start.rises
  let early := match s.start.lastRise with | some t => decide (s.now < t + 2000000) | none => false
  if !s.start.rising || !s.org.computeOn || decide (16 ≤ r) || early then .next s
  else if !routerOk then .next (s.riseFailed r)
  else
    let s1 := { s with start := { s.start with rises := r + 1, lastRise := some s.now, rising := decide (r ≠ 15) } }
    let s2 := ((defects.filter (fun d => decide (physRegion d = r))).foldl (fun s d => s.noteDefect d) s1).remapRegion r
    let s3 := { s2 with org := s2.org.setSelectors r }
    let gates := s3.org.recordGates r
    let s4 := s3.modRegion r (fun x => { Region.reset with cycles := x.cycles, gate := gates, on := gates, risen := true })
    .next (s4.setRegionState r 0).evalTier

/-! ## Training groups (R619) -/

/-- A port whose group begins, unless it has trained before a takeover, or a lane of it has failed its calibration and it stays DOWN: under a plan it trains; without one it waits DOWN. A site port asks for its module, and after a
package step for the module's reset (16 R713). -/
def State.beginPort (s : State) (p : Nat) : State :=
  if (s.port p).trained || (s.port p).laneFailed then s
  else
    let s1 := (s.powerLanes p).modPort p (fun x => { x with limitFrom := some s.now, lastTry := s.now })
    let s2 := s1.portState p (s.linklessState p) 0
    if s.isSite p then
      (s2.moduleRequest p (if s.start.recovery then 3 else 1)).siteShow p
    else s2

/-- Groups begin 2 s apart, in a package step 0.5 s. -/
def execTrainingGroupStart (s : State) : Out :=
  let k := s.start.groups
  let gap := if s.start.recovery then 500000000 else 2000000000
  let early := match s.start.lastGroup with | some t => decide (s.now < t + gap) | none => false
  if !s.inStep 8 || decide (6 ≤ k) || early then .next s
  else
    let s1 := { s with start := { s.start with groups := k + 1, lastGroup := some s.now } }
    .next ((List.range 8).foldl (fun s i => s.beginPort (8 * k + i)) s1)

end Sys2Proof.Machine
end

