-- ==== Sys2Proof/Machine/Faults.lean ====
section
/-! DEFINITION. Hang detection (16 R688-R694, R715, R719), fault records that software writes (R686), the abort engine's
commands (R695-R699), the reset control blocks (16 Table 16.12; 01 R51, R52, R56-R58; 03 R199), regulator phases (R680),
replacement reasons cleared (R723). -/
namespace Sys2Proof.Machine

/-! ## Progress and work pending (Table 16.5) -/

def queueNumbers : List Nat := [0, 1, 2, 3]

/-- A stack serves a request that has not been performed: a part of an access, a line fill or a Ladle transaction. -/
def State.hbmBusy (s : State) (n : Nat) : Bool :=
  let on (off : Nat) : Bool := match s.hbm.loc off with | some l => decide (l.1 = n) | none => false
  s.cores.any (fun e =>
    e.2.memops.any (fun m => m.parts.any (fun p => !p.performed && on (m.off + p.rel))) ||
    e.2.fills.any (fun f => f.read.isNone && on (64 * f.line)) ||
    e.2.ladleTxs.any (fun t => decide (t.path = .onChip) && (on (addrOff t.src) || on (addrOff t.dst))))

/-- A message waits for admission to a queue. -/
def State.admitWaits (s : State) (c : CoreId) (q : Nat) : Bool :=
  s.cores.any (fun e => e.2.outMsgs.any (fun m => !m.admitted && decide (m.target = some (c, q)))) ||
    s.dieMsgs.any (fun e => decide (e.2.target = some (c, q)))

def State.hangCounter (s : State) : HangUnit → BitVec 32
  | .core c => (s.core c).coreProgress
  | .press c => s.pressProgressNow c
  | .ladle c => (s.core c).ladleProgress
  | .queue c q => Tab.get 0 (s.core c).qProgress q
  | .hbm n => (s.stack n).progress
  | .port p => (s.port p).progress

def State.hangPending (s : State) : HangUnit → Bool
  | .core c => (s.core c).run && !(s.core c).halted && decide ((s.core c).stall ≠ .wfi)
  | .press c => !(s.core c).pressQ.isEmpty || !(s.core c).pressRun.isEmpty
  | .ladle c => !(s.core c).ladleQ.isEmpty || !(s.core c).ladleRun.isEmpty || !(s.core c).ladleTxs.isEmpty
  | .queue c q => decide (((s.core c).queue q).words ≠ 0) || s.admitWaits c q
  | .hbm n => s.hbmBusy n
  | .port p => !(s.port p).out.isEmpty

/-- A window counts for a unit (R690): its domain is out of reset, its Press above level 0, the job not in abort. -/
def State.hangCounts (s : State) (u : HangUnit) : Bool :=
  !s.faults.inAbort && match u with
    | .core c => s.coreAlive c
    | .press c => s.coreAlive c && !(s.core c).engineInReset && decide ((s.core c).pressLevel ≠ 0)
    | .ladle c => s.coreAlive c && !(s.core c).engineInReset
    | .queue c _ => s.coreAlive c && !(s.core c).engineInReset
    | .hbm n => s.org.memoryOn.getLsbD n
    | .port p => s.org.transitOn && s.portUp p

/-- The units in ascending UNIT, then UNIT_INDEX (R715): physical cores follow the order of logical ones. -/
def State.hangUnits (s : State) : List HangUnit :=
  let cs := allCores.filter s.org.present
  cs.map .core ++ cs.map .press ++ cs.map .ladle ++ cs.flatMap (fun c => queueNumbers.map (.queue c)) ++
    s.org.fitted.map .hbm ++ allPorts.map .port

/-- The unit had work and made no progress over the whole window. -/
def State.isHung (s : State) (u : HangUnit) : Bool :=
  s.hangPending u && s.hangCounts u &&
    s.faults.snaps.any (fun e => decide (e.1 = u) && e.2.counts && decide (e.2.counter = s.hangCounter u))

/-! ## Shadows (R693, Table 16.6) -/

def Core.stallCode (k : Core) : Nat :=
  if k.halted || !k.run then 8
  else match k.stall with
    | .none => 0
    | .twait _ _ _ _ => 1
    | .barrier _ _ => 2
    | .loadOrFence => 3
    | .acqinv => 3
    | .barrierFence => 2
    | .pressFull => 4
    | .ladleFull => 5
    | .msend => 6
    | .wfi => 7

/-- Address of the oldest instruction not retired: a load or atomic whose data has not returned, or the next one. -/
def Core.oldestPc (k : Core) : Word :=
  match k.memops.find? (fun m => decide (m.kind ≠ .store)) with
  | some m => m.pc
  | none => k.pc

def Core.oldestLadle (k : Core) : BitVec 16 :=
  match k.ladleTxs, k.ladleRun, k.ladleQ with
  | t :: _, _, _ => t.sub
  | [], r :: _, _ => r.desc.sub
  | [], [], d :: _ => d.sub
  | [], [], [] => 0

/-- SH_QUEUES. -/
def Core.shQueues (k : Core) : Word :=
  BitVec.ofNat 64 (queueNumbers.foldl (fun n q => n + (k.queue q).words % 4096 * 2 ^ (16 * q)) 0)

/-- SH_P_SUB, SH_P_TILE and SH_P_K of the oldest command that still works on a tile, else of the oldest started. -/
def Core.pressPlace (k : Core) : Nat :=
  match (k.pressRun.find? PressRun.working).or k.pressRun.head? with
  | some r =>
    r.cmd.sub.toNat * 2 ^ 48 + r.tile % 65536 * 2 ^ 32 +
      (if r.need = 0 then 0 else r.cmd.k * r.steps / r.need) % 65536 * 2 ^ 16
  | none => 0

/-- The shadow words. -/
def Core.shadowWords (k : Core) (ftime : Word) : List (Nat × Word) :=
  [(0x40, k.oldestPc),
   (0x48, BitVec.ofNat 64 (ftime.toNat % 2 ^ 48 * 2 ^ 16 + k.stallCode * 256)),
   (0x50, BitVec.ofNat 64 (k.pressPlace + k.pressLevel * 2 ^ 12 + k.pressQ.length * 2 ^ 7)),
   (0x58, BitVec.ofNat 64 (k.oldestLadle.toNat * 2 ^ 48 + k.ladleTxs.length * 2 ^ 40 + k.ladleQ.length * 2 ^ 34)),
   (0x60, k.ladleLast), (0x68, k.shQueues)]

def State.shadow (s : State) (c : CoreId) : State :=
  (s.pressSync c).modCore c (fun k => { k with
    shadows := (k.shadowWords s.ftimeWord).foldl (fun t e => Tab.put 0 t e.1 e.2) k.shadows })

/-! ## Declaring a unit hung (R694) -/

/-- Sets a bit of HUNG and counts the unit. -/
def State.countHung (s : State) (c : Option CoreId) (bit : Nat) : State :=
  let s1 := match c with
    | some c => s.modCore c (fun k => { k with hung := k.hung ||| (1 <<< bit) })
    | none => s
  ({ s1 with faults := { s1.faults with hungCount := s1.faults.hungCount + 1, lastHungSeq := s1.faults.seq } }).notify 0x8010

def State.declareHung (s : State) (u : HangUnit) : State :=
  match u with
  | .core c =>
    (s.contained { core := some c, unit := 1, cls := 3, cause := 0x40, index := s.org.physIndex c,
                   detail := BitVec.ofNat 32 (s.core c).stallCode } 2).countHung (some c) 0
  | .press c =>
    (s.contained { core := some c, unit := 2, cls := 3, cause := 0x40, index := s.org.physIndex c } 1).countHung (some c) 1
  | .ladle c =>
    (s.contained { core := some c, unit := 3, cls := 3, cause := 0x40, index := s.org.physIndex c } 1).countHung (some c) 2
  | .queue c q =>
    (s.contained { core := some c, unit := 4, cls := 3, cause := 0x40, index := 4 * s.org.physIndex c + q,
                   detail := BitVec.ofNat 32 ((s.core c).queue q).words } 1).countHung (some c) (3 + q)
  | .hbm n => (s.contained { unit := 6, cls := 3, cause := 0x40, index := 32 * n } 4).countHung none 0
  | .port p => ((s.faultRecord { unit := 7, cls := 1, cause := 0x40, index := p }).countHung none 0).linkLost p

/-- The window that begins: WINDOW_MS as last written, every unit's counter, and the shadows of every core served. -/
def State.beginWindow (s : State) : State :=
  let snaps := (s.hangUnits.filter (fun u => s.hangPending u && s.hangCounts u)).map
    (fun u => (u, HangSnap.mk (s.hangCounter u) true))
  let s1 := { s with faults := { s.faults with
    windowMs := s.faults.windowNext.getD s.faults.windowMs, windowNext := none, windowStart := s.now,
    windowRun := s.runNow, snaps := snaps } }
  (allCores.filter s.coreServes).foldl (fun s c => s.shadow c) s1

/-- The end of a hang window. A window in which the package was parked declares nothing, nor does one at whose end a new
WINDOW_MS takes effect (R690, R719; DEDUCED, log 38). -/
def execHangCheck (s : State) : Out :=
  let f := s.faults
  if s.now < f.windowStart + f.windowMs * 1000000 then .next s
  else
    let whole := decide (s.runNow - f.windowRun = s.now - f.windowStart) && f.windowNext.isNone && !f.inAbort
    let hung := if whole then s.hangUnits.filter s.isHung else []
    .next ((hung.foldl (fun s u => s.declareHung u) s).beginWindow)

/-- WINDOW_MS. -/
def State.wWindow (s : State) (v : Nat) : WriteOut :=
  if 1 ≤ v ∧ v ≤ 10000 then
    (({ s with faults := { s.faults with windowNext := some v } }).storeValue 0x8010 1).done
  else s.deny stInvalid

/-! ## Fault records written by software (R686) -/

def FaultSt.stage (f : FaultSt) : Die → FaultRec
  | .west => f.stageWest
  | .east => f.stageEast

/-- The record as committed: the die fills SOURCE, TIME, TIME_VALID and RECORD_SEQ; reserved bits are 0. -/
def State.staged (s : State) (r : FaultRec) : FaultRec :=
  { r with
    w0 := (r.w0 &&& 0xFFFFFFFFF0FFFFFF) ||| 0x1000000,
    w3 := BitVec.ofNat 64 ((s.ftimeWord.toNat % 2 ^ 48) * 2 ^ 16 + (if s.ftimeValid then 2 ^ 15 else 0)),
    w4 := (r.w4 &&& 0xFFFFFFFF) ||| BitVec.ofNat 64 ((s.faults.seq + 1).toNat * 2 ^ 32),
    w5 := r.w5 &&& 0xFFFF0000FFFFFFFF, w6 := r.w6 &&& 0xFFFFFFFF00000000, w7 := 0 }

def State.setStage (s : State) (d : Die) (r : FaultRec) : State :=
  match d with
  | .west => { s with faults := { s.faults with stageWest := r } }
  | .east => { s with faults := { s.faults with stageEast := r } }

/-- The store to W7. -/
def State.commitStage (s : State) (d : Die) : State :=
  let r := { s.faults.stage d with w7 := 0 }
  (s.setStage d r).commitRecord (s.staged r)

def execFaultRecordWrite (w : Writer) (d : Die) (_v : Word) (s : State) : Out :=
  if s.mayControl w && s.org.transitOn then .next (s.commitStage d) else .next s

/-! ## The abort engine (R695-R699) -/

/-- A write of 1 to ABORT_NOW. -/
def State.abortNow (s : State) : State := s.contained { unit := 0x0B, cls := 3, source := 1, cause := 0x50 } 1

def execAbortNow (w : Writer) (_d : Die) (s : State) : Out :=
  if s.mayControl w && s.org.transitOn then .next s.abortNow else .next s

/-- The next ABORT leaves, 2 ns after the one before, as an unflowed Signal packet. -/
def execAbortSend (s : State) : Out :=
  match s.faults.abortSends with
  | [] => .next s
  | e :: rest =>
    let early := match s.faults.abortLastSend with | none => false | some t => decide (s.now < t + 2)
    if early || !s.storeRoom .west then .next s
    else
      let s1 := { s with faults := { s.faults with abortSends := rest, abortLastSend := some s.now } }
      .next (s1.sendUnflowed .west (s.newPacket e.dstChip 0 noCore .signal e.kind .west e.args))

def FaultSt.abortCtx (f : FaultSt) : Die → AbortCtx
  | .west => f.abortWest
  | .east => f.abortEast

def State.setAbortCtx (s : State) (d : Die) (a : AbortCtx) : State :=
  match d with
  | .west => { s with faults := { s.faults with abortWest := a } }
  | .east => { s with faults := { s.faults with abortEast := a } }

/-- ABORTED, ABORTS_IN and STALE are cleared (R697). -/
def AbortCtx.fresh (a : AbortCtx) : AbortCtx := { a with aborted := false, abortsIn := 0, stale := 0 }

def State.writeAbortJob (s : State) (d : Die) (v : Word) : State :=
  s.setAbortCtx d { (s.faults.abortCtx d).fresh with jobId := v }

def execAbortJobIdWrite (w : Writer) (d : Die) (v : Word) (s : State) : Out :=
  if s.mayControl w && s.org.transitOn then .next (s.writeAbortJob d v) else .next s

/-! ## The reset control blocks (Table 16.12) -/

/-- The positions that a write names, 64 to 67 in the HI word. -/
def resetPositions (hi : Bool) (v : Word) : List Nat :=
  if hi then ((List.range 4).filter (fun i => v.getLsbD i)).map (fun i => 64 + i)
  else (List.range 64).filter (fun i => v.getLsbD i)

def State.namedCores (s : State) (r : Nat) (hi : Bool) (v : Word) : List CoreId :=
  (resetPositions hi v).filterMap (fun p => s.org.coreAt r p)

/-- A reset that arrives during another of the same domain, or during a larger one, is absorbed by it (01 R58). -/
def State.tryEngine (s : State) (c : CoreId) : State :=
  if (s.core c).engineInReset || (s.core c).coreInReset || (s.region (coreRegion c)).inReset || !(s.region (coreRegion c)).risen then s
  else s.engineReset c

def State.tryCore (s : State) (c : CoreId) : State :=
  if (s.core c).coreInReset || (s.region (coreRegion c)).inReset || !(s.region (coreRegion c)).risen then s else s.coreReset c

def execEngineReset (r : BitVec 4) (hi : Bool) (v : Word) (s : State) : Out :=
  .next ((s.namedCores r.toNat hi v).foldl (fun s c => s.tryEngine c) s)

def execCoreReset (r : BitVec 4) (hi : Bool) (v : Word) (s : State) : Out :=
  .next ((s.namedCores r.toNat hi v).foldl (fun s c => s.tryCore c) s)

/-- The neighbours hold new through-traffic, and the region's routers drain for at most 10 us (01 R51). -/
def State.beginRegionReset (s : State) (r : Nat) : State :=
  if !(s.region r).risen || (s.region r).inReset then s
  else
    let s1 := s.modRegion r (fun x => { x with inReset := true })
    let o := s1.org.holdMesh r
    ({ s1 with org := { o with
        regionDrainUntil := Tab.put none s1.org.regionDrainUntil r (some (s.now + 10000)),
        regionResets := Tab.put 0 s1.org.regionResets r (Tab.get 0 s1.org.regionResets r + 1) } }).setRegionState r 1

def execRegionReset (r : BitVec 4) (s : State) : Out := .next (s.beginRegionReset r.toNat)

/-- The drain ends: at once when the routers are empty, else 10 us after it began, with `n` flits left in them, which are
discarded, counted and reported; the region is reset. -/
def execRegionDrainEnd (r : BitVec 4) (n : Nat) (s : State) : Out :=
  match Tab.get none s.org.regionDrainUntil r.toNat with
  | none => .next s
  | some t =>
    if !s.org.computeOn || (decide (n ≠ 0) && decide (s.now < t)) then .next s
    else
      let s1 := if n = 0 then s else s.regionDiscard r.toNat n []
      .next ((s1.regionReset r.toNat).setRegionState r.toNat 0)

/-! ## Regulators (R680) -/

/-- A stack without power: its channels answer nothing. -/
def State.stackOff (s : State) (n : Nat) : State :=
  let s1 := s.modStack n (fun x => { x with state := 1, healthy := 0 })
  { s1 with org := { s1.org with memoryOn := s1.org.memoryOn &&& ~~~((1 : BitVec 8) <<< n) } }

/-- A region without power while COMPUTE has it: its STATE shows 0x02, since its clock generator does not work (DESIGN CHOICE,
log 100: Table 1.15 has no code of its own for it). -/
def State.regionOff (s : State) (r : Nat) : State :=
  if !s.org.computeOn then s
  else
  let s1 := (s.regionReset r).modCores ((List.range 1024).map (BitVec.ofNat 10)) (fun c k =>
    if coreRegion c = r then k.powerDown else k)
  (s1.modRegion r (fun x => { Region.reset with cycles := x.cycles })).setRegionState r 2

/-- Powers off the domains that a rail feeds, with their descendants (01 R53). -/
def State.railOff (s : State) : RailDomain → State
  | .transit => s.computeDown.memoryDown.transitDown
  | .compute => s.computeDown
  | .region r => s.regionOff r.toNat
  | .stack n => s.stackOff n.toNat

/-- The first phase of a rail is absorbed; a second one of the same rail costs what the rail feeds. -/
def execRegulatorPhaseLoss (rail : BitVec 8) (d : RailDomain) (s : State) : Out :=
  let n := Tab.get 0 s.faults.phasesLost rail.toNat
  let s1 := { s with faults := { s.faults with phasesLost := Tab.put 0 s.faults.phasesLost rail.toNat (n + 1) } }
  if n = 0 then .next ((s1.health 1 0x0A 0x4F rail.toNat 0x8001 0).raiseReason 11)
  else if n = 1 then
    .next ((s1.fatal { unit := 0x0A, cls := 4, cause := 0x4F, index := rail.toNat }).railOff d).evalTier
  else .next s1

/-! ## Replacement reasons (R723) -/

/-- CLEAR: the reasons named are cleared. -/
def State.wReplaceClear (s : State) (v : Nat) : WriteOut :=
  if 0x7FFF < v then s.deny stInvalid
  else
    let left := s.faults.reasons &&& ~~~(BitVec.ofNat 32 v)
    if left = s.faults.reasons then s.done
    else
      let s1 := { s with faults := { s.faults with reasons := left, reasonEpoch := s.faults.reasonEpoch + 1 } }
      (((s1.setNotice 2 (decide (left ≠ 0))).storeValue 0x8001 1).notify 0x8001).done

end Sys2Proof.Machine
end

