-- ==== Sys2Proof/Machine/Ladder.lean ====
section
/-! DEFINITION. The reset ladder (16 R707-R719, Table 16.11): its steps, their ends and timeouts, requests, the package step's
power cycle. -/
namespace Sys2Proof.Machine

def State.setLadder (s : State) (l : Ladder) : State := ({ s with faults := { s.faults with ladder := l } }).notify 0x8030

/-- Whether a Rind controller may begin a step: one is active, and no switch-over is in progress (R718). -/
def State.rindSteps (s : State) : Bool := s.rindActive && s.rind.switching.isNone

/-! ## Steps -/

/-- SCOPE (Table 16.17): region and position of the first named core, or the region. -/
def State.ladderScope (s : State) (l : Ladder) (n : Nat) : BitVec 16 :=
  match n with
  | 3 => BitVec.ofNat 16 (l.resetRegion.getD 0 * 4096)
  | 4 => 0
  | 5 => 0
  | _ =>
    match l.cores with
    | c :: _ => BitVec.ofNat 16 (coreRegion c * 4096 + s.org.position c)
    | [] => 0

/-- The present cores, without those listed. -/
def State.presentBut (s : State) (cs : List CoreId) : List CoreId :=
  allCores.filter (fun c => s.org.present c && !cs.contains c)

/-- Engine step: ENGINE of the named cores, after an abort of every present core. -/
def State.engineStep (s : State) (l : Ladder) : State :=
  (if l.every then s.presentBut [] else l.cores).foldl (fun s c => s.tryEngine c) s

/-- Core step: CORE of the named cores; after an abort, ENGINE of the others, and CORE of every core when none is named. -/
def State.coreStep (s : State) (l : Ladder) : State :=
  if l.every && l.cores.isEmpty then (s.presentBut []).foldl (fun s c => s.tryCore c) s
  else
    let s1 := l.cores.foldl (fun s c => s.tryCore c) s
    if l.every then (s.presentBut l.cores).foldl (fun s c => s.tryEngine c) s1 else s1

/-- Region step, with the ENGINE domains of the other cores after an abort. -/
def State.regionStep (s : State) (l : Ladder) : State :=
  let r := l.resetRegion.getD 0
  let s1 := s.beginRegionReset r
  if l.every then
    (s.presentBut []).foldl (fun s c => if coreRegion c = r then s else s.tryEngine c) s1
  else s1

/-- A site port leaves site service for a retraining, and its Cave is discarded (07 R357). -/
def State.siteOut (s : State) (p : Nat) : State :=
  if !s.isSite p then s
  else
    let s1 := (s.linkLost p).modSitePort p (fun q => { q with state := 4, caveBase := 0, storeBase := 0 })
    { s1 with hbm := { s1.hbm with caves := s1.hbm.caves.filter (fun e => e.1 ≠ p) } }.putStores
      (s1.site.stores &&& ~~~((1 : BitVec 16) <<< (p - 32)))

/-- Compute die step: COMPUTE, and MEMORY when HBM is retrained (R711). -/
def State.computeStep (s : State) (l : Ladder) : State :=
  let s1 := if l.retrain then
      let s0 := ([44, 45, 46, 47].foldl (fun s p => s.siteOut p) s).memoryDown
      { s0 with hbm := { s0.hbm with trainingRecovery := true } }
    else s
  s1.computeDown.computePower.evalTier

/-- The package step releases main power (R712). -/
def State.packageStep (s : State) : State := s.releaseMain

/-- The ladder is exhausted: package-fatal, and the Presence tier (R710). -/
def State.exhausted (s : State) : State :=
  let s1 := s.fatal { unit := 0x0C, cls := 4, source := 2, cause := 0x54, index := 5 }
  let s2 := s1.raiseReason 14
  let l := s2.faults.ladder
  let s3 := s2.setLadder { l with step := 0, scope := 0, want := 0, wantRetrain := false, cores := [], region := none, every := false }
  ({ s3 with faults := { s3.faults with
    inAbort := false, tier := Nat.min 1 s3.faults.tier,
    tierEpoch := if s3.faults.tier ≤ 1 then s3.faults.tierEpoch else s3.faults.tierEpoch + 1 } }).notify 0x8002

/-- A second package step for the same unit within 10 minutes; a request names no unit. -/
def Ladder.packageAgain (l : Ladder) (now : Nat) : Bool :=
  l.lastPackage.any (fun e => decide (e.1 = l.unit) && decide (e.2.1 = l.unitIndex) && decide (now ≤ e.2.2 + 600000000000))

/-- Begins a step; a region step that names no region is a compute die step, the next that encloses it. -/
def State.beginStep (s : State) (want : Nat) : State :=
  let l := s.faults.ladder
  let n := if want = 3 ∧ l.resetRegion = none then 4 else want
  if n = 5 ∧ l.packageAgain s.now then s.exhausted
  else
    let l1 := { l with
      step := n, scope := s.ladderScope l n, startedNs := s.stamp, startedAt := s.now, want := 0, retrain := l.wantRetrain,
      offSince := none,
      lastPackage := if n = 5 ∧ l.unit ≠ 0 then l.lastPackage ++ [(l.unit, l.unitIndex, s.now)] else l.lastPackage }
    let s1 := s.setLadder l1
    match n with
    | 1 => s1.engineStep l1
    | 2 => s1.coreStep l1
    | 3 => s1.regionStep l1
    | 4 => s1.computeStep l1
    | _ => s1.packageStep

/-- The ladder starts when the dump has completed or been skipped, with the largest first step asked for; every abort calls for
an engine step on every present core (R708). -/
def execLadderStart (s : State) : Out :=
  let f := s.faults
  if f.inAbort && !f.dumpDue && decide (f.dumpState ≠ 1) && decide (f.ladder.step = 0) && s.rindSteps && s.org.transitOn then
    let s1 := { s with faults := { f with ladder := { f.ladder with every := true } } }
    .next (s1.beginStep (Nat.max 1 f.ladder.want))
  else .next s

/-! ## Ends -/

/-- The end condition of Table 16.11. -/
def State.stepEnded (s : State) : Bool :=
  let l := s.faults.ladder
  let cs := if l.every then s.presentBut [] else l.cores
  let free := (cs.filter s.org.present).all (fun c => !(s.core c).coreInReset && !(s.core c).engineInReset)
  match l.step with
  | 1 => free
  | 2 => free
  | 3 => free && !(s.region (l.resetRegion.getD 0)).inReset
  | 4 => s.allRisen
  | 5 => s.tray.mainPg && s.tray.holdsMain && s.org.transitOn
  | _ => false

/-- One record of HISTORY. -/
def State.logStep (s : State) (outcome : Nat) : State :=
  let l := s.faults.ladder
  let h : LadderHist := { start := l.startedNs, finish := s.stamp, step := l.step, outcome := outcome, scope := l.scope,
                          seq := l.recordSeq }
  s.setLadder { l with history := pushLast 16 l.history h }

/-- The runtime restarts on the cores that a core or region step has reset (02 R77). -/
def State.restartCores (s : State) : State :=
  let l := s.faults.ladder
  let cs := match l.step with
    | 2 => if l.every && l.cores.isEmpty then s.presentBut [] else l.cores
    | 3 => (s.presentBut []).filter (fun c => decide (l.resetRegion = some (coreRegion c)))
    | _ => []
  cs.foldl (fun s c => s.releaseCore c) s

/-- What follows a compute die step: the runtime, unless HBM is still training (R711). -/
def State.afterCompute (s : State) : State :=
  if !s.hbm.trainingRecovery && s.computeReady && s.imageOk 5 then s.startRuntime else s

/-- The ladder is idle again; the tier returns as far as its needs hold (R714, R721). -/
def State.endLadder (s : State) : State :=
  let l := s.faults.ladder
  let s1 := s.setLadder { l with
    step := 0, scope := 0, want := 0, wantRetrain := false, retrain := false, cores := [], region := none, every := false,
    lastEnd := some s.now, lastStep := l.step, lastUnit := (l.unit, l.unitIndex, l.cause), unit := 0, unitIndex := 0,
    cause := 0 }
  ({ s1 with faults := { s1.faults with inAbort := false, snaps := [] } }).restoreTier

/-- A step ends. A larger one that an error has called for meanwhile begins at once, and absorbs a step that has not ended (01
R58; R717). -/
def execLadderStepEnd (s : State) : Out :=
  let l := s.faults.ladder
  if l.step = 0 ∨ s.rindSteps = false then .next s
  else if l.step < l.want then .next ((s.logStep (if s.stepEnded then 0 else 2)).beginStep l.want)
  else if s.stepEnded = false then .next s
  else
    let s1 := s.logStep 0
    let s2 := if l.step = 4 then s1.afterCompute else s1.restartCores
    .next s2.endLadder

/-! ## Timeouts (R709, R710) -/

/-- Timeouts of Table 16.11, ns. -/
def stepTimeout (n : Nat) : Nat :=
  match n with
  | 1 => 1000000
  | 2 => 5000000
  | 3 => 20000000
  | 4 => 100000000
  | _ => 2000000000

/-- The cores that the abandoned step leaves in reset are named for the next one. -/
def State.nameStuck (s : State) : State :=
  let l := s.faults.ladder
  let stuck := (s.presentBut []).filter (fun c => (s.core c).coreInReset || (s.core c).engineInReset)
  { s with faults := { s.faults with ladder := { l with cores := if l.step ≤ 2 ∧ l.cores = [] then stuck else l.cores } } }

def execLadderStepTimeout (s : State) : Out :=
  let l := s.faults.ladder
  if l.step = 0 ∨ s.now < l.startedAt + stepTimeout l.step ∨ s.stepEnded = true then .next s
  else
    let s1 := (s.logStep 1).faultRecord { unit := 0x0C, cls := 3, source := 2, cause := 0x53, index := l.step }
    let l1 := s1.faults.ladder
    let s2 := (s1.setLadder { l1 with escalations := l1.escalations + 1 }).nameStuck
    if l.step = 5 then .next s2.exhausted else .next (s2.beginStep (Nat.max (l.step + 1) l.want))

/-! ## Requests (R724) -/

/-- The fields of REQUEST: reserved bits 15:9 and 31:27 are 0, the position at most 67. -/
def requestOk (v : Nat) : Bool :=
  decide (1 ≤ v % 256) && decide (v % 256 ≤ 5) && decide (bitsOf v 15 9 = 0) && decide (bitsOf v 31 27 = 0) &&
    decide (bitsOf v 26 20 ≤ 67)

/-- REQUEST asks for a step. -/
def State.wLadderRequest (s : State) (role : Role) (v : Nat) : WriteOut :=
  if requestOk v = false then s.deny stInvalid
  else if s.faults.dumpState = 1 ∨ s.faults.ladder.step ≠ 0 ∨ s.faults.inAbort = true ∨ s.rindSteps = false then s.busy 100
  else if s.pow.hold = 1 ∧ role = .host then s.deny stHold
  else if s.jobLoaded then s.refuse 2
  else
    let n := v % 256
    let r := bitsOf v 19 16
    let l := s.faults.ladder
    let l1 := { l with
      cores := if n ≤ 2 then (s.org.coreAt r (bitsOf v 26 20)).toList else [], region := if n ≤ 3 then some r else none,
      every := false, wantRetrain := decide (n = 4) && v.testBit 8, recordSeq := 0, unit := 0, unitIndex := 0, cause := 0 }
    ((({ s with faults := { s.faults with ladder := l1 } }).beginStep n)).done

/-! ## The package step's second request (R712) -/

/-- 100 ms after MAIN_PG was deasserted, main power is requested again, and start-up steps 0x04 to 0x0A follow. -/
def execPackageStepRequest (s : State) : Out :=
  let l := s.faults.ladder
  match l.offSince with
  | none => .next s
  | some t =>
    if l.step = 5 ∧ t + 100000000 ≤ s.now ∧ s.tray.mainReq ≠ 1 then
      let s1 := { s with start := { s.start with step := 3, recovery := true, cause := 0 },
                         faults := { s.faults with ladder := { l with offSince := none } } }
      .next s1.requestMain
    else .next s

end Sys2Proof.Machine
end

