-- ==== Sys2Proof/Machine/Regs.lean ====
section
/-! DEFINITION. The registers of the package by address (01 Tables 1.11, 1.12; 02 Tables 2.6, 2.7): their words, and what a
write does to their writable fields; reserved bits read as 0 and ignore writes (00 R20, R21). -/
namespace Sys2Proof.Machine

/-! ## Core register windows (02 Table 2.6) -/

/-- The register at 0x008 of a queue block (06 Table 6.2). -/
def Queue.config (x : Queue) : Word :=
  BitVec.ofNat 64 ((if x.arrEn then 2 ^ 15 else 0) + x.arrTally.toNat * 2 ^ 8 + x.threshM1.toNat)

/-- A word of a queue block, by its offset from the doorbell. -/
def Queue.word (x : Queue) (off : Nat) : Word :=
  match off with
  | 0x008 => x.config
  | 0x010 => BitVec.ofNat 64 (x.discarded * 2 ^ 48 + x.msgs.length % 4096 * 2 ^ 32 + x.free % 4096 * 2 ^ 16 + x.words % 4096)
  | 0x018 => BitVec.ofNat 64 (x.received.toNat * 2 ^ 32 + x.truncated * 2 ^ 16 + x.parityErr)
  | _ => 0

def Queue.setConfig (x : Queue) (v mask : Word) : Queue :=
  let w := maskIn x.config v mask
  { x with arrEn := w.getLsbD 15, arrTally := w.extractLsb' 8 6, threshM1 := w.extractLsb' 0 8 }

/-- A word of an attribute table at a byte offset from its first entry. -/
def ratWord (t : Tab RatEntry) (off : Nat) : Word :=
  let e := Tab.get RatEntry.zero t (off / 16)
  if off % 16 = 0 then e.base else e.limit

def ratWrite (t : Tab RatEntry) (off : Nat) (v mask : Word) : Tab RatEntry :=
  let e := Tab.get RatEntry.zero t (off / 16)
  let e1 := if off % 16 = 0 then { e with base := maskIn e.base v (mask &&& ratBaseMask) }
    else { e with limit := maskIn e.limit v (mask &&& ratLimitMask) }
  Tab.put RatEntry.zero t (off / 16) e1

/-- A word of the progress page (16 Table 16.6). -/
def Core.progressWord (k : Core) (press : BitVec 32) (off : Nat) : Word :=
  match off with
  | 0x000 => k.coreProgress ++ press
  | 0x008 => k.ladleProgress ++ (0 : BitVec 32)
  | 0x010 => Tab.get 0 k.qProgress 0 ++ Tab.get 0 k.qProgress 1
  | 0x018 => Tab.get 0 k.qProgress 2 ++ Tab.get 0 k.qProgress 3
  | 0x020 => k.hung.setWidth 64
  | _ => Tab.get 0 k.shadows off

/-- RUN and HALTED. -/
def Core.control (k : Core) : Word := BitVec.ofNat 64 ((if k.run then 1 else 0) + (if k.halted then 2 else 0))

/-- A word of a core register window. -/
def State.coreWord (s : State) (c : CoreId) (off : Nat) : Word :=
  let k := s.core c
  match off / 0x1000 with
  | 0 => (k.queue (off / 0x400)).word (off % 0x400)
  | 1 => if off < 0x1200 then (Tab.get 0 k.tallies ((off - 0x1000) / 8)).setWidth 64 else 0
  | 2 => if off < 0x2100 then ratWord k.rat (off - 0x2000) else 0
  | 3 => if off = 0x3000 then k.startPc else if off = 0x3008 then k.control else 0
  | 4 => (s.readCnt c ((off - 0x4000) / 8)).getD 0
  | 5 => k.progressWord (s.pressProgressNow c) (off - 0x5000)
  | _ => 0

/-- A write to RUN starts or halts the core (02 R77, R801). -/
def Core.writeRun (k : Core) (v mask : Word) : Core :=
  if mask.getLsbD 0 then (if v.getLsbD 0 then k.start else k.stop) else k

/-- A store to the control page raises the doorbell interrupt (02 Table 2.11), after its own effect: a WFI that it halts stays
to be executed again. -/
def Core.writeControl (k : Core) (off : Nat) (v mask : Word) : Core :=
  let k1 := if off = 0x3000 then { k with startPc := maskIn k.startPc v mask }
    else if off = 0x3008 then k.writeRun v mask
    else k
  k1.raiseInt 4 0

/-- A write to a core register window: queue settings and tallies by the owning core alone. -/
def State.writeCoreWord (s : State) (w : Writer) (c : CoreId) (off : Nat) (v mask : Word) : State :=
  let own := decide (w = .core c)
  match off / 0x1000 with
  | 0 =>
    if own && decide (off % 0x400 = 0x008) then
      s.modCore c (fun k => k.setQueue (off / 0x400) ((k.queue (off / 0x400)).setConfig v mask))
    else s
  | 1 =>
    let t := (off - 0x1000) / 8
    if own && decide (t < 64) then
      s.modCore c (fun k => k.setTally t ((maskIn ((Tab.get 0 k.tallies t).setWidth 64) v mask).setWidth 32))
    else s
  | 2 => if off < 0x2100 then s.modCore c (fun k => { k with rat := ratWrite k.rat (off - 0x2000) v mask }) else s
  | 3 => s.modCore c (fun k => k.writeControl off v mask)
  | 4 => if (s.readCnt c ((off - 0x4000) / 8)).isSome then s.writeCnt c ((off - 0x4000) / 8) v mask true else s
  | _ => s

/-! ## Region control (02 Table 2.7; 11 Tables 11.13-11.15; 16 Table 16.12) -/

/-- Bits `lo` to `lo + n - 1` of a predicate over positions. -/
def bitsWhere (p : Nat → Bool) (lo n : Nat) : Word :=
  (List.range n).foldl (fun (m : Word) i => if p (lo + i) then m ||| (1 <<< i) else m) 0

def State.positionInReset (s : State) (r p : Nat) : Bool :=
  match s.org.coreAt r p with
  | none => (s.region r).inReset
  | some c => (s.region r).inReset || (s.core c).coreInReset || (s.core c).engineInReset

def State.levelAt (s : State) (r p : Nat) : Nat :=
  match s.org.coreAt r p with
  | none => 0
  | some c => (s.core c).pressLevel

/-- Sixteen of LEVELS. -/
def State.levelsWord (s : State) (r i : Nat) : Word :=
  BitVec.ofNat 64 ((List.range 16).foldl (fun n j =>
    if 16 * i + j < 68 then n + s.levelAt r (16 * i + j) * 2 ^ (4 * j) else n) 0)

def State.levelMax (s : State) (r : Nat) : Nat :=
  (s.org.regionCores r).foldl (fun m c => Nat.max m (s.core c).pressLevel) 0

/-- VOLT_MV: the setpoint that the calibration in the part record gives for the clock that runs or is to run (11 R506); the spec
gives the calibration no form (log 114). -/
def State.setpoint (s : State) (r : Nat) : BitVec 16 :=
  Config.railMv s.org.record.calibration r (Nat.max (s.region r).current (s.region r).target)

/-- STRETCH_CYCLES, with the cycles of a stretch that has not ended (11 R514). -/
def Region.stretched (x : Region) : Word :=
  x.stretchCycles + (if x.stretching then BitVec.ofNat 64 ((x.cycles - x.stretchFrom) / 1000) else 0)

/-- A word of a region control window. -/
def State.regionWord (s : State) (r off : Nat) : Word :=
  let x := s.region r
  match off with
  | 0x00028 => bitsWhere (s.positionInReset r) 0 64
  | 0x00030 => bitsWhere (s.positionInReset r) 64 4 ||| (if x.inReset then 0x10 else 0)
  | 0x10000 => BitVec.ofNat 64 ((s.setpoint r).toNat * 2 ^ 32 + x.target % 2 ^ 16 * 2 ^ 16 + x.current % 2 ^ 16)
  | 0x10008 => BitVec.ofNat 64 (x.limitCause % 256)
  | 0x10010 => x.stretchEvents
  | 0x10018 => x.stretched
  | 0x20000 => x.gate.setWidth 64
  | 0x20008 => (x.gate.extractLsb' 64 4).setWidth 64
  | 0x20010 => x.on.setWidth 64
  | 0x20018 => BitVec.ofNat 64 (Nat.min 0xFFFF x.gateRefused.toNat * 2 ^ 48 + (x.on.extractLsb' 64 4).toNat)
  | 0x30000 => BitVec.ofNat 64 (x.grant / 100 % 2 ^ 16 * 2 ^ 32 + x.power / 100 % 2 ^ 16 * 2 ^ 16 +
      (if x.rising then 256 else 0) + s.levelMax r * 16 + x.ceiling)
  | 0x30008 => x.nextPhase.setWidth 32 ++ x.currentPhase.setWidth 32
  | 0x30010 => x.nextDue &&& 0x0000FFFFFFFFFFFF
  | _ => if 0x30100 ≤ off ∧ off < 0x30128 then s.levelsWord r ((off - 0x30100) / 8) else 0

/-- The reset control block takes writes of the Rind controller alone (16 R708). -/
def State.writeReset (s : State) (r off : Nat) (v : Word) : State :=
  match off with
  | 0x000 => (s.namedCores r false v).foldl (fun s c => s.tryEngine c) s
  | 0x008 => (s.namedCores r true v).foldl (fun s c => s.tryEngine c) s
  | 0x010 => (s.namedCores r false v).foldl (fun s c => s.tryCore c) s
  | 0x018 => (s.namedCores r true v).foldl (fun s c => s.tryCore c) s
  | 0x020 => if v.getLsbD 0 then s.beginRegionReset r else s
  | _ => s

def State.writeRegionWord (s : State) (w : Writer) (r off : Nat) (v mask : Word) : State :=
  if off < 0x10000 then (if w = .rind then s.writeReset r off (v &&& mask) else s)
  else if off = 0x20000 then s.gateWrite r false v mask
  else if off = 0x20008 then s.gateWrite r true v mask
  else s

/-! ## Counter blocks (18 R783-R786) -/

def UnitCounters.word (u : UnitCounters) (off : Nat) : Word :=
  if off < 0x20 then u.ctlOf (off / 8) else if off < 0x40 then (u.cntOf ((off - 0x20) / 8)).setWidth 64 else 0

def UnitCounters.write (u : UnitCounters) (off : Nat) (v mask : Word) : UnitCounters :=
  if off < 0x20 then u.writeCtl (off / 8) v mask
  else if off < 0x40 then
    let n := (off - 0x20) / 8
    { u with cnt := Tab.put 0 u.cnt n ((maskIn ((u.cntOf n).setWidth 64) v mask).setWidth 48) }
  else u

/-- Who writes the blocks: the Rind controller while CONTROL_OWNER is 1, else RUNTIME software (R786). -/
def State.ownsCounters (s : State) (w : Writer) : Bool :=
  if s.counters.controlOwner = 1 then decide (w = .rind) else decide (w ≠ .rind)

/-- A store discarded under R786; one of the Rind controller is not counted. -/
def State.countDiscard (s : State) (w : Writer) : State :=
  if w = .rind then s else
  { s with counters := { s.counters with discarded := s.counters.discarded + 1 } }

/-! ## HBM controllers -/

def State.hbmWord (s : State) (n off : Nat) : Word :=
  let x := s.stack n
  if off = 0x100 then x.progress.setWidth 64
  else if 0x200 ≤ off ∧ off < 0x240 then (s.hbmCounters n).word (off - 0x200)
  else if 0x300 ≤ off ∧ off < 0x400 then
    let c := (off - 0x300) / 8
    BitVec.ofNat 64 (Tab.get 0 x.chanCorrected c * 2 ^ 32 + Tab.get 0 x.chanUncorrectable c)
  else 0

def State.writeHbmWord (s : State) (w : Writer) (n off : Nat) (v mask : Word) : State :=
  if 0x200 ≤ off ∧ off < 0x240 then
    if s.ownsCounters w then s.setHbmCounters n ((s.hbmCounters n).write (off - 0x200) v mask) else s.countDiscard w
  else s

/-! ## I/O dies -/

/-- Bytes 0x000 to 0xBFF of an abort context (16 Table 16.7). -/
def AbortCtx.word (a : AbortCtx) (off : Nat) : Word :=
  match off with
  | 0x000 => BitVec.ofNat 64 ((if a.valid then 2 ^ 63 else 0) + (if a.leader then 2 ^ 62 else 0) + a.leaderChip.toNat * 2 ^ 32 +
      a.members.toNat * 2 ^ 16 + a.otherLeaders.toNat)
  | 0x008 => a.jobId
  | 0x010 => if a.aborted then 2 else 0
  | 0x018 => a.abortsIn ++ a.stale
  | _ =>
    if 0x400 ≤ off ∧ off < 0xC00 then
      let i := (off - 0x400) / 8
      Tab.get 0 a.list (4 * i + 3) ++ Tab.get 0 a.list (4 * i + 2) ++ Tab.get 0 a.list (4 * i + 1) ++ Tab.get 0 a.list (4 * i)
    else 0

/-- A write to 0x000 of an abort context; one that sets VALID clears ABORTED and the counts (R697). -/
def AbortCtx.writeLists (a : AbortCtx) (v mask : Word) : AbortCtx :=
  let w := maskIn (a.word 0) v mask
  let a1 := if v.getLsbD 63 && mask.getLsbD 63 then a.fresh else a
  { a1 with valid := w.getLsbD 63, leader := w.getLsbD 62, leaderChip := w.extractLsb' 32 16, members := w.extractLsb' 16 5,
            otherLeaders := w.extractLsb' 0 9 }

def AbortCtx.writeList (a : AbortCtx) (off : Nat) (v mask : Word) : AbortCtx :=
  let i := (off - 0x400) / 8
  let w := maskIn (a.word off) v mask
  { a with list := (List.range 4).foldl (fun t j => Tab.put 0 t (4 * i + j) (w.extractLsb' (16 * j) 16)) a.list }

def State.writeAbortWord (s : State) (d : Die) (off : Nat) (v mask : Word) : State :=
  let a := s.faults.abortCtx d
  if off = 0x000 then s.setAbortCtx d (a.writeLists v mask)
  else if off = 0x008 then s.writeAbortJob d (maskIn a.jobId v mask)
  else if off = 0x010 then (if v.getLsbD 0 && mask.getLsbD 0 then s.abortNow else s)
  else if 0x400 ≤ off ∧ off < 0xC00 then s.setAbortCtx d (a.writeList off v mask)
  else s

def FaultRec.words (r : FaultRec) : List Word := [r.w0, r.w1, r.w2, r.w3, r.w4, r.w5, r.w6, r.w7]

def FaultRec.set (r : FaultRec) (i : Nat) (v : Word) : FaultRec :=
  match i with
  | 0 => { r with w0 := v }
  | 1 => { r with w1 := v }
  | 2 => { r with w2 := v }
  | 3 => { r with w3 := v }
  | 4 => { r with w4 := v }
  | 5 => { r with w5 := v }
  | 6 => { r with w6 := v }
  | _ => { r with w7 := v }

/-- The bits of a fault record's word that are not reserved (16 Table 16.3). -/
def stageMask (i : Nat) : Word :=
  match i with
  | 3 => 0xFFFFFFFFFFFF8000
  | 5 => 0xFFFF0000FFFFFFFF
  | 6 => 0xFFFFFFFF00000000
  | 7 => 0
  | _ => allBits

/-- A store to the record being written; the one to W7 commits it (16 R686). -/
def State.writeStage (s : State) (d : Die) (i : Nat) (v mask : Word) : State :=
  let r := s.faults.stage d
  let new := maskIn (r.words.getD i 0) v mask &&& stageMask i
  if i = 7 then s.commitStage d else s.setStage d (r.set i new)

/-- The words of a flow context (09 Table 9.6). -/
def Flow.word (f : Flow) (i : Nat) : Word :=
  match i with
  | 0 => BitVec.ofBool f.valid ++ BitVec.ofBool f.sink ++ f.cls ++ BitVec.ofBool f.winEn ++ BitVec.ofBool f.site ++
      BitVec.ofBool f.offSched ++ (0 : BitVec 1) ++ f.err ++ f.peerChip ++ f.peerFlow ++ f.epoch ++ f.owner
  | 1 => f.schedId ++ (0 : BitVec 48)
  | 2 => f.window ++ BitVec.ofNat 32 f.inFlight
  | 3 => f.seq ++ f.ackSeq
  | 4 => f.count ++ BitVec.ofNat 16 f.refusals ++ BitVec.ofNat 16 f.discards
  | 5 => f.bytes
  | 6 => f.returned
  | 7 => f.lastTime ++ (0 : BitVec 16)
  | _ => if 8 ≤ i ∧ i < 24 then f.rxMap.extractLsb' (64 * (i - 8)) 64 else 0

/-- A write of VALID, EPOCH or ROLE resets the RO fields to 0. -/
def Flow.restart (f : Flow) (now : Nat) : Flow :=
  { Flow.reset with
    valid := f.valid, sink := f.sink, cls := f.cls, winEn := f.winEn, site := f.site, offSched := f.offSched, err := f.err,
    peerChip := f.peerChip, peerFlow := f.peerFlow, epoch := f.epoch, owner := f.owner, schedId := f.schedId,
    window := f.window, auditAt := now }

/-- The bits of W0 that hold VALID, ROLE and EPOCH. -/
def flowRestartMask : Word := 0xC00000000003FC00

/-- A write to a word of a flow context. -/
def Flow.write (f : Flow) (i : Nat) (v mask : Word) (now : Nat) : Flow :=
  match i with
  | 0 =>
    let w := maskIn (f.word 0) v mask
    let f1 := { f with
      valid := w.getLsbD 63, sink := w.getLsbD 62, cls := w.extractLsb' 60 2, winEn := w.getLsbD 59, site := w.getLsbD 58,
      offSched := f.offSched && !(v.getLsbD 57 && mask.getLsbD 57), err := w.extractLsb' 48 8, peerChip := w.extractLsb' 32 16,
      peerFlow := w.extractLsb' 18 14, epoch := w.extractLsb' 10 8, owner := w.extractLsb' 0 10 }
    if mask &&& flowRestartMask = 0 then f1 else f1.restart now
  | 1 => { f with schedId := (maskIn (f.word 1) v mask).extractLsb' 48 16 }
  | 2 => { f with window := (maskIn (f.word 2) v mask).extractLsb' 32 32 }
  | _ => f

/-- The flow context at an offset of a die's flow area. -/
def flowAt (d : Die) (off : Nat) : Nat := off / 256 + (match d with | .west => 0 | .east => 8192)

/-- Held tally writes of a flow whose epoch is no longer the context's are discarded and counted there (06 R307): those of the hold
queue, and those that waited in the reorder store as `before` had it. -/
def State.dropStaleHolds (s : State) (n : Nat) (before : Flow) : State :=
  let f := s.flow n
  let waited := (before.held.filter (fun k => decide (k.kind = .tallyWrite) && decide (k.epoch ≠ f.epoch))).length
  let stale (h : HeldTally) : Bool := decide (h.flow = n) && (!f.valid || decide (h.pkt.epoch ≠ f.epoch))
  let gone := ((s.die (flowDie n)).holds.filter stale).length
  (s.modDie (flowDie n) (fun x => { x with holds := x.holds.filter (fun h => !stale h) })).modFlow n
    (fun f => { f with discards := satAdd 0xFFFF f.discards (gone + waited) })

/-- A write that restarts a flow also forgets the tally writes that the source still held for it, and those of an earlier epoch
that the sink holds. -/
def State.writeFlow (s : State) (n i : Nat) (v mask : Word) : State :=
  let s1 := s.modFlow n (fun f => f.write i v mask s.now)
  if i = 0 ∧ mask &&& flowRestartMask ≠ 0 then
    ({ s1 with fab := { s1.fab with sentTallies := s1.fab.sentTallies.filter (fun t => t.flow ≠ n) } }).dropStaleHolds n (s.flow n)
  else s1

/-- A word of an I/O die's registers. -/
def State.dieWord (s : State) (d : Die) (off : Nat) : Word :=
  let ownPort (p : Nat) : Bool := decide (p < 48) && decide (portDie p = d)
  if 0x800000 ≤ off then
    (if off - 0x800000 < 0x200000 then (s.flow (flowAt d (off - 0x800000))).word (off % 256 / 8) else 0)
  else if 0x1000 ≤ off ∧ off < 0x1100 then ratWord (s.die d).inbound (off - 0x1000)
  else if 0x2000 ≤ off ∧ off < 0x2C00 then (s.faults.abortCtx d).word (off - 0x2000)
  else if 0x3000 ≤ off ∧ off < 0x3040 then (s.faults.stage d).words.getD ((off - 0x3000) / 8) 0
  else if 0x4000 ≤ off ∧ off < 0x4180 then
    (if ownPort ((off - 0x4000) / 8) then (s.port ((off - 0x4000) / 8)).progress.setWidth 64 else 0)
  else if 0x8000 ≤ off ∧ off < 0x8C00 then
    (if ownPort ((off - 0x8000) / 64) then (s.portCounters ((off - 0x8000) / 64)).word (off % 64) else 0)
  else 0

def State.writeDieWord (s : State) (w : Writer) (d : Die) (off : Nat) (v mask : Word) : State :=
  let ownPort (p : Nat) : Bool := decide (p < 48) && decide (portDie p = d)
  if 0x800000 ≤ off then
    (if off - 0x800000 < 0x200000 then s.writeFlow (flowAt d (off - 0x800000)) (off % 256 / 8) v mask else s)
  else if 0x1000 ≤ off ∧ off < 0x1100 then s.modDie d (fun x => { x with inbound := ratWrite x.inbound (off - 0x1000) v mask })
  else if 0x2000 ≤ off ∧ off < 0x2C00 then s.writeAbortWord d (off - 0x2000) v mask
  else if 0x3000 ≤ off ∧ off < 0x3040 then s.writeStage d ((off - 0x3000) / 8) v mask
  else if 0x8000 ≤ off ∧ off < 0x8C00 ∧ ownPort ((off - 0x8000) / 64) = true then
    let p := (off - 0x8000) / 64
    if s.ownsCounters w then s.setPortCounters p ((s.portCounters p).write (off % 64) v mask) else s.countDiscard w
  else s

/-! ## By address -/

/-- The 64-bit register word at an offset that 8 bytes align. -/
def State.regWord (s : State) (off : Nat) : Word :=
  match spaceOf off with
  | .core c o => s.coreWord c o
  | .region r o => s.regionWord r o
  | .hbmCtl n o => s.hbmWord n o
  | .ioDie d o => s.dieWord d o
  | .barrier n o => (s.ctx n).read o
  | _ => 0

/-- Writes the bits of a register word that the mask names. -/
def State.regWrite (s : State) (w : Writer) (off : Nat) (v mask : Word) : State :=
  match spaceOf off with
  | .core c o => s.writeCoreWord w c o v mask
  | .region r o => s.writeRegionWord w r o v mask
  | .hbmCtl n o => s.writeHbmWord w n o v mask
  | .ioDie d o => s.writeDieWord w d o v mask
  | .barrier n o => s.barrierWrite n o v mask
  | _ => s

/-- Bytes of registers at an aligned access. -/
def State.regBytes (s : State) (off len : Nat) : List Byte :=
  ((leBytes 8 (s.regWord (off / 8 * 8)).toNat).drop (off % 8)).take len

/-- The mask of an access of `len` bytes within its word. -/
def byteMask (off len : Nat) : Word := BitVec.ofNat 64 ((2 ^ (8 * len) - 1) * 2 ^ (8 * (off % 8)))

/-- A store of bytes to registers. -/
def State.regStore (s : State) (w : Writer) (off : Nat) (bs : List Byte) : State :=
  s.regWrite w (off / 8 * 8) (BitVec.ofNat 64 (leValue bs * 2 ^ (8 * (off % 8)))) (byteMask off bs.length)

/-- The domain that serves a register is out of reset (01 Table 1.8). -/
def State.regServed (s : State) (off : Nat) : Bool :=
  match spaceOf off with
  | .core c o => s.windowServes c o
  | .region r _ => (s.region r).risen
  | .hbmCtl n _ => s.org.memoryOn.getLsbD n
  | .ioDie _ _ => s.org.transitOn
  | .barrier _ _ => s.org.computeOn
  | _ => false

/-- Whether a writer may write a register: a core under its own checks, the Rind controller any but queue settings and
tallies. -/
def State.mayWrite (s : State) (w : Writer) (off : Nat) : Bool :=
  match w with
  | .core c => s.coreRuns c && !s.storeRefused c off
  | .rind => match spaceOf off with
    | .core _ o => decide (0x2000 ≤ o)
    | _ => true

/-- A write to a register word by software or by the Rind controller. -/
def execRegisterWrite (w : Writer) (off : BitVec 48) (v mask : Word) (s : State) : Out :=
  let o := off.toNat
  if o % 8 = 0 ∧ s.regServed o = true ∧ s.mayWrite w o = true then .next (s.regWrite w o v mask) else .next s

end Sys2Proof.Machine
end

