-- ==== Sys2Proof/Machine/Counters.lean ====
section
/-! DEFINITION. Counters of cycle-based events as they overflow (18 R770-R774, R784), and the configuration of port and HBM
counters by managers (18 R786, R787). -/
namespace Sys2Proof.Machine

/-! ## Overflow of a cycle-based counter -/

/-- Core events that no command of the table delivers: they count in cycles (Table 18.3). -/
def coreCycleEvents : List Nat :=
  [0x001, 0x011, 0x012, 0x013, 0x014, 0x015, 0x016, 0x017, 0x018, 0x021, 0x038, 0x039, 0x040, 0x041, 0x042, 0x043, 0x050,
   0x051, 0x052, 0x053, 0x055, 0x062, 0x080, 0x081, 0x082, 0x083]

/-- Port events of that kind, each with whether Table 18.5 filters it. -/
def portCycleEvents : List (Nat × Bool) := [(0x107, true), (0x108, true), (0x10D, true)]

/-- HBM events of that kind. -/
def hbmCycleEvents : List (Nat × Bool) := [(0x204, true), (0x205, true), (0x208, false)]

/-- A control word counts an event of its unit: a FILTER counts nothing above the unit's last lane, or on an unfiltered event (R784). -/
def unitHears (events : List (Nat × Bool)) (lanes : Nat) (w : Word) : Bool :=
  match events.find? (fun e => decide (e.1 = (w.extractLsb' 0 12).toNat)) with
  | none => false
  | some e => w.getLsbD 29 || (e.2 && decide ((w.extractLsb' 24 5).toNat < lanes))

/-- Counter `n` of a core wraps to `left`, its excess over 2^48; cascaded counters above it follow. -/
def Core.cycleOverflow (k : Core) (n left : Nat) : Core :=
  let w := Tab.get 0 k.pmu.ctl n
  if !Pmu.counts k.pmu k.mode n || (ctlCascade w && decide (n ≠ 0)) || !coreCycleEvents.contains (ctlEvent w) then k
  else
    let start : PmuScan := { pmu := k.pmu, below := false, lowest := none }
    let sc := PmuScan.add start n (2 ^ 48 + left - (Tab.get 0 k.pmu.cnt n).toNat) (eventPrecise (ctlEvent w)) k.pc 0
    let sc1 := (List.range 8).foldl (fun sc i =>
      if n < i then PmuScan.visit sc k.pmu k.mode 0x1000 0 k.pc 0 i else sc) sc
    let k1 := { k with pmu := sc1.pmu }
    match sc1.lowest with
    | some i => k1.raiseInt 2 (BitVec.ofNat 64 i)
    | none => k1

/-- Counter `n` of a port or controller wraps to `left`. -/
def UnitCounters.cycleOverflow (u : UnitCounters) (events : List (Nat × Bool)) (lanes n left : Nat) : UnitCounters :=
  let w := u.ctlOf n
  if !w.getLsbD 63 || (w.getLsbD 61 && decide (n ≠ 0)) || !unitHears events lanes w then u
  else
    let st := u.add n (2 ^ 48 + left - (u.cntOf n).toNat)
    ((List.range 4).foldl (fun st i => if n < i then UnitCounters.visit st 0x1000 none 0 i else st) st).1

def execCycleCountOverflow (u : CountUnit) (n : BitVec 3) (left : BitVec 48) (s : State) : Out :=
  match u with
  | .core c => .next (s.modCore c (fun k => k.cycleOverflow n.toNat left.toNat))
  | .port p =>
    if n.toNat < 4 then .next (s.setPortCounters p.toNat ((s.portCounters p.toNat).cycleOverflow portCycleEvents 10 n.toNat left.toNat)) else .next s
  | .hbm x =>
    if n.toNat < 4 then .next (s.setHbmCounters x.toNat ((s.hbmCounters x.toNat).cycleOverflow hbmCycleEvents 32 n.toNat left.toNat)) else .next s

/-! ## CONFIG of object 0xA001 -/

/-- One entry of CONFIG: unit, counter, control word. -/
structure CounterEntry where
  unit : Nat
  counter : Nat
  word : Word
deriving DecidableEq, Repr

def entryOf (bs : List Byte) : CounterEntry :=
  { unit := leValue (bs.take 1), counter := leValue ((bs.drop 1).take 1),
    word := BitVec.ofNat 64 (leValue ((bs.drop 2).take 8)) }

/-- The entries of a BLOB, 10 bytes each. -/
def configEntries (v : List Byte) : List CounterEntry := (List.range (v.length / 10)).map (fun i => entryOf ((v.drop (10 * i)).take 10))

/-- The unit exists, and no reserved bit is set (00 R22); OVF may be written. -/
def State.entryOk (s : State) (e : CounterEntry) : Bool :=
  (decide (e.unit < 48) || (decide (0x40 ≤ e.unit) && decide (e.unit < 0x48) && s.org.record.hbmFitted.getLsbD (e.unit - 0x40))) &&
    decide (e.counter < 4) && decide (e.word &&& ~~~(unitCtlMask e.counter ||| 0x1000000000000000) = 0)

def State.setEntry (s : State) (e : CounterEntry) : State :=
  if e.unit < 48 then s.setPortCounters e.unit ((s.portCounters e.unit).writeCtl e.counter e.word allBits)
  else s.setHbmCounters (e.unit - 0x40) ((s.hbmCounters (e.unit - 0x40)).writeCtl e.counter e.word allBits)

/-- CONFIG. -/
def State.wConfig (s : State) (v : List Byte) : WriteOut :=
  if s.counters.controlOwner = 0 then s.refuse 1
  else if v.length % 10 = 0 ∧ (configEntries v).all s.entryOk = true then
    ((configEntries v).foldl (fun s e => s.setEntry e) s).done
  else s.deny stInvalid

end Sys2Proof.Machine
end

