-- ==== Sys2Proof/Machine/Dump.lean ====
section
/-! DEFINITION. The dump (16 R703-R706, R716): its sections, its header, its start, end, release and expiry; and the byte
layouts of fault records and of congestion records. -/
namespace Sys2Proof.Machine

/-! ## Layouts -/

def FaultRec.bytes (r : FaultRec) : List Byte := wordBytes r.words

/-- The ring of R685, oldest first. -/
def State.ringBytes (s : State) : List Byte :=
  (List.range 1024).flatMap (fun i =>
    (Tab.get FaultRec.zero s.faults.ring ((s.faults.seq.toNat + 1 + i) % 1024)).bytes)

/-- One class of a congestion record (09 Table 9.14, W2-W5). -/
def CongRec.classWord (r : CongRec) (c : Nat) : Nat :=
  r.queued.getD c 0 * 2 ^ 48 + r.queuedMax.getD c 0 * 2 ^ 32 + r.paused.getD c 0 * 2 ^ 20 + r.flits.getD c 0

def CongRec.bytes (r : CongRec) : List Byte :=
  leBytes 8 (r.time * 2 ^ 16 + r.port * 2 ^ 10 + r.mode * 2 ^ 8) ++
    leBytes 8 (r.seq.toNat * 2 ^ 32 + r.slotMiss * 2 ^ 16 + r.schedPause) ++
    (List.range 4).flatMap (fun c => leBytes 8 (r.classWord c)) ++
    leBytes 8 (r.rxOcc * 2 ^ 48 + r.replays * 2 ^ 32 + r.nonmin * 2 ^ 16 + r.stomped) ++ leBytes 8 0

/-- Bytes that the spec gives no layout (log 39). -/
def freeBytes (k n : Nat) : List Byte := (List.range n).map (fun i => Config.freeByte (k + i))

/-! ## Sections (Table 16.10) -/

/-- Table 9.6's register words of a VALID context, 256 bytes. -/
def Flow.dump (f : Flow) : List Byte := (List.range 32).flatMap (fun i => leBytes 8 (f.word i).toNat)

def dieOf (unit : Nat) : Die := if unit = 0 then .west else .east

def State.flowSection (s : State) (unit : Nat) : List Byte :=
  (s.fab.flows.filter (fun e => e.2.valid && decide (e.1 / 8192 = unit))).flatMap (fun e => e.2.dump)

def State.portSection (s : State) (p k : Nat) : List Byte :=
  freeBytes k 64 ++ padTo 256 (((s.port p).ring.reverse.take 4).reverse.flatMap CongRec.bytes)

def PressCmd.bytes (c : PressCmd) : List Byte := wordBytes [c.w0, c.w1, c.w2, c.w3]

/-- The special registers of Table 2.3, by selector. -/
def specialSelectors : List Nat :=
  [0x01, 0x02, 0x03, 0x08, 0x09, 0x0A, 0x0B, 0x0C, 0x0D, 0x0E, 0x10, 0x11, 0x12, 0x13, 0x14, 0x15]

/-- A core's registers; the sixteen special ones, the control page and page 5 to its last shadow fill the 2,560 bytes (DEDUCED,
log 39). -/
def State.coreSection (s : State) (c : CoreId) : List Byte :=
  let k := s.core c
  k.g.toList.flatMap (fun w => leBytes 8 w.toNat) ++ k.v.toList.flatMap (fun w => leBytes 64 w.toNat) ++
    specialSelectors.flatMap (fun r => leBytes 8 ((s.readSr c r).getD 0).toNat) ++
    [0x3000, 0x3008].flatMap (fun o => leBytes 8 (s.coreWord c o).toNat) ++
    (List.range 14).flatMap (fun i => leBytes 8 (s.coreWord c (0x5000 + 8 * i)).toNat)

def Core.pressSection (k : Core) (f : Nat) : List Byte := padTo 512 (k.pressQ.flatMap PressCmd.bytes) ++ freeBytes f 64

def Core.ladleSection (k : Core) (f : Nat) : List Byte :=
  padTo 2048 (k.ladleQ.flatMap (fun d => wordBytes d.w)) ++
    wordBytes [k.ladleErrRec, k.ladleErrAddr, BitVec.ofNat 64 k.ladleErrs.length] ++ freeBytes f 40

/-- The first eight words of a queue, each with its tags. -/
def Queue.firstWords (q : Queue) : List Byte :=
  padTo 128 (((q.msgs.flatMap (fun m => m.held.map (fun w => (m, w)))).take 8).flatMap (fun e =>
    leBytes 8 e.2.data.toNat ++ leBytes 8 (tagsOf e.1 e.2 e.2.poison).toNat))

def Core.queueSection (k : Core) : List Byte :=
  queueNumbers.flatMap (fun q => [0, 8, 0x10, 0x18].flatMap (fun o => leBytes 8 ((k.queue q).word o).toNat)) ++
    queueNumbers.flatMap (fun q => (k.queue q).firstWords) ++
    (List.range 64).flatMap (fun t => leBytes 4 (Tab.get 0 k.tallies t).toNat)

/-- The body of a section. -/
def State.sectionBody (s : State) (kind unit k : Nat) : List Byte :=
  let core := s.core (BitVec.ofNat 10 unit)
  match kind with
  | 1 => s.ringBytes
  | 2 => (List.range 384).flatMap (fun i => leBytes 8 ((s.faults.abortCtx (dieOf unit)).word (8 * i)).toNat)
  | 3 => s.flowSection unit
  | 4 => freeBytes k (16 * (s.die (dieOf unit)).holds.length)
  | 5 => (List.range 384).flatMap (fun i => leBytes 8 ((s.ctx unit).read (8 * i)).toNat)
  | 6 => s.portSection unit k
  | 7 => freeBytes k 1024
  | 8 => s.coreSection (BitVec.ofNat 10 unit)
  | 9 => core.pressSection k
  | 0x0A => core.ladleSection k
  | 0x0B => core.queueSection
  | _ => freeBytes k 512

/-- The sections to collect, in table order. -/
def State.dumpPlan (s : State) : List (Nat × Nat) :=
  let cores := (allCores.filter s.org.present).map (fun c => c.toNat)
  let ctxs := (s.barriers.ctxs.filter (fun e => e.2.valid)).map (fun e => e.1)
  (1, 0) :: ([2, 3, 4].flatMap (fun k => [(k, 0), (k, 1)])) ++ ctxs.map (fun n => (5, n)) ++
    allPorts.map (fun p => (6, p)) ++ allRegions.map (fun r => (7, r)) ++
    [8, 9, 0x0A, 0x0B].flatMap (fun k => cores.map (fun c => (k, c))) ++ s.org.fitted.map (fun n => (0x0C, n))

/-! ## Start -/

def State.setDump (s : State) (st : Nat) : State :=
  ({ s with faults := { s.faults with dumpState := st, dumpEpoch := s.faults.dumpEpoch + 1 } }).notify 0x8040

/-- Collection begins: every section is still to be read, and no core is yet without response. -/
def State.beginDump (s : State) : State :=
  let plan : List DumpSection := s.dumpPlan.map (fun e => { kind := e.1, flags := 0, unit := e.2, time := 0, body := [] })
  let s1 := { s with
    cores := Tab.mapVals Core.reset (fun k => { k with hung := k.hung &&& 0x7F }) s.cores,
    faults := { s.faults with dumpDue := false, dumpSections := plan, dumpHead := [], dumpStart := s.now,
                              dumpStartF := s.ftimeWord.toNat % 2 ^ 48 } }
  s1.setDump 1

/-- A dump due while another is held is skipped. -/
def execDumpStart (s : State) : Out :=
  let f := s.faults
  if !f.dumpDue || !s.org.transitOn || !s.rindSteps || decide (f.dumpState = 1) then .next s
  else if f.dumpState = 2 then
    .next { s with faults := { f with dumpDue := false, dumpSkipped := f.dumpSkipped + 1 } }
  else .next s.beginDump

/-! ## Reads (R704) -/

/-- The progress shadows of a core, in place of its state. -/
def Core.shadowBytes (k : Core) : List Byte :=
  (List.range 6).flatMap (fun i => leBytes 8 (Tab.get 0 k.shadows (0x40 + 8 * i)).toNat)

/-- Sections that are read over a region's side-path. -/
def DumpSection.sidePath (d : DumpSection) : Bool := decide (7 ≤ d.kind) && decide (d.kind ≤ 0x0B)

/-- A section without response: of a core it holds the shadows, of a region nothing. -/
def State.noResponse (s : State) (d : DumpSection) : DumpSection :=
  if d.kind = 7 then { d with flags := 1, time := s.ftimeWord.toNat }
  else { d with flags := 3, time := s.ftimeWord.toNat, body := (s.core (BitVec.ofNat 10 d.unit)).shadowBytes }

/-- The section and every later one of the same unit are marked: no further read goes to it. -/
def execDumpReadTimeout (i : Nat) (s : State) : Out :=
  if s.faults.dumpState ≠ 1 then .next s
  else
    match s.faults.dumpSections[i]? with
    | none => .next s
    | some d =>
      if !d.sidePath || decide (d.flags ≠ 0) then .next s
      else
        let same (e : DumpSection × Nat) : Bool :=
          decide (i ≤ e.2) && decide (e.1.unit = d.unit) && e.1.sidePath && (decide (e.1.kind = 7) == decide (d.kind = 7))
        let new := s.faults.dumpSections.zipIdx.map (fun e => if same e then s.noResponse e.1 else e.1)
        let s1 := { s with faults := { s.faults with dumpSections := new } }
        if d.kind = 7 then .next s1
        else .next (s1.modCore (BitVec.ofNat 10 d.unit) (fun k => { k with hung := k.hung ||| 0x80 }))

/-! ## End (R705, Table 16.9) -/

/-- A section as the end leaves it: read, or truncated. -/
def State.finishSection (s : State) (n : Nat) (d : DumpSection) (i : Nat) : DumpSection :=
  if d.flags ≠ 0 then d
  else if n ≤ i then { d with flags := 4 }
  else { d with time := s.ftimeWord.toNat, body := s.sectionBody d.kind d.unit (s.freeCount + 0x100000 * i) }

def DumpSection.bytes (d : DumpSection) : List Byte :=
  leBytes 1 d.kind ++ leBytes 1 d.flags ++ leBytes 2 d.unit ++ leBytes 4 d.body.length ++ leBytes 8 d.time ++ d.body

/-- The 96 bytes of the header. -/
def State.dumpHeader (s : State) (ds : List DumpSection) (cut : Bool) : List Byte :=
  let f := s.faults
  let rest := ds.flatMap DumpSection.bytes
  leBytes 8 (2 ^ 56 + ds.length * 2 ^ 40 + (if cut then 2 ^ 32 else 0) + (96 + rest.length)) ++
    leBytes 8 f.dumpJob.toNat ++ leBytes 8 (s.fab.chip.toNat * 2 ^ 48 + f.dumpTrigger.toNat) ++
    leBytes 8 (f.dumpStartF * 2 ^ 16) ++ leBytes 8 (s.ftimeWord.toNat % 2 ^ 48 * 2 ^ 16) ++ leBytes 8 0 ++
    padTo 48 (Config.sha384 rest)

/-- The held dump, header first. -/
def State.dumpBytes (s : State) : List Byte :=
  if s.faults.dumpState = 2 then s.faults.dumpHead ++ s.faults.dumpSections.flatMap DumpSection.bytes else []

/-- The dump ends when its first `n` sections are all there are, or 100 ms after its start. -/
def execDumpEnd (n : Nat) (s : State) : Out :=
  let ds := s.faults.dumpSections
  if s.faults.dumpState ≠ 1 || (decide (n < ds.length) && decide (s.now < s.faults.dumpStart + 100000000)) then .next s
  else
    let new := ds.zipIdx.map (fun e => s.finishSection n e.1 e.2)
    let cut := new.any (fun d => d.flags == 4)
    let s1 := { s with freeCount := s.freeCount + 0x100000 * ds.length,
                       faults := { s.faults with dumpSections := new, dumpHead := s.dumpHeader new cut, dumpEnd := s.now } }
    .next (s1.setDump 2)

/-! ## Release (R706) -/

def State.dropDump (s : State) : State :=
  ({ s with faults := { s.faults with dumpSections := [], dumpHead := [] } }).setDump 3

/-- RELEASE of object 0x8040; with no dump held nothing changes. -/
def State.wRelease (s : State) (v : Nat) : WriteOut :=
  if v ≠ 1 then s.deny stInvalid else if s.faults.dumpState = 2 then s.dropDump.done else s.done

/-- Ten minutes after its end a held dump is released. -/
def execDumpExpire (s : State) : Out :=
  if s.faults.dumpState = 2 ∧ s.faults.dumpEnd + 600000000000 ≤ s.now then .next s.dropDump else .next s

end Sys2Proof.Machine
end

