-- ==== Sys2Proof/Machine/Home.lean ====
section
/-! DEFINITION. HOME_ACCESS: an access in flight, a line fill, a write-back or a line of D is performed at its home, in the order
in which the homes apply them (05 R248-R261, R273, R279-R282, R809; 07 R340-R347). -/
namespace Sys2Proof.Machine

/-! ## Atomics (05 Table 5.6) -/

/-- The value that an atomic writes, of `len` bytes. -/
def amoValue (op : AmoOp) (len old operand compare : Nat) : Nat :=
  let n := 8 * len
  let x := operand % 2 ^ n
  let lt := decide ((BitVec.ofNat n old).toInt < (BitVec.ofNat n x).toInt)
  match op with
  | .add => (old + x) % 2 ^ n
  | .min => if lt then old else x
  | .max => if lt then x else old
  | .minu => Nat.min old x
  | .maxu => Nat.max old x
  | .swap => x
  | .cas => if old = compare % 2 ^ n then x else old
  | .faddS => FFmt.fp32.addC old x
  | .faddBf => FFmt.bf16.addC old x

/-- The issuing core's own copy of a line of a cached range is written back and dropped before its atomic is performed (R282). -/
def State.dropOwnLine (s : State) (c : CoreId) (off len : Nat) : State :=
  let s := if (s.core c).late.isEmpty then s else s.modCore c (fun k => { k with late := Tab.put none k.late (off / 64) none })
  match (s.core c).line (off / 64), (s.core c).cachedAt off len with
  | none, _ => s
  | _, false => s
  | some l, true =>
    let s1 := if l.dirty = 0 then s else s.writeBack (off / 64) l
    s1.modCore c (fun k => k.setLine (off / 64) none)

/-- Reads, and unless the old value carries poison, writes, as one step; what it returns (R279, R345, R809). -/
def State.atomicAt (s : State) (off len : Nat) (op : AmoOp) (operand compare : Word) : (List Byte × Bool) × State :=
  let old := s.loadHome off len
  let bytes := old.map (fun b => b.1)
  let s := s.vatRead off len
  if old.any (fun b => b.2) then ((bytes, true), s)
  else
    let new := leBytes len (amoValue op len (leValue bytes) operand.toNat compare.toNat)
    ((bytes, false), (s.storeMarked off (new.map (fun b => (b, false)))).hbmDone off 0x203)

/-! ## Parts of an access -/

/-- No older access of the core to a byte of the range is unperformed (R268), and register accesses keep program order
(R273). -/
def Core.mayPerform (k : Core) (m : MemOp) (off len : Nat) : Bool :=
  let older := k.memops.takeWhile (fun x => x.id ≠ m.id)
  !older.any (fun x => x.overlaps off len) &&
    !((spaceOf off).isRegs && older.any (fun x => (spaceOf x.off).isRegs && !x.allDone))

/-- Marks a part as performed with what it read; a store that is wholly performed leaves. -/
def Core.performPart (k : Core) (id pi : Nat) (bytes : List Byte) (poison : Bool) : Core :=
  let set (m : MemOp) : MemOp :=
    match m.parts[pi]? with
    | none => m
    | some p =>
      { m with parts := m.parts.set pi { p with performed := true }, poisoned := m.poisoned || poison,
               bytes := match m.kind with | .store => m.bytes | _ => spliceBytes m.bytes p.rel bytes }
  let ms := mapIf (fun (m : MemOp) => decide (m.id = id)) set k.memops
  { k with memops := ms.filter (fun m => !(m.allDone && decide (m.kind = .store) && decide (m.id = id))) }

/-- A request that a region in reset discards returns no data: its part waits for ever. -/
def Core.losePart (k : Core) (id pi : Nat) : Core :=
  let set (m : MemOp) : MemOp :=
    match m.parts[pi]? with
    | none => m
    | some p => { m with parts := m.parts.set pi { p with cached := true } }
  { k with memops := mapIf (fun (m : MemOp) => decide (m.id = id)) set k.memops }

/-- A core's Vat or register window that takes no request: its region is in reset, or the Vat has lost power. -/
def State.vatLost (s : State) (off : Nat) : Bool :=
  (s.homeAsleep off).isSome || (match vatOwner off with
    | none => false
    | some o => !s.coreServes o)

/-- The report of a discarded request of one flit (01 R52). -/
def State.reportLost (s : State) (c : CoreId) (off : Nat) : State :=
  match s.homeAsleep off with
  | none => s
  | some r => s.regionDiscard r 1 [c]

/-- Performs a part of a load. -/
def State.performLoad (s : State) (c : CoreId) (m : MemOp) (pi off len e0 e1 : Nat) : State :=
  if s.vatLost off then (s.modCore c (fun k => k.losePart m.id pi)).reportLost c off
  else if (spaceOf off).isRegs then s.modCore c (fun k => k.performPart m.id pi (s.regBytes off len) false)
  else
    let s1 := s.readLine off len e0 e1
    let data := s1.loadHome off len
    ((s1.hbmDone off 0x201).vatRead off len).modCore c (fun k =>
      k.performPart m.id pi (data.map (fun b => b.1)) (data.any (fun b => b.2)))

/-- Performs a part of a store; one to a register, which is whole, retires with it (02 R94). -/
def State.performStore (s : State) (c : CoreId) (m : MemOp) (pi rel off len e0 e1 : Nat) : State :=
  let bytes := (m.bytes.drop rel).take len
  let s1 :=
    if (spaceOf off).isRegs then
      (if (s.homeAsleep off).isSome then s.reportLost c off else s.regStore (.core c) off bytes)
    else (s.mergeCodes off len e0 e1).homeStore off (bytes.map (fun b => (b, false))) [c]
  s1.modCore c (fun k =>
    let k1 := k.performPart m.id pi [] false
    if (spaceOf off).isRegs then (k1.countAccess c m).wake.settle else k1)

/-- Performs an atomic. -/
def State.performAmo (s : State) (c : CoreId) (m : MemOp) (pi off len e0 e1 : Nat) (op : AmoOp) (operand compare : Word) : State :=
  if s.vatLost off then (s.modCore c (fun k => k.losePart m.id pi)).reportLost c off
  else
    let r := ((s.dropOwnLine c off len).readLine off len e0 e1).atomicAt off len op operand compare
    r.2.modCore c (fun k => k.performPart m.id pi r.1.1 r.1.2)

def State.performAccess (s : State) (c : CoreId) (id pi e0 e1 : Nat) : State :=
  let k := s.core c
  match k.memops.find? (fun m => decide (m.id = id)) with
  | none => s
  | some m =>
    match m.parts[pi]? with
    | none => s
    | some p =>
      if p.performed || p.cached || !k.mayPerform m (m.off + p.rel) p.len || s.requestWaits c (m.off + p.rel) then s
      else match m.kind with
        | .load _ _ => s.performLoad c m pi (m.off + p.rel) p.len e0 e1
        | .vload _ => s.performLoad c m pi (m.off + p.rel) p.len e0 e1
        | .store => s.performStore c m pi p.rel (m.off + p.rel) p.len e0 e1
        | .amo op _ x y => s.performAmo c m pi (m.off + p.rel) p.len e0 e1 op x y

/-! ## Lines -/

/-- The poison marks of a line, one per 8-byte word. -/
def lineMarks (bs : List (Byte × Bool)) : BitVec 8 :=
  (List.range 8).foldl (fun (m : BitVec 8) w => if (bs.getD (8 * w) (0, false)).2 then m ||| (1 <<< w) else m) 0

/-- The core may read a line ahead of its loads (02 R104, R105, R107, R109): it issues, no TWAIT, BARRIER, WFI or ACQINV stalls it
(05 R272), the line is one that its table lets it read into its cache, and a miss slot is free. -/
def State.maySpeculate (s : State) (c : CoreId) (line : Nat) : Bool :=
  let k := s.core c
  s.coreRuns c && !k.stall.waits && decide (k.stall ≠ .acqinv) && decide (k.stall ≠ .barrierFence) && decide (k.fills.length < 32) && (k.line line).isNone &&
    k.permits false (64 * line) 64 && k.cachedAt (64 * line) 64 && s.populated (64 * line) 64 && !s.inCave (64 * line) 64

/-- A speculative fill begins (R104): nothing is observed by it until a load retires with what it has brought (R106). -/
def Core.speculate (k : Core) (line : Nat) : Core :=
  ({ k with fills := k.fills ++ [Fill.mk line true none] }).count 0x033 1 k.pc 0

/-- The home reads the line of a fill in flight (02 R789). -/
def State.readFill (s : State) (c : CoreId) (line e0 e1 : Nat) : State :=
  let s1 := s.readLine (64 * line) 64 e0 e1
  let data := s1.loadHome (64 * line) 64
  let r := some (bytesVec (data.map (fun b => b.1)), lineMarks data)
  (s1.hbmDone (64 * line) 0x201).modCore c (fun k =>
    { k with fills := mapIf (fun (f : Fill) => decide (f.line = line)) (fun (f : Fill) => { f with read := r }) k.fills })

/-- A fill reaches its home. One that no miss has started is the core's speculation, which has no command of its own (log
93). -/
def State.performFill (s : State) (c : CoreId) (line e0 e1 : Nat) : State :=
  if s.requestWaits c (64 * line) then s
  else match (s.core c).fills.find? (fun f => decide (f.line = line)) with
  | some f => if f.read.isNone then s.readFill c line e0 e1 else s
  | none => if s.maySpeculate c line then (s.modCore c (fun k => k.speculate line)).readFill c line e0 e1 else s

/-- A dirty line is replaced: its dirty bytes are written back as one masked line write (05 R254, R255). -/
def State.performWriteBack (s : State) (c : CoreId) (line e0 e1 : Nat) : State :=
  match (s.core c).line line with
  | none => s
  | some l =>
    if l.dirty = 0 || s.requestWaits c (64 * line) then s
    else
      let s1 := if l.dirty = BitVec.allOnes 64 then s else s.readLine (64 * line) 64 e0 e1
      (s1.writeBack line l).modCore c (fun k => ((k.setLine line none).count 0x034 1 k.pc 0).wake)

/-- A running command writes one line of D (03 R178), or some bytes of a masked line (05 R259); the level does not limit the side port
(R193). -/
def State.performPressLine (s : State) (c : CoreId) (sub : BitVec 16) (i : Nat) (mask : BitVec 64) : State :=
  let s0 := s.pressSync c
  let k := s0.core c
  match k.pressRun.find? (fun r => r.cmd.sub == sub) with
  | none => s
  | some r =>
    match r.lines[i]? with
    | none => s
    | some l =>
      if !s.coreAlive c || k.pressHeld || k.engineInReset then s
      else
        let m := landing (vatBase c) l.mask mask
        let rest := l.mask &&& ~~~m
        let ls := if rest = 0 then r.lines.eraseIdx i else r.lines.set i { l with mask := rest }
        let left := mapIf (fun (x : PressRun) => x.cmd.sub == sub) (fun (x : PressRun) => { x with lines := ls }) k.pressRun
        (s0.writePressLine c { l with mask := m }).modCore c (fun k =>
          { k with pressRun := left, pressProgress := if rest = 0 then k.pressProgress + 1 else k.pressProgress })

/-- What reaches a home is applied there; `e0` and `e1` are the symbols in error of the HBM codewords that it reads. -/
def execHomeAccess (h : HomeReq) (e0 e1 : Nat) (s : State) : Out :=
  match h with
  | .access c id part => .next (s.performAccess c id part e0 e1)
  | .fill c line => .next (s.performFill c line e0 e1)
  | .writeBack c line => .next (s.performWriteBack c line e0 e1)
  | .pressLine c sub k mask => .next (s.performPressLine c sub k mask)
  | .ladleRead c id line => .next (s.ladleReadLine c id line)
  | .ladleAhead c sub line => .next (s.ladleAheadLine c sub line)
  | .ladleWrite c id mask => .next (s.ladleWriteBytes c id mask)
  | .packetWrite n line mask => .next (s.packetWriteLine n line mask)
  | .packetRead n line => .next (s.packetReadLine n line)

end Sys2Proof.Machine
end

