-- ==== Sys2Proof/Machine/Jobs.lean ====
section
/-! DEFINITION. Jobs (15 R672-R676), RDMA (15 R668-R670), PTP and the MGMT ports (15 R652, R665-R667). -/
namespace Sys2Proof.Machine

/-! ## Jobs -/

/-- The slot of a new job: an empty one, else that of the oldest ended job (11 R537). -/
def PowSt.freeSlot (p : PowSt) : Nat :=
  let get (j : Nat) : JobSlot := Tab.get JobSlot.reset p.slots j
  match (List.range 16).find? (fun j => decide ((get j).state = 0)) with
  | some j => j
  | none =>
    let ended := (List.range 16).filter (fun j => decide ((get j).state = 2))
    let oldest := ended.foldl (fun m j => Nat.min m (get j).order) (match ended with | [] => 0 | j :: _ => (get j).order)
    (ended.find? (fun j => decide ((get j).order = oldest))).getD 0

/-- The running job's power record: its slot, a clear phase table, JOB_TICKS at 0. -/
def State.openSlot (s : State) : State :=
  let slot : JobSlot := { jobId := s.job.jobId, state := 1, startNs := s.stamp, endNs := 0, energy := 0, gapBound := 0,
                          base := s.pow.total, order := s.pow.slots.foldl (fun n e => Nat.max n e.2.order) 0 + 1 }
  { s with pow := { s.pow with slots := Tab.put JobSlot.reset s.pow.slots s.pow.freeSlot slot, phaseTable := [],
                               jobTicks := 0 } }

/-- What an accepted START does (R674). A job that starts while the effective power state is PARK parks (11 R504). -/
def State.jobStart (s : State) : State :=
  let cs := allCores.filter s.org.present
  let s1 := s.modCores cs (fun _ k => k.setJobId s.job.jobId)
  let s2 := s1.openSlot
  let s3 := { s2 with job := { s2.job with state := 1, endCause := 0, startNs := s2.stamp, epoch := s2.job.epoch + 1,
                                           stopSignalled := false } }
  let s4 := (s3.notify 0x1201).modCores cs (fun _ k => k.start.raiseInt 4 0)
  ({ s4 with pow := { s4.pow with parkOrder := s4.pow.parkOrder || decide (s4.pow.effective = 1) } }).park.jobPark

/-- The refusals of R673, in order. -/
def State.wStart (s : State) (role : Role) : WriteOut :=
  if s.start.step ≠ 0x0A ∨ s.faults.tier < 3 then s.deny stNotReady
  else if s.faults.dumpState = 1 ∨ s.faults.ladder.step ≠ 0 then s.busy 100
  else if s.pow.hold = 1 ∧ role = .host then s.deny stHold
  else if s.pow.effective = 2 then s.refuse 1
  else if s.jobLoaded || decide (s.job.jobId = 0) then s.deny stInvalid
  else s.jobStart.done

/-- STOP signals an orderly end to the runtime. -/
def State.wStop (s : State) : WriteOut :=
  if s.jobLoaded then ({ s with job := { s.job with stopSignalled := true } }).done else s.deny stInvalid

/-- ABORT starts the abort of the loaded job (16 R695). -/
def State.wAbort (s : State) : WriteOut :=
  if s.jobLoaded then (s.contained { unit := 0x0B, cls := 3, source := 2, cause := 0x50 } 1).done else s.deny stInvalid

/-- COMMAND of object 0x1201. -/
def State.wJobCommand (s : State) (role : Role) (v : Nat) : WriteOut :=
  if v = 1 then s.wStart role else if v = 2 then s.wStop else if v = 3 then s.wAbort else s.deny stInvalid

/-- JOB_ID, read-only while a job is loaded. -/
def State.wJobId (s : State) (v : Nat) : WriteOut :=
  if s.jobLoaded then s.deny stAccess else ({ s with job := { s.job with jobId := BitVec.ofNat 64 v } }).done

/-- The runtime reports the job's end, of itself or after a STOP. -/
def execRuntimeEnd (s : State) : Out :=
  if s.jobLoaded then .next (s.jobEnd 3 (if s.job.stopSignalled then 2 else 1)) else .next s

/-! ## RDMA -/

/-- Path MTU codes of InfiniBand for 1,024, 2,048 and 4,096 bytes (PRESUMED, log 36). -/
def mtuOf (code : Nat) : Option Nat :=
  if code = 3 then some 1024 else if code = 4 then some 2048 else if code = 5 then some 4096 else none

/-- A queue pair number not in use: the spec leaves it open, so the search begins at a free value. -/
def freshQpn (f : Nat) (qps : List QueuePair) : Nat :=
  ((List.range 513).find? (fun i => !qps.any (fun q => decide (q.qpn = (f + i) % 0x1000000)))).elim 0
    (fun i => (f + i) % 0x1000000)

def bytesZero (bs : List Byte) : Bool := bs.all (fun b => b = 0)

/-- CONNECT: 48 bytes; the answer is the local QPN. -/
def State.wConnect (s : State) (v : List Byte) : WriteOut :=
  let num (o n : Nat) : Nat := leValue ((v.drop o).take n)
  match mtuOf (num 1 1) with
  | none => s.deny stInvalid
  | some mtu =>
    if decide (1 < num 0 1) || !bytesZero ((v.drop 2).take 2) || !bytesZero (v.drop 32) then s.deny stInvalid
    else if 512 ≤ s.oap.qps.length then s.deny stLimit
    else
      let (f, s1) := s.drawFree
      let n := freshQpn f s1.oap.qps
      let q : QueuePair :=
        { qpn := n, port := if num 0 1 = 0 then .a else .b, mtu := mtu, peerQpn := BitVec.ofNat 32 (num 4 4),
          psn := BitVec.ofNat 32 (num 8 4), peerPsn := BitVec.ofNat 32 (num 12 4), gid := (v.drop 16).take 16, rate := 1000,
          lastCut := none, lastRaise := s1.now, lastCnp := none }
      ({ status := stOk, body := leBytes 4 n }, { s1 with oap := { s1.oap with qps := s1.oap.qps ++ [q] } })

/-- CLOSE. -/
def State.wClose (s : State) (v : Nat) : WriteOut :=
  if s.oap.qps.any (fun q => decide (q.qpn = v)) then
    ({ s with oap := { s.oap with qps := s.oap.qps.filter (fun q => decide (q.qpn ≠ v)) } }).done
  else s.deny stInvalid

/-- One past the job space of HBM (07 R337). -/
def State.jobTop (s : State) : Nat := s.hbm.caves.foldl (fun m e => Nat.min m e.2) s.hbm.runtimeBase

/-- A key may name the job space or a Vat. -/
def State.keyRangeOk (s : State) (base len : Nat) : Bool :=
  match spaceOf base with
  | .hbm => decide (base + len ≤ s.jobTop)
  | .vat _ o => decide (o + len ≤ vatSize)
  | _ => false

/-- KEY_WRITE: 32 bytes; access 0 clears the entry of the key's index. -/
def State.wKey (s : State) (v : List Byte) : WriteOut :=
  let num (o n : Nat) : Nat := leValue ((v.drop o).take n)
  let key := num 0 4
  let access := num 4 1
  let i := key / 0x400000
  if decide (3 < access) || !bytesZero ((v.drop 5).take 3) || !bytesZero (v.drop 24) then s.deny stInvalid
  else if access = 0 then ({ s with oap := { s.oap with keys := Tab.put none s.oap.keys i none } }).done
  else if !s.keyRangeOk (num 8 8) (num 16 8) then s.deny stInvalid
  else
    let e : RKey := { key := BitVec.ofNat 32 key, access := BitVec.ofNat 8 access, base := BitVec.ofNat 64 (num 8 8),
                      len := BitVec.ofNat 64 (num 16 8) }
    ({ s with oap := { s.oap with keys := Tab.put none s.oap.keys i (some e) } }).done

/-- A port of the package's only attachment to a host (00 R1). -/
def State.mgmtPort (s : State) : MgmtPort → MgmtPortSt
  | .a => s.oap.portA
  | .b => s.oap.portB

def State.queuePair (s : State) (n : Nat) : Option QueuePair := s.oap.qps.find? (fun q => decide (q.qpn = n))

/-- A queue pair whose port is up: nothing reaches any other (00 R1). -/
def State.livePair (s : State) (n : Nat) : Option QueuePair := (s.queuePair n).filter (fun q => (s.mgmtPort q.port).up)

def State.modQp (s : State) (n : Nat) (f : QueuePair → QueuePair) : State :=
  { s with oap := { s.oap with qps := mapIf (fun (q : QueuePair) => decide (q.qpn = n)) f s.oap.qps } }

/-- The die of a MGMT port, whose inbound table its accesses meet. -/
def mgmtDie : MgmtPort → Die
  | .a => .west
  | .b => .east

/-- R669: the key's entry covers every byte with the permission, and the tables permit the access. -/
def State.rdmaOk (s : State) (q : QueuePair) (key : BitVec 32) (off len : Nat) (wr : Bool) : Bool :=
  match Tab.get none s.oap.keys (key.toNat / 0x400000) with
  | none => false
  | some e =>
    decide (e.key = key) && e.access.getLsbD (if wr then 1 else 0) && decide (e.base.toNat ≤ off) &&
      decide (off + len ≤ e.base.toNat + e.len.toNat) && (s.inboundError (mgmtDie q.port) off len wr).isNone

/-- A packet marked CE: one notification per queue pair per 50 us. -/
def State.markedCe (s : State) (q : QueuePair) (ce : Bool) : State :=
  let due := match q.lastCnp with | none => true | some t => decide (t + 50000 ≤ s.now)
  if ce && due then
    let s1 := s.modQp q.qpn (fun q => { q with lastCnp := some s.now })
    { s1 with oap := { s1.oap with cnpSent := satAdd 0xFFFFFFFF s1.oap.cnpSent 1 } }
  else s

def State.rdmaAnswer (s : State) (n : Nat) (r : RdmaReply) : State :=
  { s with oap := { s.oap with rdmaReply := some (n, r) } }

def State.rdmaRefuse (s : State) (n : Nat) : State :=
  let s1 := s.rdmaAnswer n .accessError
  { s1 with oap := { s1.oap with keyRefused := satAdd 0xFFFFFFFFFFFFFFFF s1.oap.keyRefused 1 } }

/-- Whether an RDMA access waits at a region that holds through-traffic, its row without effect till then (01 R51; 124). -/
def State.rdmaWaits (s : State) (q : QueuePair) (off : Nat) (answers : Bool) : Bool :=
  s.dieAccessWaits (mgmtDie q.port) off answers

/-- Bytes that an RDMA operation writes at their home; a region in reset discards them, and a read of it (01 R52). -/
def State.rdmaPut (s : State) (n : Nat) (key : BitVec 32) (off : Nat) (ce : Bool) (bytes : List Byte) : State :=
  match s.livePair n with
  | none => s
  | some q =>
    let s1 := s.markedCe q ce
    if s1.rdmaOk q key off bytes.length true && s.rdmaWaits q off false then s
    else if s1.rdmaOk q key off bytes.length true then (s1.homeWrite off (bytes.map (fun b => (b, false))) (ownersAt off)).rdmaAnswer n .ack
    else s1.rdmaRefuse n

def execRdmaWrite (qp : Nat) (key : BitVec 32) (off : BitVec 48) (ce : Bool) (bytes : List Byte) (s : State) : Out :=
  .next (s.rdmaPut qp key off.toNat ce bytes)

/-- A SEND: the posted buffer is a key table entry with WRITE. -/
def execRdmaSend (qp : Nat) (key : BitVec 32) (off : BitVec 48) (ce : Bool) (bytes : List Byte) (s : State) : Out :=
  .next (s.rdmaPut qp key off.toNat ce bytes)

def execRdmaRead (qp : Nat) (key : BitVec 32) (off : BitVec 48) (len : BitVec 32) (ce : Bool) (s : State) : Out :=
  match s.livePair qp with
  | none => .next s
  | some q =>
    let s1 := s.markedCe q ce
    if s1.rdmaOk q key off.toNat len.toNat false && s.rdmaWaits q off.toNat true then .next s
    else if s1.rdmaOk q key off.toNat len.toNat false then
      match s1.homeAsleep off.toNat with
      | some r => .next (s1.regionDiscard r 1 (ownersAt off.toNat))
      | none =>
        let s2 := s1.countReads off.toNat len.toNat
        .next ((s2.vatRead off.toNat len.toNat).rdmaAnswer qp (.data ((s2.loadHome off.toNat len.toNat).map (fun b => b.1))))
    else .next (s1.rdmaRefuse qp)

/-- The rate falls by one eighth, at most once per 50 us. -/
def execCongestionNotification (qp : Nat) (s : State) : Out :=
  match s.livePair qp with
  | none => .next s
  | some q =>
    let cut := match q.lastCut with | none => true | some t => decide (t + 50000 ≤ s.now)
    let s1 := { s with oap := { s.oap with cnpRecv := satAdd 0xFFFFFFFF s.oap.cnpRecv 1 } }
    .next (s1.modQp qp (fun q =>
      if cut then { q with rate := q.rate - q.rate / 8, lastCut := some s.now, lastRaise := s.now }
      else { q with lastRaise := s.now }))

/-- After 55 us without a notification the rate rises by 5 % of the port rate. -/
def execRateRaise (qp : Nat) (s : State) : Out :=
  match s.queuePair qp with
  | none => .next s
  | some q =>
    if q.lastRaise + 55000 ≤ s.now then
      .next (s.modQp qp (fun q => { q with rate := Nat.min 1000 (q.rate + 50), lastRaise := s.now }))
    else .next s

/-! ## MGMT ports and PTP -/

def State.setMgmtPort (s : State) (p : MgmtPort) (x : MgmtPortSt) : State :=
  match p with
  | .a => { s with oap := { s.oap with portA := x } }
  | .b => { s with oap := { s.oap with portB := x } }

def otherPort : MgmtPort → MgmtPort
  | .a => .b
  | .b => .a

def portBit : MgmtPort → Nat
  | .a => 0
  | .b => 1

def execMgmtPortDown (p : MgmtPort) (s : State) : Out := .next (s.mgmtDown p).evalTier

/-- Training completes with the media that MEDIA selects. The link-local address takes the IPv6 prefix fe80::/64 (PRESUMED,
log 37); its interface identifier is left free. -/
def execMgmtPortUp (p : MgmtPort) (s : State) : Out :=
  if !s.tray.refFab then .next s
  else
    let addr := ascii [0xFE, 0x80, 0, 0, 0, 0, 0, 0] ++ (List.range 8).map (fun i => Config.freeByte (s.freeCount + i))
    let s1 := s.setMgmtPort p { s.mgmtPort p with
      up := true, mediaRun := s.oap.media.getLsbD (portBit p), addresses := [addr] }
    .next ((({ s1 with freeCount := s1.freeCount + 8 }).standReason 12 false).notify 0x1101).evalTier

/-- A port out of service for 10 minutes while the other serves. -/
def execMgmtPortOutage (p : MgmtPort) (s : State) : Out :=
  let x := s.mgmtPort p
  if !x.up && (s.mgmtPort (otherPort p)).up && decide (x.downSince + 600000000000 ≤ s.now) then
    .next ((s.standReason 12 true).raiseReason 12)
  else .next s

/-- A frame outside the allowed traffic is dropped and counted; neighbour discovery and echo are answered. -/
def execMgmtFrame (p : MgmtPort) (f : MgmtFrame) (s : State) : Out :=
  if !(s.mgmtPort p).up then .next s
  else match f with
    | .other => .next { s with oap := { s.oap with dropped := s.oap.dropped + 1 } }
    | .icmpV6 => .next s
    | .oap => .next s
    | .roce => .next s
    | .ptp => .next s
    | .recovery => .next s

/-- The ordinary clock follows the master that it hears (R667); the primary disciplines fabric time to it (09 R434; log 129). -/
def execPtpMessage (p : MgmtPort) (m : PtpMsg) (s : State) : Out :=
  if !(s.mgmtPort p).up then .next s
  else match m with
    | .announce => .next { s with oap := { s.oap with ptpState := if s.oap.ptpState = 0 then 1 else s.oap.ptpState } }
    | .offset ns =>
      let s1 := { s with oap := { s.oap with ptpState := 2 + portBit p, ptpOffset := ns } }
      .next (if s1.time.role = 1 ∧ s1.org.transitOn then s1.slew (-ns) else s1)
    | .lost => .next { s with oap := { s.oap with ptpState := 0 } }

end Sys2Proof.Machine
end

