-- ==== Sys2Proof/Machine/Objects.lean ====
section
/-! DEFINITION. The object dictionary (15 R644-R648): every object's sub-entries with their types, access, write roles and
values, as the tables that each section names give them. -/
namespace Sys2Proof.Machine

/-! ## Sub-entries (15 Table 15.5, 00 Table 0.6) -/

/-- The types of Table 15.5. -/
inductive OTy where
  | u8
  | u16
  | u32
  | u64
  | i32
  | f32
  | str
  | blob
  | bitmap (bytes : Nat)
deriving DecidableEq, Repr

/-- The bytes of a type of fixed size. -/
def OTy.size : OTy → Option Nat
  | .u8 => some 1
  | .u16 => some 2
  | .u32 => some 4
  | .u64 => some 8
  | .i32 => some 4
  | .f32 => some 4
  | .str => none
  | .blob => none
  | .bitmap n => some n

/-- The type's place in Table 15.5, for its type code. -/
def OTy.place : OTy → Nat
  | .u8 => 0
  | .u16 => 1
  | .u32 => 2
  | .u64 => 3
  | .i32 => 4
  | .f32 => 5
  | .str => 6
  | .blob => 7
  | .bitmap _ => 8

/-- Access codes: RO, RW, RWP, WO. -/
inductive OAcc where
  | ro
  | rw
  | rwp
  | wo
deriving DecidableEq, Repr

/-- A sub-entry: type, access, write roles, and its value now. -/
structure SubEntry where
  ty : OTy
  acc : OAcc
  roles : List Role
  val : List Byte
deriving DecidableEq, Repr

/-- A number of a type of fixed size, little-endian. -/
def OTy.num (t : OTy) (n : Nat) : List Byte := leBytes (t.size.getD 0) n

def roNum (t : OTy) (n : Nat) : SubEntry := { ty := t, acc := .ro, roles := [], val := t.num n }
def roBlob (v : List Byte) : SubEntry := { ty := .blob, acc := .ro, roles := [], val := v }
def roStr (v : List Byte) : SubEntry := { ty := .str, acc := .ro, roles := [], val := v }
def roF32 (v : List Byte) : SubEntry := { ty := .f32, acc := .ro, roles := [], val := v }
def wrNum (a : OAcc) (t : OTy) (rs : List Role) (n : Nat) : SubEntry := { ty := t, acc := a, roles := rs, val := t.num n }
def wrBlob (a : OAcc) (rs : List Role) (v : List Byte) : SubEntry := { ty := .blob, acc := a, roles := rs, val := v }
def woSub (t : OTy) (rs : List Role) : SubEntry := { ty := t, acc := .wo, roles := rs, val := [] }

/-- `n / d` as binary32, to nearest even; both are exact in binary32. -/
def f32Of (n : Int) (d : Nat) : List Byte :=
  let code (x : Int) : Nat := (FFmt.fp32.round .rne (FVal.ofInt x)).code
  leBytes 4 (FFmt.fp32.divC (code n) (code d))

/-- A 16-bit two's-complement number. -/
def i16Bytes (x : Int) : List Byte := leBytes 2 (x % 65536).toNat

def b2n (b : Bool) : Nat := if b then 1 else 0

/-- ASCII decimal digits. -/
def decimal (n : Nat) : List Byte := (Nat.toDigits 10 n).map (fun c => BitVec.ofNat 8 c.toNat)

/-- major.minor.patch. -/
def versionText (v : Nat × Nat × Nat) : List Byte := decimal v.1 ++ [0x2E] ++ decimal v.2.1 ++ [0x2E] ++ decimal v.2.2

/-- A serial without the zeros that fill its field. -/
def serialText (v : List Byte) : List Byte := (v.reverse.dropWhile (fun b => b = 0)).reverse

/-! ## Identity, sessions, ports, jobs (0x1000-0x12FF) -/

def State.objAssembly (s : State) : List SubEntry :=
  let r := s.org.record
  [roNum .u8 r.variant, roNum (.bitmap 1) r.hbmFitted.toNat, roNum (.bitmap 2) r.opticalPorts.toNat,
   roNum (.bitmap 2) r.siteCapable.toNat, roStr r.serial, roStr r.assemblyVersion]

/-- Object 0x1011 (01 Table 1.7). The layout of the record itself is not given: RECORD is a free function of all that the governing
copy holds (log 40). -/
def State.objRecord (s : State) : List SubEntry :=
  let o := s.org
  [roStr o.record.factoryVersion, roNum .u32 o.fieldSequence.toNat, roNum .u16 o.fieldFree, roNum .u8 o.recordState,
   roNum .u16 o.pendingEntries.length, roBlob o.recordBytes]

def macBytes (m : BitVec 48) : List Byte := (leBytes 6 m.toNat).reverse

/-- PTP_OFFSET in two's complement. -/
def i32Of (x : Int) : Nat := (x % 4294967296).toNat

/-- Object 0x1101 (15 Table 15.12). -/
def State.objMgmt (s : State) : List SubEntry :=
  let o := s.oap
  let addrs (n : Nat) (p : MgmtPortSt) : List Byte := p.addresses.flatMap (fun a => leBytes 1 n ++ padTo 16 a)
  [wrNum .rwp .u8 [.owner] o.media.toNat, roNum (.bitmap 1) (b2n o.portA.up + 2 * b2n o.portB.up),
   roBlob (macBytes o.portA.mac ++ macBytes o.portB.mac), roBlob (addrs 0 o.portA ++ addrs 1 o.portB),
   roNum .u64 o.dropped, roNum .u8 o.ptpState, roNum .i32 (i32Of o.ptpOffset)]

/-- Role codes of object 0x1102. -/
def roleCode : Role → Nat
  | .owner => 1
  | .rack => 2
  | .host => 3
  | .observer => 4

def Session.bytes (x : Session) (now : Nat) : List Byte :=
  leBytes 1 (roleCode x.role) ++ leBytes 1 (portBit x.port) ++ leBytes 8 x.cid.toNat ++
    leBytes 4 (Nat.min 0xFFFFFFFF ((now - x.opened) / 1000000000)) ++
    leBytes 4 (Nat.min 0xFFFFFFFF ((now - x.lastRecord) / 1000000)) ++ List.replicate 14 0

def Conflict.bytes (c : Conflict) : List Byte :=
  leBytes 8 c.time ++ leBytes 2 c.index ++ leBytes 1 c.sub ++ leBytes 1 (roleCode c.role1) ++ leBytes 1 (portBit c.port1) ++
    leBytes 1 (roleCode c.role2) ++ leBytes 1 (portBit c.port2) ++ padTo 4 c.value1 ++ padTo 4 c.value2 ++ [0]

def State.objSessions (s : State) : List SubEntry :=
  let o := s.oap
  [roNum .u8 o.sessions.length, roBlob (o.sessions.flatMap (fun x => x.bytes s.now)), roNum .u32 o.conflicts.toNat,
   roBlob (o.conflictLog.flatMap Conflict.bytes)]

def State.objAnchors (s : State) : List SubEntry :=
  [s.oap.anchorOwner, s.oap.anchorRack, s.oap.anchorHost, s.oap.anchorObserver].map (wrBlob .rwp [.owner])

def RKey.bytes (k : RKey) : List Byte :=
  leBytes 4 k.key.toNat ++ leBytes 1 k.access.toNat ++ [0, 0, 0] ++ leBytes 8 k.base.toNat ++ leBytes 8 k.len.toNat ++
    List.replicate 8 0

def State.objRdma (s : State) : List SubEntry :=
  let o := s.oap
  [woSub .blob [.host], woSub .u32 [.host], woSub .blob [.host],
   roBlob (o.keys.flatMap (fun e => match e.2 with | some k => k.bytes | none => [])), roNum .u16 o.qps.length,
   roNum .u64 o.keyRefused, roNum .u64 (Nat.min 0xFFFFFFFF o.cnpSent * 2 ^ 32 + Nat.min 0xFFFFFFFF o.cnpRecv)]

/-- Object 0x1201 (15 Table 15.13). -/
def State.objJob (s : State) : List SubEntry :=
  let j := s.job
  [wrNum .rw .u64 [.host] j.jobId.toNat, woSub .u8 [.host], roNum .u8 j.state, roNum .u8 j.endCause, roNum .u64 j.startNs,
   roNum .u32 j.epoch.toNat]

/-! ## Power (0x2000-0x23FF; 11 Tables 11.3-11.12) -/

def OrderRec.bytes (r : OrderRec) : List Byte :=
  padTo 32 (leBytes 8 r.time ++ leBytes 1 r.kind ++ leBytes 4 r.rack ++ leBytes 4 r.host ++ leBytes 4 r.result ++
    leBytes 1 r.winner)

/-- A power in mW as a U16 in 0.1 W. -/
def deciWatts (mw : Nat) : List Byte := leBytes 2 (Nat.min 0xFFFF (mw / 100))

def PhaseEntry.bytes (e : PhaseEntry) : List Byte :=
  leBytes 2 e.id.toNat ++ leBytes 2 e.samples ++ leBytes 4 e.lastSeen.toNat ++
    allRegions.flatMap (fun r => deciWatts (e.avg r)) ++ deciWatts e.hbm ++ deciWatts e.fabric ++ [0, 0, 0, 0]

def ThrottleRec.bytes (r : ThrottleRec) : List Byte :=
  leBytes 8 r.start ++ leBytes 8 r.finish ++ leBytes 2 r.causes.toNat ++ leBytes 1 r.ceiling ++ leBytes 2 r.mhz ++ [0, 0, 0]

def State.objCaps (s : State) (index : Nat) : List SubEntry :=
  let p := s.pow
  match index with
  | 0x2001 => [wrNum .rwp .u32 [.rack] p.rackCap, wrNum .rwp .u8 [.rack] p.window]
  | 0x2002 => [wrNum .rwp .u32 [.host] p.hostCap]
  | 0x2003 => [roNum .u32 p.effCap, roNum .u8 p.source, roNum .u32 p.windowAvg, roNum .u32 s.therm.allowance]
  | 0x2010 => [roNum (.bitmap 4) s.capStatus.toNat]
  | 0x2011 => [roBlob (p.orderLog.flatMap OrderRec.bytes), roNum .u32 p.orderTotal.toNat]
  | _ => [wrNum .rwp .u8 [.rack] p.rackOrder, wrNum .rw .u8 [.host] p.hostOrder, wrNum .rwp .u8 [.rack] p.hold,
          roNum .u8 p.effective]

def State.objRipener (s : State) : List SubEntry :=
  let p := s.pow
  [roNum .u32 (p.budget / 1000), roNum .u32 (p.grantSum / 1000), roNum .u32 (p.hbmGrant / 1000),
   roNum .u32 (p.fixedTerms / 1000), roBlob (allRegions.flatMap (fun r => deciWatts (s.region r).grant)),
   roNum .u8 p.phaseTable.length, roNum .u64 p.steps]

def State.objEnergy (s : State) : List SubEntry :=
  let p := s.pow
  [roNum .u64 p.total, roNum .u64 p.energyMain, roNum .u64 p.energyAux, roNum .u32 p.gaps.toNat, roNum .u64 p.gapBound,
   roNum .u32 p.auxEpoch.toNat]

/-- A job energy slot; while its job runs, ENERGY is TOTAL since the start. -/
def State.objSlot (s : State) (j : Nat) : List SubEntry :=
  let x := Tab.get JobSlot.reset s.pow.slots j
  [roNum .u64 x.jobId.toNat, roNum .u8 x.state, roNum .u64 x.startNs, roNum .u64 x.endNs,
   roNum .u64 (if x.state = 1 then s.pow.total - x.base else x.energy), roNum .u64 x.gapBound]

def State.objModes (s : State) : List SubEntry :=
  let p := s.pow
  [wrNum .rwp .u8 [.host] p.mode, wrNum .rwp .u16 [.host] p.fixedMhz, wrNum .rwp .u8 [.rack] p.boostEn,
   roNum .u8 (b2n (p.heldMode.isSome || p.heldMhz.isSome)),
   roBlob (allRegions.flatMap (fun r => leBytes 2 (s.region r).current))]

def State.objThrottle (s : State) : List SubEntry :=
  [roNum .u64 s.pow.intervals, roNum .u32 s.pow.jobTicks, roBlob (s.pow.throttleLog.flatMap ThrottleRec.bytes)]

/-! ## Thermal (0x3000-0x32FF; 12 Tables 12.5-12.8) -/

def State.objThermal (s : State) : List SubEntry :=
  let t := s.therm
  [roF32 (f32Of t.junction 16), roNum .u8 t.hotSpot, roF32 (f32Of t.hbmHottest 16), roNum .u8 t.stateNow, roNum .u32 t.aj,
   roNum .u32 t.sustainedEvents.toNat, roNum .u8 t.tripCause, woSub .u8 [.owner]]

def State.stackTemps (s : State) (n : Nat) : List Byte :=
  i16Bytes (s.stack n).packageTemp ++
    (if s.org.record.hbmFitted.getLsbD n then i16Bytes (s.stack n).temperature else [0, 0x80])

def State.objSensors (s : State) : List SubEntry :=
  let t := s.therm
  [roBlob ((List.range 128).flatMap (fun i => i16Bytes (t.reading i))),
   roBlob ((List.range 64).flatMap (fun h => i16Bytes (t.governing.getD h 0))),
   roBlob ((List.range 128).flatMap (fun i => leBytes 1 (t.mark i + 128 * b2n (Tab.get false t.masked i)))),
   roBlob ((List.range 8).flatMap s.stackTemps), woSub .u8 [.owner]]

def State.objCoolant (s : State) : List SubEntry :=
  let t := s.therm
  [roF32 (f32Of t.inlet 10), roF32 (f32Of t.outlet 10), roF32 (f32Of t.flow 10), roF32 (f32Of t.implied 1000000),
   roF32 (f32Of t.taken 1000000), roNum .u8 (b2n t.suspect), roNum .u32 t.suspectEvents.toNat, roNum .u32 t.aflow,
   roF32 (f32Of t.demand 10), roNum .u8 t.coolNow, roNum .u8 t.leak, roNum .u32 t.leakOhm]

def State.objCycles (s : State) : List SubEntry :=
  let t := s.therm
  [roBlob ((List.range 192).flatMap (fun i => leBytes 4 (Tab.get 0 t.bins i))), roBlob (t.residue.flatMap i16Bytes),
   roNum .u32 t.lifeUsed, roNum .u64 (t.bins.foldl (fun n e => n + e.2) 0), roNum .u64 t.lastSave]

/-! ## Fabric (0x4000-0x45FF; 08 Tables 8.10-8.13, 09 Tables 9.8, 9.10, 9.15, 10 Tables 10.3, 10.4) -/

def State.objFabric (s : State) : List SubEntry :=
  let f := s.fab
  [roNum .u16 f.chip.toNat, roNum .u16 f.group.toNat, roNum .u8 f.member.toNat, roNum .u16 (protoMajor * 256 + protoMinor),
   roNum .u8 f.degraded.toNat, roNum .u8 s.localPeers, roNum .u8 s.globalUp, roNum (.bitmap 6) s.portsUp.toNat,
   roNum .u32 f.epoch.toNat]

def State.objTime (s : State) : List SubEntry :=
  let t := s.time
  [wrNum .rwp .u8 [.owner] t.role, roNum .u8 t.state, roNum .u8 t.stratum, roNum .u8 t.parent, roNum .u32 t.bound,
   roNum .u32 t.limit, roNum .u32 t.epoch.toNat]

def State.objPlan (s : State) : List SubEntry :=
  let f := s.fab
  let inForce (g : Plan → List Byte) : List Byte := match f.plan with | some p => g p | none => []
  [wrBlob .rwp [.owner] (inForce (fun p => p.blob)), wrBlob .rwp [.owner] f.signer, roNum .u64 f.planId,
   roNum .u8 f.planCause, woSub .u16 [.owner], roBlob (f.swaps.flatMap (fun e => leBytes 1 e.1 ++ leBytes 1 e.2)),
   roNum .u32 f.planEpoch.toNat, roBlob (inForce (fun p => p.signer))]

/-- Object 0x4101 + c. -/
def State.objPort (s : State) (p : Nat) : List SubEntry :=
  let x := s.port p
  [roNum .u8 x.state, roNum .u8 x.cause, roStr (serialText x.nbSerial), roNum .u8 x.nbPort, roNum .u16 x.nbChip,
   roNum .u64 x.nbPlan, roStr (match x.nbFw with | some v => versionText v | none => []), roNum .u8 x.runMinor,
   roNum .u32 x.flightNs, roNum .u8 x.pair, roNum .u8 (s.logicalOf p)]

def State.objRoutes (s : State) : List SubEntry :=
  let f := s.fab
  [wrNum .rw .u64 [.owner] f.shadowPlan, woSub .u8 [.owner], roNum .u64 f.activePlan, roNum .u8 f.routeCause,
   roNum .u32 f.routeEpoch.toNat]

/-- Route block b: the active bank's entries for 256 chips. -/
def State.objRouteBlock (s : State) (b : Nat) : List SubEntry :=
  [wrBlob .rw [.owner] ((List.range 256).flatMap (fun i =>
    leBytes 8 (Tab.get routeDefault s.fab.routes (256 * b + i)).toNat))]

def State.objSched (s : State) : List SubEntry :=
  let c := s.sched
  [wrNum .rw .u64 [.owner] c.shadowId.toNat, wrNum .rw .u16 [.owner] c.slots, wrNum .rw .u64 [.owner] c.start.toNat,
   woSub .u8 [.owner], roNum .u64 c.activeId.toNat, roNum .u8 s.schedState, roNum .u64 c.misses.toNat,
   roNum .u64 c.violations.toNat, roNum .u32 c.epoch.toNat]

/-- Port schedule c: the active table. -/
def State.objSchedTable (s : State) (p : Nat) : List SubEntry :=
  [wrBlob .rw [.owner] ((s.port p).schedActive.flatMap (fun e => leBytes 4 e.toNat))]

def State.objCongestion (s : State) : List SubEntry :=
  [wrNum .rw .u8 [.owner] s.cong.enable,
   roNum .u32 (match (s.port 0).ring.getLast? with | some r => r.seq.toNat | none => 0), roNum .u32 s.cong.tick.toNat]

/-- The 256 records of a port's ring, oldest first; records not yet taken are left out. -/
def State.objCongMap (s : State) (p : Nat) : List SubEntry := [roBlob ((s.port p).ring.flatMap CongRec.bytes)]

def State.objSite (s : State) : List SubEntry :=
  [roNum (.bitmap 2) s.site.active.toNat, roNum (.bitmap 2) s.site.stores.toNat, roNum .u32 s.site.epoch.toNat]

/-- Object 0x4501 + n, of port G12 + n. Forward plus reverse time is twice LINK_NS (R466). -/
def State.objSitePort (s : State) (n : Nat) : List SubEntry :=
  let x := s.sitePort (44 + n)
  [roNum .u8 x.state, roNum .u8 x.cause, roNum .u8 x.moduleState, wrNum .rwp .i32 [.owner] (i32Of x.asymmetry),
   wrNum .rwp .u32 [.owner] x.moduleNext, roNum .u32 x.linkNs, roNum .u32 (2 * x.linkNs), roNum .u64 x.caveBase,
   roNum .u64 x.storeBase, roNum .u32 x.storePeak, roNum .u64 x.replays, roNum .u32 x.cavePoison.toNat,
   roNum .u32 x.retrains.toNat, roNum .u32 x.epoch.toNat]

/-! ## HBM, cores and regions (0x5000-0x60FF; 07 Tables 7.3, 7.4, 01 Tables 1.13-1.15, 06 Table 6.6) -/

/-- Object 0x5001. TOP and JOB_TOP are last bytes; with HBM unusable they read as 0. -/
def State.objLayout (s : State) : List SubEntry :=
  let h := s.hbm
  let caveOf (p : Nat) : Nat := match h.caves.find? (fun e => decide (e.1 = p)) with | some e => e.2 | none => 0
  [roNum (.bitmap 1) h.set.toNat, roNum .u8 h.inter.length,
   roNum .u8 (match h.inter.head? with | some e => e.2.length | none => 0), roNum .u64 (h.tail.length * twoGiB),
   roNum .u64 (h.limit - 1), roNum .u64 (s.jobTop - 1), roNum .u64 h.runtimeBase,
   roBlob ((List.range 4).flatMap (fun i => leBytes 8 (caveOf (44 + i)))), roNum (.bitmap 1) (h.inUse &&& s.org.memoryOn).toNat,
   roNum .u32 h.epoch.toNat]

def State.objStack (s : State) (n : Nat) : List SubEntry :=
  let x := s.stack n
  if s.org.record.hbmFitted.getLsbD n then
    [roNum .u8 x.state, roNum (.bitmap 4) x.healthy.toNat, roNum (.bitmap 4) x.retirePending.toNat,
     wrNum .rwp (.bitmap 4) [.owner] x.retireRequest.toNat, roNum .u64 x.corrected.toNat, roNum .u64 x.uncorrectable.toNat,
     roNum .u16 x.marked.length, roF32 (f32Of x.temperature 16), roNum .u8 x.refresh]
  else
    [roNum .u8 0, roNum (.bitmap 4) 0, roNum (.bitmap 4) 0, wrNum .rwp (.bitmap 4) [.owner] 0, roNum .u64 0, roNum .u64 0,
     roNum .u16 0, roF32 [0, 0, 0, 0], roNum .u8 0]

/-- Four cores' codes of MAP. -/
def OrgSt.mapByte (o : OrgSt) (i : Nat) : Byte :=
  BitVec.ofNat 8 ((List.range 4).foldl (fun n j => n + Tab.get 0 o.capacity (4 * i + j) * 4 ^ j) 0)

def State.objCapacity (s : State) : List SubEntry :=
  [roNum .u16 (allCores.filter s.org.present).length, roNum (.bitmap 2) (bitsWhere s.hasCores 0 16).toNat,
   roBlob ((List.range 256).map s.org.mapByte), roNum .u32 s.org.capEpoch.toNat]

def State.objSpares (s : State) : List SubEntry := (List.range 32).map (fun row => roNum .u32 (s.org.spareRow row))

def State.objRegions (s : State) : List SubEntry :=
  let o := s.org
  [roBlob (allRegions.flatMap (fun r => leBytes 1 (Tab.get 3 o.regionState r))),
   roBlob (allRegions.flatMap (fun r => leBytes 4 (Tab.get 0 o.regionResets r).toNat)),
   roBlob (allRegions.flatMap (fun r => leBytes 4 (Nat.min 0xFFFFFFFF (Tab.get 0 o.regionDiscarded r)))),
   roNum .u32 o.regionEpoch.toNat]

def State.objOffset (s : State) : List SubEntry := [wrNum .rw .u8 [.rack] s.barriers.releaseOffset]

/-! ## Firmware (0x7000-0x73FF; 17 Table 17.10) -/

/-- IMAGE_ID of a slot; zeros when it is empty. -/
def Slot.idBytes (x : Slot) : List Byte := if x.state = 0 then List.replicate 16 0 else padTo 16 x.imageId

def State.objImage (s : State) (t : Nat) : List SubEntry :=
  let i := s.image t
  [roNum .u8 (s.runSlot t), roNum .u8 i.state, roBlob i.slot0.idBytes, roNum .u8 i.slot0.state, roBlob i.slot1.idBytes,
   roNum .u8 i.slot1.state, roNum .u16 i.floor.toNat]

def State.objFetch (s : State) : List SubEntry :=
  let f := s.fw
  [wrBlob .rwp [.owner] f.server, wrNum .rwp .u8 [.owner] f.fabricFetch, roNum .u64 f.served, roNum .u32 f.discarded.toNat]

def State.objUpdate (s : State) : List SubEntry :=
  let u := s.fw.update
  [woSub .blob [.owner], roNum .u8 u.state, roNum .u16 u.status, roNum .u8 u.type, roBlob (padTo 16 u.imageId),
   roNum .u32 u.total, roNum .u32 u.received.length, roNum .u32 u.stageId.toNat, roNum .u8 u.stageResult]

def State.objLock (s : State) : List SubEntry :=
  let f := s.fw
  [wrNum .rwp .u8 [.owner] (b2n f.locked), roBlob f.lockNonce, woSub .blob [.owner], roBlob f.lockAnchor,
   roNum .u32 f.clears.toNat]

/-- Object 0x7301; REPORT is the asking session's. -/
def State.objAttest (s : State) (sid : Nat) : List SubEntry :=
  let report : List Byte := match s.oap.sessions.find? (fun x => decide (x.id = sid)) with | some x => x.report | none => []
  [roBlob s.fw.certificate, woSub .blob [.owner, .rack, .host, .observer], roBlob report, roNum .u8 s.island,
   roNum .u32 s.fw.reports.toNat]

/-! ## Faults and start-up (0x8000-0x80FF; 16 Table 16.17, 14 Table 14.3) -/

def HealthRec.bytes (h : HealthRec) : List Byte :=
  padTo 32 (leBytes 8 h.time ++ leBytes 4 h.seq.toNat ++ leBytes 1 h.cls ++ leBytes 1 h.unit ++ leBytes 1 h.cause ++ [0] ++
    leBytes 2 h.index ++ leBytes 2 h.object)

def LadderHist.bytes (h : LadderHist) : List Byte :=
  leBytes 8 h.start ++ leBytes 8 h.finish ++ leBytes 1 h.step ++ leBytes 1 h.outcome ++ leBytes 2 h.scope.toNat ++
    leBytes 4 h.seq.toNat

def State.objFaults (s : State) (index : Nat) : List SubEntry :=
  let f := s.faults
  let l := f.ladder
  match index with
  | 0x8001 => [roNum (.bitmap 4) f.reasons.toNat, roNum .u64 f.firstNs, roNum .u32 f.raised.toNat, woSub .u32 [.owner],
               roNum .u32 f.reasonEpoch.toNat]
  | 0x8002 => [roNum .u8 f.tier, roNum (.bitmap 2) f.lacking.toNat, roNum .u32 f.tierEpoch.toNat]
  | 0x8003 => [roBlob (f.health.flatMap HealthRec.bytes), roNum .u32 f.healthTotal.toNat]
  | 0x8010 => [wrNum .rwp .u32 [.owner, .host] (f.windowNext.getD f.windowMs), roNum .u32 f.hungCount.toNat, roNum .u32 f.lastHungSeq.toNat]
  | 0x8011 => [roBlob s.ringBytes, roNum .u32 f.seq.toNat]
  | 0x8030 => [roNum .u8 l.step, roNum .u16 l.scope.toNat, roNum .u64 l.startedNs, roNum .u32 l.escalations.toNat,
               roBlob (l.history.flatMap LadderHist.bytes), woSub .u32 [.owner, .host]]
  | _ => [roNum .u8 f.dumpState, roNum .u32 s.dumpBytes.length, roBlob s.dumpBytes, woSub .u8 [.owner, .host],
          roNum .u32 f.dumpSkipped.toNat, roNum .u32 f.dumpEpoch.toNat]

def State.objStart (s : State) : List SubEntry :=
  let x := s.start
  [roNum .u8 x.step, roNum .u8 x.endTier,
   roBlob ((List.range 10).flatMap (fun i => leBytes 4 (Tab.get notBegun x.stepMs (i + 1)))), roNum .u8 x.cause,
   roNum (.bitmap 6) x.missing.toNat, roNum .u32 x.epoch.toNat]

/-! ## Tray, unit counters, Rind (0x9000-0xB0FF; 13 Table 13.8, 18 Table 18.6, 15 Table 15.4) -/

def State.objTray (s : State) (index : Nat) : List SubEntry :=
  let t := s.tray
  match index with
  | 0x9001 => [wrNum .rw .u8 [.owner, .rack, .host] (b2n t.locateUntil.isSome),
               roNum .u16 ((t.locateUntil.getD s.now - s.now) / 1000000000)]
  | 0x9002 => [roNum .u8 t.slot, roNum (.bitmap 2) s.lineBits.toNat, roNum .u16 t.format,
               roNum .u32 (if t.lastReport = 0 then 0 else (s.now - t.lastReport) / 1000000), roNum .u32 t.busErrors.toNat,
               roNum .u64 (t.stageId.toNat * 2 ^ 32 + t.stageState)]
  | _ => [roNum .u8 t.mainState, roNum .u8 t.isoCause, wrNum .rwp .u32 [] t.isolations.toNat, woSub .u8 [.owner]]

/-- CNT0-CNT3 of a counter block. -/
def UnitCounters.counts (u : UnitCounters) : List Byte := (List.range 4).flatMap (fun i => leBytes 8 (u.cntOf i).toNat)

def State.objCounters (s : State) : List SubEntry :=
  let c := s.counters
  let stack (n : Nat) : List Byte :=
    if s.org.record.hbmFitted.getLsbD n then (s.hbmCounters n).counts else List.replicate 32 0
  [wrNum .rwp .u8 [.owner] c.controlOwner, woSub .blob [.owner, .host], roBlob (allPorts.flatMap (fun p => (s.portCounters p).counts)),
   roBlob ((List.range 8).flatMap stack), roNum .u32 c.discarded.toNat]

/-- Seconds until the takeback of R641. -/
def State.takebackIn (s : State) : Nat :=
  let r := s.rind
  match r.healthySince with
  | some t => if r.b = .active ∧ s.standbyHealthy then (t + 60000000000 - s.now) / 1000000000 else 0xFFFF
  | none => 0xFFFF

def State.objRind (s : State) : List SubEntry :=
  let r := s.rind
  [roNum .u8 (if r.a = .active then 1 else if r.b = .active then 2 else 0),
   roNum (.bitmap 1) (b2n r.ownA + 2 * b2n r.ownB + 4 * b2n (decide (r.a = .halted)) + 8 * b2n (decide (r.b = .halted))),
   roNum .u32 r.takeovers.toNat, roNum .u8 r.lastCause, roNum .u64 r.lastTime, roNum .u16 (r.releasesA * 256 + r.releasesB),
   roNum .u16 s.takebackIn]

def State.objStandby (s : State) : List SubEntry :=
  let r := s.rind
  [roNum .u8 (b2n s.standbyHealthy),
   roNum .u32 (match r.healthySince with | some t => if s.standbyHealthy then (s.now - t) / 1000000000 else 0 | none => 0),
   roNum .u32 r.memoryPasses.toNat, roNum .u32 r.memoryErrors.toNat, roNum .u32 r.lockstepFails.toNat,
   roNum .u32 r.loopbackFails.toNat, roNum .u32 r.mirrorLag]

/-! ## The dictionary (15 Table 15.6) -/

def State.object0 (s : State) (index : Nat) : Option (List SubEntry) :=
  match index with
  | 0x1010 => some s.objAssembly
  | 0x1011 => some s.objRecord
  | 0x1101 => some s.objMgmt
  | 0x1102 => some s.objSessions
  | 0x1103 => some s.objAnchors
  | 0x1120 => some s.objRdma
  | 0x1201 => some s.objJob
  | 0x2101 => some s.objRipener
  | 0x2110 => some [roBlob (s.pow.phaseTable.flatMap PhaseEntry.bytes)]
  | 0x2201 => some s.objEnergy
  | 0x2301 => some s.objModes
  | 0x2302 => some s.objThrottle
  | 0x3001 => some s.objThermal
  | 0x3002 => some s.objSensors
  | 0x3101 => some s.objCoolant
  | 0x3201 => some s.objCycles
  | 0x4001 => some s.objFabric
  | 0x4010 => some s.objTime
  | 0x4020 => some s.objPlan
  | 0x4200 => some s.objRoutes
  | 0x4300 => some s.objSched
  | 0x4400 => some s.objCongestion
  | 0x4500 => some s.objSite
  | _ => none

def State.object1 (s : State) (sid index : Nat) : Option (List SubEntry) :=
  match index with
  | 0x5001 => some s.objLayout
  | 0x6001 => some s.objCapacity
  | 0x6002 => some s.objSpares
  | 0x6010 => some s.objOffset
  | 0x6020 => some s.objRegions
  | 0x7010 => some s.objFetch
  | 0x7101 => some s.objUpdate
  | 0x7201 => some s.objLock
  | 0x7301 => some (s.objAttest sid)
  | 0x8020 => some s.objStart
  | 0xA001 => some s.objCounters
  | 0xB001 => some s.objRind
  | 0xB010 => some s.objStandby
  | _ => none

/-- The objects that come in runs, and those that share a table. -/
def State.objectRun (s : State) (index : Nat) : Option (List SubEntry) :=
  if [0x2001, 0x2002, 0x2003, 0x2010, 0x2011, 0x2020].contains index then some (s.objCaps index)
  else if inRun index 0x2202 16 then some (s.objSlot (index - 0x2202))
  else if inRun index 0x4101 48 then some (s.objPort (index - 0x4101))
  else if inRun index 0x4201 64 then some (s.objRouteBlock (index - 0x4201))
  else if inRun index 0x4301 48 then some (s.objSchedTable (index - 0x4301))
  else if inRun index 0x4401 48 then some (s.objCongMap (index - 0x4401))
  else if inRun index 0x4501 4 then some (s.objSitePort (index - 0x4501))
  else if inRun index 0x5010 8 then some (s.objStack (index - 0x5010))
  else if inRun index 0x7001 6 then some (s.objImage (index - 0x7000))
  else if [0x8001, 0x8002, 0x8003, 0x8010, 0x8011, 0x8030, 0x8040].contains index then some (s.objFaults index)
  else if [0x9001, 0x9002, 0x9003].contains index then some (s.objTray index)
  else none

/-- The sub-entries of an object from 0x01 up, as a session sees them. -/
def State.object (s : State) (sid index : Nat) : Option (List SubEntry) :=
  ((s.object0 index).or (s.object1 sid index)).or (s.objectRun index)

/-- A sub-entry, or the code that refuses it; sub-index 0x00 counts the others. -/
def State.subEntry (s : State) (sid index sub : Nat) : Except Nat SubEntry :=
  match s.object sid index with
  | none => .error stUnknownObject
  | some l =>
    if sub = 0 then .ok (roNum .u8 l.length)
    else match l[sub - 1]? with
      | none => .error stUnknownSub
      | some e => .ok e

end Sys2Proof.Machine
end

