-- ==== Sys2Proof/Machine/Rind.lean ====
section
/-! DEFINITION. The Rind pair (15 R626-R643) with the hitless RIND update (17 R752-R755). -/
namespace Sys2Proof.Machine

/-! ## The two controllers -/

def RindSt.role (r : RindSt) : Rind → RindRole
  | .a => r.a
  | .b => r.b

def RindSt.setRole (r : RindSt) (x : Rind) (k : RindRole) : RindSt :=
  match x with
  | .a => { r with a := k }
  | .b => { r with b := k }

def RindSt.active (r : RindSt) : Option Rind := if r.a = .active then some .a else if r.b = .active then some .b else none

def RindSt.standby (r : RindSt) : Option Rind :=
  if r.a = .standby then some .a else if r.b = .standby then some .b else none

/-- Drives or drops an OWN line; a line that drops notes when. -/
def RindSt.setOwn (r : RindSt) (x : Rind) (on : Bool) (now : Nat) : RindSt :=
  match x with
  | .a => { r with ownA := on, lowA := if on then r.lowA else now }
  | .b => { r with ownB := on, lowB := if on then r.lowB else now }

/-- The line has been deasserted for 1 ms without a break. -/
def RindSt.lowFor (r : RindSt) (x : Rind) (now : Nat) : Bool :=
  match x with
  | .a => !r.ownA && decide (r.lowA + 1000000 ≤ now)
  | .b => !r.ownB && decide (r.lowB + 1000000 ≤ now)

def RindSt.releases (r : RindSt) : Rind → Nat
  | .a => r.releasesA
  | .b => r.releasesB

def RindSt.countRelease (r : RindSt) (x : Rind) : RindSt :=
  match x with
  | .a => { r with releasesA := satAdd 0xFF r.releasesA 1 }
  | .b => { r with releasesB := satAdd 0xFF r.releasesB 1 }

/-- The RIND slot in a controller's flash. -/
def rindSlot : Rind → Nat
  | .a => 0
  | .b => 1

def State.rindImage (s : State) (x : Rind) : Slot := (s.image 2).slot (rindSlot x)

/-- The Starter copies the peer's image from the peer's flash; while flash may not be programmed (13 R597), the slot is left incomplete
and the copy waits. -/
def State.copyPeer (s : State) (x : Rind) (state : Nat) : State :=
  let y := if s.flashOpen then { s.rindImage x.other with state := state } else { s.rindImage x with state := 1 }
  (s.modSlot 2 (rindSlot x) (fun _ => y)).notify 0x7002

/-! ## Releasing a line (R630-R632) -/

/-- What a release means for a RIND update: an image that has not confirmed is replaced (17 R754); a write of the standby's
slot is abandoned (17 R755). -/
def State.updateOnRelease (s : State) (x : Rind) : State :=
  let u := s.fw.update
  if u.type ≠ 2 ∨ u.isOpen = false then s
  else if u.state = 4 ∧ (s.rindImage x).state = 4 then (s.copyPeer x 5).endSession 0x11
  else if u.writing then (s.copyPeer x.other 5).endSession 0x12
  else s

/-- A controller drops its line and restarts through its Starter. -/
def State.dropLine (s : State) (x : Rind) (cause : Nat) : State :=
  let r := (s.rind.setRole x .starter).setOwn x false s.now
  ({ s with rind := { r with nextCause := cause, switching := some s.now },
            pow := { s.pow with grantsDue := none } }).evalTier

/-- Three self-diagnosed releases keep a controller halted (R631). -/
def State.haltIfThird (s : State) (x : Rind) : State :=
  if 3 ≤ s.rind.releases x then ({ s with rind := s.rind.setRole x .halted }).raiseReason 10 else s

def RindFault.code : RindFault → Nat
  | .lockstep => 1
  | .memory => 2
  | .deadline => 3

/-- The active controller finds a failure of its own, releases its line and stops. -/
def execRindRelease (f : RindFault) (s : State) : Out :=
  match s.rind.active with
  | none => .next s
  | some x =>
    let s1 := (s.updateOnRelease x).dropLine x (RindFault.code f)
    .next (({ s1 with rind := s1.rind.countRelease x }).haltIfThird x)

/-- The island's watchdog deasserts the line of a controller that hangs. -/
def execRindWatchdog (s : State) : Out :=
  match s.rind.active with
  | none => .next s
  | some x => .next ((s.updateOnRelease x).dropLine x 3)

/-! ## Claiming (R629, R633-R637) -/

/-- What the new active controller takes from its mirror: energies with the telemetry since, at the upper limit of its tolerance of 2 %
(11 R536), and never below what has been published (R538), the phase table, the
thermal cycles, the newest health records. -/
def State.fromMirror (s : State) (main aux bound : Nat) : State :=
  let upper (e : Nat) : Nat := (102 * e + 99) / 100
  let m := s.rind.mirror
  let b := Nat.min bound 560000000
  let slot (j : JobSlot) : JobSlot := if j.state = 1 then { j with gapBound := j.gapBound + b } else j
  { s with
    pow := { s.pow with energyMain := Nat.max s.pow.energyMain (m.main + upper main),
                        energyAux := Nat.max s.pow.energyAux (m.aux + upper aux), gaps := s.pow.gaps + 1,
                        gapBound := s.pow.gapBound + b, phaseTable := m.phaseTable,
                        slots := Tab.mapVals JobSlot.reset slot s.pow.slots },
    therm := { s.therm with bins := m.bins, residue := m.residue },
    faults := { s.faults with health := s.faults.health.drop (s.faults.health.length - 64) } }

/-- Time conditions count afresh from the takeover (12 R573), and the timeout of a ladder step (16 R718). -/
def State.afresh (s : State) : State :=
  { s with
    therm := { s.therm with above95 := none, below92 := none, dieCool := none, hbmCool := none, differFrom := none,
                            agreeFrom := none },
    faults := { s.faults with ladder := { s.faults.ladder with startedAt := s.now } },
    tray := { s.tray with format := 0 } }

/-- Every session's send numbers advance by 2^24, its keys are updated, and each subscription gets an EVENT with RESYNC (R634, R637). -/
def Session.takenOver (x : Session) : Session :=
  { x with sendSeq := x.sendSeq + 0x1000000, keyEpoch := x.keyEpoch + 1, resync := true, subs := x.subs.map (fun u => { u with due := true }) }

/-- A start in progress repeats its step from the beginning (14 R622). -/
def State.repeatStep (s : State) : State :=
  if s.start.step = 0 ∨ 9 < s.start.step then s
  else
    let s1 := s.enterStep s.start.step
    if s1.start.step = 8 then { s1 with start := { s1.start with groups := 0, lastGroup := none } }
    else if s1.start.step = 3 ∧ s1.tray.mainReq ≠ 1 then s1.requestMain
    else s1

/-- A healthy standby claims: `main` and `aux` are the telemetry energies since the mirror, `bound` their error bound, in
uJ. -/
def execRindClaim (main aux bound : Nat) (s : State) : Out :=
  match s.rind.standby with
  | none => .next s
  | some x =>
    if s.rindActive || !s.standbyHealthy || !s.rind.lowFor x.other s.now then .next s
    else
      let r := (s.rind.setRole x .active).setOwn x true s.now
      let s1 := { s with rind := { r with
        takeovers := r.takeovers + 1, lastCause := r.nextCause, lastTime := s.stamp, switching := none, healthy := false,
        healthySince := none } }
      let s2 := (s1.fromMirror main aux bound).afresh
      let s3 := { s2 with
        oap := { s2.oap with sessions := s2.oap.sessions.map Session.takenOver },
        fw := { s2.fw with update := { s2.fw.update with
          holdFrom := if r.nextCause = 5 then some s.now else s2.fw.update.holdFrom } } }
      .next s3.repeatStep.evalTier.gateSession.askNext

/-! ## Restart (R631; 17 R752, R754) -/

/-- A RIND session is writing this controller's slot. -/
def State.beingWritten (s : State) (x : Rind) : Bool :=
  let u := s.fw.update
  decide (u.type = 2) && u.writing && decide (s.targetSlot 2 = rindSlot x)

/-- The second controller of an update copies the first one's confirmed image before it boots. -/
def State.secondCopy (s : State) (x : Rind) : State :=
  let u := s.fw.update
  if u.type = 2 ∧ u.state = 4 ∧ u.firstDone = true ∧ (s.rindImage x).state = 1 then
    (s.copyPeer x 4).setUpdate { u with received := List.range u.total, bootAt := some s.now, holdFrom := none }
  else s

/-- A controller in its Starter finishes its self-test and becomes standby, or halts. -/
def execRindRestart (x : Rind) (r : StarterResult) (s : State) : Out :=
  let lacks (s : State) : Bool := decide ((s.rindImage x).state = 1)
  if decide (s.rind.role x ≠ .starter) || s.beingWritten x || decide (3 ≤ s.rind.releases x) ||
      ((!r.rindOk || lacks s) && !s.flashOpen) then .next s
  else
    let s0 := (if r.rindOk then s else s.copyPeer x 5).secondCopy x
    let s1 := if lacks s0 then s0.copyPeer x 5 else s0
    if r.starterOk && r.selfTest && r.keysMatch then
      .next { s1 with rind := { s1.rind.setRole x .standby with healthy := false, healthySince := none, lastPass := none } }
    else .next (({ s1 with rind := s1.rind.setRole x .halted }).raiseReason 10)

/-! ## Standby health (R638-R640) -/

/-- A handover is postponed while any of these stands (R642). -/
def State.handoverHeld (s : State) : Bool :=
  decide (s.start.step ≤ 9) || s.pow.alertHeld || s.therm.fastStop || s.therm.dieForced || s.therm.hbmForced

/-- The 120 s of an unconfirmed image do not run while a handover is postponed (17 R753). -/
def State.holdConfirm (s : State) : State :=
  let u := s.fw.update
  if u.type = 2 ∧ u.state = 4 ∧ s.handoverHeld = true then
    s.setUpdate { u with bootAt := u.bootAt.map (fun t => t + 1000000000) }
  else s

/-- The standby's tests of one second. -/
def execStandbyTest (t : StandbyTests) (s : State) : Out :=
  match s.rind.standby with
  | none => .next s
  | some _ =>
    let r := s.rind
    let ok := decide (t.memoryErrors = 0) && t.lockstepDetected && t.loopbackOk
    let pass := if ok then some s.now else r.lastPass
    let healthy := (match pass with | some p => decide (s.now ≤ p + 2000000000) | none => false) &&
      decide (t.mirrorLag ≤ 100)
    let s1 := { s with rind := { r with
      lastPass := pass, healthy := healthy,
      healthySince := if healthy then some (r.healthySince.getD s.now) else none,
      memoryPasses := if t.memoryPass then r.memoryPasses + 1 else r.memoryPasses,
      memoryErrors := r.memoryErrors + BitVec.ofNat 32 t.memoryErrors,
      lockstepFails := if t.lockstepDetected then r.lockstepFails else r.lockstepFails + 1,
      loopbackFails := if t.loopbackOk then r.loopbackFails else r.loopbackFails + 1,
      mirrorLag := t.mirrorLag } }
    let s2 := if ok then s1 else (s1.health 1 0 0 0 0xB010 0).raiseReason 10
    .next s2.holdConfirm.gateSession

/-- The standby has been healthy so long. -/
def State.healthyFor (s : State) (ns : Nat) : Bool := s.standbyHealthy && heldFor s.rind.healthySince ns s.now

/-! ## Mirroring (R635) -/

/-- Copies every item of Table 15.3 whose period has passed, or all of them. -/
def State.copyMirror (s : State) (all : Bool) : State :=
  let m := s.rind.mirror
  let e := all || decide (m.energyAt + 100000000 ≤ s.now)
  let w := all || decide (m.slowAt + 1000000000 ≤ s.now)
  let v := all || decide (m.valuesAt + 250000000 ≤ s.now)
  let h := s.faults.health
  { s with rind := { s.rind with mirror :=
    { main := if e then s.pow.energyMain else m.main, aux := if e then s.pow.energyAux else m.aux,
      phaseTable := if w then s.pow.phaseTable else m.phaseTable, bins := if w then s.therm.bins else m.bins,
      residue := if w then s.therm.residue else m.residue, health := h.drop (h.length - 64),
      energyAt := if e then s.now else m.energyAt, slowAt := if w then s.now else m.slowAt,
      valuesAt := if v then s.now else m.valuesAt } } }

def execMirrorCopy (s : State) : Out :=
  if s.rindActive && s.rind.standby.isSome then .next (s.copyMirror false) else .next s

/-! ## Takeback and the update's handover (R641, R642; 17 R752-R754) -/

def execTakeback (s : State) : Out :=
  if decide (s.rind.b = .active) && decide (s.rind.a = .standby) && s.healthyFor 60000000000 && !s.handoverHeld &&
      !s.fw.update.isOpen then
    .next ((s.copyMirror true).dropLine .b 4)
  else .next s

/-- The new image, 30 s a healthy standby, takes control. -/
def execRindUpdateHandover (s : State) : Out :=
  let u := s.fw.update
  match s.rind.active, s.rind.standby with
  | some x, some y =>
    if decide (u.type = 2) && decide (u.state = 4) && !u.firstDone && decide ((s.rindImage y).state = 4) &&
        s.healthyFor 30000000000 && !s.handoverHeld then
      .next ((s.copyMirror true).dropLine x 5)
    else .next s
  | _, _ => .next s

/-- The first image has confirmed: the other controller restarts into its Starter, and its slot is erased. -/
def State.firstConfirmed (s : State) (x : Rind) : State :=
  let u := s.fw.update
  let s1 := s.modSlot 2 (rindSlot x) (fun i => { i with state := 5 })
  let new : Slot := { state := 1, torn := false, imageId := u.imageId, stageId := 0, blocks := [] }
  let s2 := s1.modSlot 2 (rindSlot x.other) (fun _ => new)
  let r := { s2.rind.setRole x.other .starter with healthy := false, healthySince := none }
  ({ s2 with rind := r }).setUpdate { u with firstDone := true, received := [], bootAt := none }

/-- The second image has confirmed: the floor is raised, and the session is done. -/
def State.secondConfirmed (s : State) (x : Rind) : State :=
  let s1 := s.modSlot 2 (rindSlot x) (fun i => { i with state := 5 })
  let i := s1.image 2
  ((s1.setImage 2 { i with state := 0, floor := securityVersion (s1.rindImage x).desc }).notify 0x7002).update
    { s1.fw.update with state := 6, status := 0 }

def execRindImageConfirmed (s : State) : Out :=
  let u := s.fw.update
  if u.type ≠ 2 ∨ u.state ≠ 4 then .next s
  else if u.firstDone then
    match s.rind.standby with
    | none => .next s
    | some y =>
      if decide ((s.rindImage y).state = 4) && s.healthyFor 30000000000 then .next (s.secondConfirmed y) else .next s
  else
    match s.rind.active with
    | none => .next s
    | some x =>
      if decide ((s.rindImage x).state = 4) && heldFor u.holdFrom 30000000000 s.now then .next (s.firstConfirmed x)
      else .next s

/-- An image that has not confirmed in 120 s is replaced from the peer's flash, and its controller restarts. -/
def execRindConfirmTimeout (s : State) : Out :=
  let u := s.fw.update
  if u.type ≠ 2 ∨ u.state ≠ 4 ∨ heldFor u.bootAt 120000000000 s.now = false ∨ s.handoverHeld = true then .next s
  else
    match [Rind.a, Rind.b].find? (fun x => decide ((s.rindImage x).state = 4)) with
    | none => .next s
    | some x =>
      let s1 := (s.copyPeer x 5).endSession 0x11
      if s1.rind.active = some x then .next (s1.dropLine x 3)
      else .next { s1 with rind := { s1.rind.setRole x .starter with healthy := false, healthySince := none } }

end Sys2Proof.Machine
end

