-- ==== Sys2Proof/Machine/Writes.lean ====
section
/-! DEFINITION. OAP writes (15 R646, R647, R659): one operation performs a write of any sub-entry, and the writes that have a
row of their own are calls of it with their object. -/
namespace Sys2Proof.Machine

/-! ## Numbers -/

/-- Caps and orders (11 Tables 11.3, 11.5, R492, R493, R502-R504). -/
def State.putCap (s : State) (rack : Bool) (v : Nat) : WriteOut :=
  let p := s.pow
  let p1 := if rack then { p with rackCap := v } else { p with hostCap := v }
  (({ s with pow := { p1 with capPending := true } }).storeValue (if rack then 0x2001 else 0x2002) 1).done

def State.putWindow (s : State) (v : Nat) : WriteOut :=
  if 1 ≤ v ∧ v ≤ 30 then (({ s with pow := { s.pow with window := v } }).storeValue 0x2001 2).done else s.deny stInvalid

def State.putRackOrder (s : State) (v : Nat) : WriteOut :=
  if 2 < v then s.deny stInvalid
  else ((({ s with pow := { s.pow with rackOrder := v } }).storeValue 0x2020 1).applyOrders).done

def State.putHostOrder (s : State) (v : Nat) : WriteOut :=
  if 2 < v then s.deny stInvalid else (({ s with pow := { s.pow with hostOrder := v } }).applyOrders).done

def State.putHold (s : State) (v : Nat) : WriteOut :=
  if 1 < v then s.deny stInvalid
  else ((({ s with pow := { s.pow with hold := v } }).storeValue 0x2020 3).showCaps).done

/-- MODE and FIXED_MHZ are held while a job is loaded (11 R513). -/
def State.putMode (s : State) (v : Nat) : WriteOut :=
  let p := s.pow
  if 1 < v then s.deny stInvalid
  else (({ s with pow := if s.jobLoaded then { p with heldMode := some v } else { p with mode := v } }).storeValue 0x2301 1).done

def State.putMhz (s : State) (v : Nat) : WriteOut :=
  let p := s.pow
  if decide (v < 800) || decide (2000 < v) || decide (v % 25 ≠ 0) then s.deny stInvalid
  else (({ s with pow := if s.jobLoaded then { p with heldMhz := some v } else { p with fixedMhz := v } }).storeValue 0x2301 2).done

def State.putBoost (s : State) (v : Nat) : WriteOut :=
  if 1 < v then s.deny stInvalid else (({ s with pow := { s.pow with boostEn := v } }).storeValue 0x2301 3).done

def State.putPower (s : State) (index sub v : Nat) : WriteOut :=
  match index, sub with
  | 0x2001, 1 => s.putCap true v
  | 0x2001, 2 => s.putWindow v
  | 0x2002, 1 => s.putCap false v
  | 0x2020, 1 => s.putRackOrder v
  | 0x2020, 2 => s.putHostOrder v
  | 0x2020, 3 => s.putHold v
  | 0x2301, 1 => s.putMode v
  | 0x2301, 2 => s.putMhz v
  | 0x2301, 3 => s.putBoost v
  | _, _ => s.deny stAccess

/-- Fabric objects (08 Table 8.13, 09 Tables 9.8, 9.10, 9.15). -/
def State.putFabric (s : State) (index sub v : Nat) : WriteOut :=
  match index, sub with
  | 0x4010, 1 => s.wTimeRole v
  | 0x4020, 5 => s.wAcceptSwap v
  | 0x4200, 1 => ({ s with fab := { s.fab with shadowPlan := v } }).done
  | 0x4200, 2 => s.wRouteCommit v
  | 0x4300, 1 => ({ s with sched := { s.sched with shadowId := BitVec.ofNat 64 v } }).done
  | 0x4300, 2 => if 1 ≤ v ∧ v ≤ 4096 then ({ s with sched := { s.sched with slots := v } }).done else s.deny stInvalid
  | 0x4300, 3 => ({ s with sched := { s.sched with start := BitVec.ofNat 64 v } }).done
  | 0x4300, 4 => s.wSchedCommit v
  | 0x4400, 1 => if v ≤ 1 then ({ s with cong := { s.cong with enable := v } }).done else s.deny stInvalid
  | _, _ => s.deny stAccess

/-- ASYMMETRY_NS, an I32, and MODULE_NS, 0-20,000, of a site port; MODULE_NS serves from the next training (10 R485). -/
def State.putSitePort (s : State) (index sub v : Nat) : WriteOut :=
  let p := 44 + (index - 0x4501)
  let signed : Int := if v < 0x80000000 then v else (v : Int) - 4294967296
  if sub = 4 then ((s.modSitePort p (fun x => { x with asymmetry := signed })).storeValue index 4).done
  else if 20000 < v then s.deny stInvalid
  else ((s.modSitePort p (fun x => { x with moduleNext := v })).storeValue index 5).done

/-- RETIRE_REQUEST of a fitted stack (07 Table 7.4). -/
def State.putRetire (s : State) (index v : Nat) : WriteOut :=
  let n := index - 0x5010
  if s.org.record.hbmFitted.getLsbD n then
    ((s.modStack n (fun x => { x with retireRequest := BitVec.ofNat 32 v })).storeValue index 4).done
  else s.deny stInvalid

/-- The release offset, 0-31 us (06 R323). -/
def State.putOffset (s : State) (v : Nat) : WriteOut :=
  if v ≤ 31 then ({ s with barriers := { s.barriers with releaseOffset := v } }).done else s.deny stInvalid

def State.putMedia (s : State) (v : Nat) : WriteOut :=
  if v ≤ 3 then (({ s with oap := { s.oap with media := BitVec.ofNat 8 v } }).storeValue 0x1101 1).done else s.deny stInvalid

def State.putFetch (s : State) (v : Nat) : WriteOut :=
  if v ≤ 1 then (({ s with fw := { s.fw with fabricFetch := v } }).storeValue 0x7010 2).done else s.deny stInvalid

def State.putControlOwner (s : State) (v : Nat) : WriteOut :=
  if v ≤ 1 then (({ s with counters := { s.counters with controlOwner := v } }).storeValue 0xA001 1).done
  else s.deny stInvalid

/-- Sub-entries with numbers outside the power, fabric, site and stack objects. -/
def State.putOther (s : State) (role : Role) (index sub v : Nat) : WriteOut :=
  match index, sub with
  | 0x1101, 1 => s.putMedia v
  | 0x1120, 2 => s.wClose v
  | 0x1201, 1 => s.wJobId v
  | 0x1201, 2 => s.wJobCommand role v
  | 0x3001, 8 => s.wTripClear v
  | 0x3002, 5 => s.wClearFaults v
  | 0x6010, 1 => s.putOffset v
  | 0x7010, 2 => s.putFetch v
  | 0x7201, 1 => s.wLocked v
  | 0x8001, 4 => s.wReplaceClear v
  | 0x8010, 1 => s.wWindow v
  | 0x8030, 6 => s.wLadderRequest role v
  | 0x8040, 4 => s.wRelease v
  | 0x9001, 1 => s.wLocate v
  | 0x9003, 4 => s.wMainRetry v
  | 0xA001, 1 => s.putControlOwner v
  | _, _ => s.deny stAccess

def State.putNum (s : State) (role : Role) (index sub v : Nat) : WriteOut :=
  if inRun index 0x2000 0x400 then s.putPower index sub v
  else if inRun index 0x4000 0x500 then s.putFabric index sub v
  else if inRun index 0x4501 4 then s.putSitePort index sub v
  else if inRun index 0x5010 8 then s.putRetire index v
  else s.putOther role index sub v

/-! ## BLOBs -/

/-- The role that an anchor's sub-index grants. -/
def anchorRole (sub : Nat) : Role :=
  match sub with
  | 1 => .owner
  | 2 => .rack
  | 3 => .host
  | _ => .observer

def anchorSub : Role → Nat
  | .owner => 1
  | .rack => 2
  | .host => 3
  | .observer => 4

def OapSt.anchor (o : OapSt) : Role → List Byte
  | .owner => o.anchorOwner
  | .rack => o.anchorRack
  | .host => o.anchorHost
  | .observer => o.anchorObserver

def OapSt.setAnchor (o : OapSt) (r : Role) (v : List Byte) : OapSt :=
  match r with
  | .owner => { o with anchorOwner := v }
  | .rack => { o with anchorRack := v }
  | .host => { o with anchorHost := v }
  | .observer => { o with anchorObserver := v }

/-- An anchor: a change closes every session whose role it grants, but the writer's (15 R664). -/
def State.putAnchor (s : State) (sid : Nat) (sub : Nat) (v : List Byte) : WriteOut :=
  let r := anchorRole sub
  let o := s.oap
  let keep (x : Session) : Bool := decide (x.role ≠ r) || decide (x.id = sid)
  let o1 := if o.anchor r = v then o else { o.setAnchor r v with sessions := o.sessions.filter keep }
  (({ s with oap := o1 }).storeValue 0x1103 sub).done

def State.putServer (s : State) (v : List Byte) : WriteOut :=
  (({ s with fw := { s.fw with server := v } }).storeValue 0x7010 1).done

/-- The one length that a BLOB's table gives it. -/
def blobLength (index sub : Nat) : Option Nat :=
  match index, sub with
  | 0x1120, 1 => some 48
  | 0x1120, 3 => some 32
  | 0x7010, 1 => some 18
  | 0x7101, 1 => some 8
  | 0x7301, 2 => some 32
  | _, _ => if inRun index 0x4201 64 then some 2048 else none

def State.putBlob (s : State) (sid : Nat) (index sub : Nat) (v : List Byte) : WriteOut :=
  match index, sub with
  | 0x1103, _ => s.putAnchor sid sub v
  | 0x1120, 1 => s.wConnect v
  | 0x1120, 3 => s.wKey v
  | 0x4020, 1 => s.wPlan v
  | 0x4020, 2 => s.wSigner v
  | 0x7010, 1 => s.putServer v
  | 0x7101, 1 => s.wUpdate v
  | 0x7201, 3 => s.wClearToken v
  | 0x7301, 2 => s.wNonce sid v
  | 0xA001, 2 => s.wConfig v
  | _, _ =>
    if inRun index 0x4201 64 then s.wRouteBlock (index - 0x4201) v
    else if inRun index 0x4301 48 then s.wSchedTable (index - 0x4301) v
    else s.deny stAccess

/-! ## One write -/

/-- Whether a value's length fits its type and its table. -/
def lengthFits (e : SubEntry) (index sub : Nat) (v : List Byte) : Bool :=
  match e.ty.size with
  | some n => decide (v.length = n)
  | none => match blobLength index sub with
    | some n => decide (v.length = n)
    | none => decide (v.length < 0x1000000)

/-- The access and role checks that precede a write (15 R646, Table 15.9). -/
def State.writeRefusal (s : State) (sid : Nat) (role : Role) (index sub : Nat) : Except Nat SubEntry :=
  match s.subEntry sid index sub with
  | .error c => .error c
  | .ok e => if e.acc = .ro then .error stAccess else if !e.roles.contains role then .error stRole else .ok e

/-- Performs a write whose value is whole. -/
def State.performWrite (s : State) (sid : Nat) (role : Role) (index sub : Nat) (v : List Byte) : WriteOut :=
  match s.writeRefusal sid role index sub with
  | .error c => s.deny c
  | .ok e =>
    if !lengthFits e index sub v then s.deny stLength
    else if e.ty.size.isSome then s.putNum role index sub (leValue v)
    else s.putBlob sid index sub v

/-! ## Writes with a row of their own -/

/-- Whether a standby answers with BUSY while no controller is active (15 R633). -/
def State.standbyAnswers (s : State) : Bool := !s.rindActive && s.rind.standby.isSome

/-- The answer of a write with a row of its own: session and REQ_ID are not the command's, and stand as 0. -/
def State.answered (s : State) (a : Ans) : State :=
  { s with oap := { s.oap with lastAnswers :=
      [{ session := 0, reqId := 0, op := 0x82, status := a.status, more := false, body := a.body }] } }

/-- A session of a role is open and a MGMT port is up: nothing else reaches the object dictionary (00 R1, R6; 15 R650, R652). -/
def State.carries (s : State) (role : Role) : Bool :=
  (s.oap.portA.up || s.oap.portB.up) && s.oap.sessions.any (fun x => decide (x.role = role))

/-- Performs such a write, or answers as 15 R632 and R633 have it while no controller is active. -/
def State.rowWrite (s : State) (sid : Nat) (role : Role) (index sub : Nat) (v : List Byte) : State :=
  if !s.carries role then s
  else if s.rindActive then
    let o := s.performWrite sid role index sub v
    o.2.answered o.1
  else if s.standbyAnswers then s.answered { status := stBusy, body := leBytes 2 10 }
  else s

def execPlanWrite (role : Role) (v : List Byte) (s : State) : Out := .next (s.rowWrite 0 role 0x4020 1 v)
def execSignerWrite (role : Role) (v : List Byte) (s : State) : Out := .next (s.rowWrite 0 role 0x4020 2 v)
def execAcceptSwap (role : Role) (v : BitVec 16) (s : State) : Out := .next (s.rowWrite 0 role 0x4020 5 (leBytes 2 v.toNat))
def execRouteBlockWrite (role : Role) (b : BitVec 6) (v : List Byte) (s : State) : Out :=
  .next (s.rowWrite 0 role (0x4201 + b.toNat) 1 v)
def execRouteCommit (role : Role) (v : BitVec 8) (s : State) : Out := .next (s.rowWrite 0 role 0x4200 2 (leBytes 1 v.toNat))
def execScheduleCommit (role : Role) (v : BitVec 8) (s : State) : Out :=
  .next (s.rowWrite 0 role 0x4300 4 (leBytes 1 v.toNat))

/-- The Rack role writes the Rack cap, any other role's write goes to the Host cap. -/
def execCapWrite (role : Role) (v : BitVec 32) (s : State) : Out :=
  .next (s.rowWrite 0 role (if role = .rack then 0x2001 else 0x2002) 1 (leBytes 4 v.toNat))
def execCapWindowWrite (role : Role) (v : BitVec 8) (s : State) : Out :=
  .next (s.rowWrite 0 role 0x2001 2 (leBytes 1 v.toNat))
def execRackOrderWrite (role : Role) (v : BitVec 8) (s : State) : Out :=
  .next (s.rowWrite 0 role 0x2020 1 (leBytes 1 v.toNat))
def execHostOrderWrite (role : Role) (v : BitVec 8) (s : State) : Out :=
  .next (s.rowWrite 0 role 0x2020 2 (leBytes 1 v.toNat))
def execHoldWrite (role : Role) (v : BitVec 8) (s : State) : Out := .next (s.rowWrite 0 role 0x2020 3 (leBytes 1 v.toNat))

/-- `mhz` selects FIXED_MHZ, else MODE takes the low byte. -/
def execFrequencyModeWrite (role : Role) (mhz : Bool) (v : BitVec 16) (s : State) : Out :=
  .next (if mhz then s.rowWrite 0 role 0x2301 2 (leBytes 2 v.toNat) else s.rowWrite 0 role 0x2301 1 (leBytes 1 v.toNat))
def execReleaseOffsetWrite (role : Role) (v : BitVec 8) (s : State) : Out :=
  .next (s.rowWrite 0 role 0x6010 1 (leBytes 1 v.toNat))
def execTripClear (role : Role) (v : BitVec 8) (s : State) : Out := .next (s.rowWrite 0 role 0x3001 8 (leBytes 1 v.toNat))
def execClearFaults (role : Role) (v : BitVec 8) (s : State) : Out := .next (s.rowWrite 0 role 0x3002 5 (leBytes 1 v.toNat))
def execLocateWrite (role : Role) (v : BitVec 8) (s : State) : Out := .next (s.rowWrite 0 role 0x9001 1 (leBytes 1 v.toNat))
def execMainRetry (role : Role) (v : BitVec 8) (s : State) : Out := .next (s.rowWrite 0 role 0x9003 4 (leBytes 1 v.toNat))
def execJobStart (role : Role) (s : State) : Out := .next (s.rowWrite 0 role 0x1201 2 [0x01])
def execJobStop (role : Role) (s : State) : Out := .next (s.rowWrite 0 role 0x1201 2 [0x02])
def execJobAbort (role : Role) (s : State) : Out := .next (s.rowWrite 0 role 0x1201 2 [0x03])
def execRdmaConnect (role : Role) (v : List Byte) (s : State) : Out := .next (s.rowWrite 0 role 0x1120 1 v)
def execRdmaClose (role : Role) (v : BitVec 32) (s : State) : Out := .next (s.rowWrite 0 role 0x1120 2 (leBytes 4 v.toNat))
def execKeyWrite (role : Role) (v : List Byte) (s : State) : Out := .next (s.rowWrite 0 role 0x1120 3 v)
def execWindowMsWrite (role : Role) (v : BitVec 32) (s : State) : Out :=
  .next (s.rowWrite 0 role 0x8010 1 (leBytes 4 v.toNat))
def execReplacementClear (role : Role) (v : BitVec 32) (s : State) : Out :=
  .next (s.rowWrite 0 role 0x8001 4 (leBytes 4 v.toNat))
def execLadderRequest (role : Role) (v : BitVec 32) (s : State) : Out :=
  .next (s.rowWrite 0 role 0x8030 6 (leBytes 4 v.toNat))
def execDumpRelease (role : Role) (v : BitVec 8) (s : State) : Out := .next (s.rowWrite 0 role 0x8040 4 (leBytes 1 v.toNat))
def execUpdateOpen (role : Role) (type source : BitVec 8) (stage : BitVec 32) (s : State) : Out :=
  .next (s.rowWrite 0 role 0x7101 1 ([0x01, type, source, 0x00] ++ leBytes 4 stage.toNat))
def execUpdateAbort (role : Role) (s : State) : Out := .next (s.rowWrite 0 role 0x7101 1 [0x02, 0, 0, 0, 0, 0, 0, 0])
def execOwnerLockSet (role : Role) (v : BitVec 8) (s : State) : Out := .next (s.rowWrite 0 role 0x7201 1 (leBytes 1 v.toNat))
def execClearToken (role : Role) (v : List Byte) (s : State) : Out := .next (s.rowWrite 0 role 0x7201 3 v)
def execUnitCountersConfig (role : Role) (v : List Byte) (s : State) : Out := .next (s.rowWrite 0 role 0xA001 2 v)

/-- A session's write, under the role it holds; of a session that is not open nothing comes. -/
def State.sessionWrite (s : State) (sid index sub : Nat) (v : List Byte) : State :=
  match s.oap.sessions.find? (fun x => decide (x.id = sid)) with
  | none => s
  | some x => s.rowWrite sid x.role index sub v

def execAttestationNonce (sid : Nat) (v : List Byte) (s : State) : Out := .next (s.sessionWrite sid 0x7301 2 v)
def execAnchorWrite (sid : Nat) (which : Role) (v : List Byte) (s : State) : Out :=
  .next (s.sessionWrite sid 0x1103 (anchorSub which) v)

end Sys2Proof.Machine
end

