-- ==== Sys2Proof/Machine/Oap.lean ====
section
/-! DEFINITION. The Object Access Protocol (15 R649-R662): sessions, requests, the management tick, and EVENTs. -/
namespace Sys2Proof.Machine

/-! ## Sessions (R650-R654) -/

def State.session (s : State) (sid : Nat) : Option Session := s.oap.sessions.find? (fun x => decide (x.id = sid))

def State.modSession (s : State) (sid : Nat) (f : Session → Session) : State :=
  { s with oap := { s.oap with sessions := mapIf (fun x => decide (x.id = sid)) f s.oap.sessions } }

/-- The role that a certificate whose signatures verify is granted: the one it names, when it chains to that role's anchor, or
Owner on the commissioning path of R654. -/
def State.grantedRole (s : State) (c : ClientCert) (linkLocal : Bool) : Option Role :=
  let chained (r : Role) : Bool := !(s.oap.anchor r).isEmpty && decide (c.chainsTo = s.oap.anchor r)
  let commissioning := s.oap.anchorOwner.isEmpty && linkLocal && !s.oap.sessions.any (fun x => decide (x.role = .owner))
  match c.role with
  | some r => if chained r then some r else if commissioning then some .owner else none
  | none => if commissioning then some .owner else none

def freshSession (id : Nat) (r : Role) (p : MgmtPort) (cid : BitVec 64) (now : Nat) : Session :=
  { id := id, role := r, port := p, cid := cid, opened := now, lastRecord := now, replies := [], subs := [], nextSub := 1,
    events := [], eventSeq := 0, resync := false, parts := [], sendSeq := 0, keyEpoch := 0, nonce := [], report := [] }

/-- A handshake that succeeds opens the next session; a further one past 32 sessions, or one that fails, opens none. -/
def execOapHandshake (p : MgmtPort) (cid : BitVec 64) (cert : ClientCert) (linkLocal : Bool) (s : State) : Out :=
  if !s.rindActive || !(s.mgmtPort p).up || !cert.ed25519Ok || !cert.mldsaOk || decide (32 ≤ s.oap.sessions.length) then .next s
  else
    match s.grantedRole cert linkLocal with
    | none => .next s
    | some r =>
      let id := s.oap.nextSession + 1
      .next { s with oap := { s.oap with nextSession := id,
                                         sessions := s.oap.sessions ++ [freshSession id r p cid s.now] } }

/-- A session with no valid record for 60 s is closed. -/
def execSessionIdleTimeout (sid : Nat) (s : State) : Out :=
  if s.rindActive then
    .next { s with oap := { s.oap with sessions := s.oap.sessions.filter (fun x =>
      decide (x.id ≠ sid) || decide (s.now < x.lastRecord + 60000000000)) } }
  else .next s

/-! ## Requests (R652, R660) -/

/-- A valid record of an open session is accepted on either port, moves the session to it, and waits for the end of the tick.
Nothing takes it while neither a controller nor a standby answers (R632, R633). -/
def State.request (s : State) (sid : Nat) (p : MgmtPort) (req : BitVec 32) (op : OapOp) : State :=
  if (s.session sid).isNone || !(s.mgmtPort p).up || (!s.rindActive && !s.standbyAnswers) then s
  else
    let s1 := s.modSession sid (fun x => { x with port := p, lastRecord := s.now })
    let r : OapReq := { session := sid, port := p, reqId := req, at' := s.now, op := op }
    { s1 with oap := { s1.oap with requests := s1.oap.requests ++ [r] } }

def execOapRead (sid : Nat) (p : MgmtPort) (req : BitVec 32) (index : BitVec 16) (sub : BitVec 8) (off : BitVec 32)
    (s : State) : Out := .next (s.request sid p req (.read index.toNat sub.toNat off.toNat))

def execOapWrite (sid : Nat) (p : MgmtPort) (req : BitVec 32) (index : BitVec 16) (sub : BitVec 8) (off : BitVec 32)
    (body : List Byte) (more : Bool) (s : State) : Out :=
  .next (s.request sid p req (.write index.toNat sub.toNat off.toNat body more))

def execReadMulti (sid : Nat) (p : MgmtPort) (req : BitVec 32) (items : List ReadItem) (s : State) : Out :=
  .next (s.request sid p req (.readMulti items))

def execSubscribe (sid : Nat) (p : MgmtPort) (req : BitVec 32) (index : BitVec 16) (sub : BitVec 8) (interval : BitVec 32)
    (s : State) : Out := .next (s.request sid p req (.subscribe index.toNat sub.toNat interval.toNat))

def execSubscribeCancel (sid : Nat) (p : MgmtPort) (req : BitVec 32) (subId : BitVec 32) (s : State) : Out :=
  .next (s.request sid p req (.cancel subId.toNat))

/-! ## READ and READ_MULTI (R656, Table 15.8) -/

/-- The most bytes of a value that one READ returns. -/
def maxValue : Nat := 1136

/-- STATUS, MORE and body. OFFSET serves BLOB and STR alone. -/
def State.oapRead (s : State) (sid index sub off : Nat) : Nat × Bool × List Byte :=
  match s.subEntry sid index sub with
  | .error c => (c, false, [])
  | .ok e =>
    if e.acc = .wo then (stAccess, false, [])
    else if e.ty.size.isSome && decide (off ≠ 0) then (stMalformed, false, [])
    else (stOk, decide (off + maxValue < e.val.length), (e.val.drop off).take maxValue)

/-- One item: STATUS, type code, length, and the value padded to 4 bytes. -/
def State.readItem (s : State) (sid : Nat) (i : ReadItem) : List Byte :=
  let item (status : Nat) (ty : Byte) (v : List Byte) : List Byte :=
    leBytes 1 status ++ [ty] ++ leBytes 2 v.length ++ v ++ List.replicate ((4 - v.length % 4) % 4) 0
  match s.subEntry sid i.index i.sub with
  | .error c => item c 0 []
  | .ok e =>
    let ty := Config.typeCode e.ty.place
    if e.acc = .wo then item stAccess ty []
    else if 64 < e.val.length then item stTooLarge ty []
    else item stOk ty e.val

def State.oapReadMulti (s : State) (sid : Nat) (items : List ReadItem) : Nat × List Byte :=
  let body := items.flatMap (s.readItem sid)
  if items.isEmpty || decide (64 < items.length) then (stLength, [])
  else if maxValue < body.length then (stTooLarge, [])
  else (stOk, body)

/-! ## WRITE (R657) -/

/-- The BLOB that a part of it continues or ends, and what is kept of it until its last part; none where the part comes out
of order, late, or for a type that has no parts. `e` is the time and bytes of the earlier parts. -/
def joinPart (e : Option (Nat × List Byte)) (off at' : Nat) (body : List Byte) : Option (Nat × List Byte) :=
  if off = 0 then some (at', body)
  else match e with
    | none => none
    | some (t, bs) => if off = bs.length ∧ at' < t + 1000000000 then some (t, bs ++ body) else none

def Session.partOf (x : Session) (index sub : Nat) : Option (Nat × List Byte) :=
  (x.parts.find? (fun p => decide (p.index = index) && decide (p.sub = sub))).map (fun p => (p.since, p.bytes))

/-- Drops what is held of a sub-entry's BLOB, and holds `p` instead. -/
def Session.setPart (x : Session) (index sub : Nat) (p : Option (Nat × List Byte)) : Session :=
  let others := x.parts.filter (fun q => decide (q.index ≠ index) || decide (q.sub ≠ sub))
  match p with
  | none => { x with parts := others }
  | some (t, bs) => { x with parts := others ++ [{ index := index, sub := sub, bytes := bs, since := t }] }

/-- A write that keeps no part: of a number, or of a whole value. -/
def State.oapWrite (s : State) (x : Session) (r : OapReq) (index sub off : Nat) (body : List Byte) (more : Bool) : WriteOut :=
  let s1 := s.modSession x.id (fun y => y.setPart index sub none)
  match s.writeRefusal x.id x.role index sub with
  | .error c => s1.deny c
  | .ok e =>
    if e.ty.size.isSome then
      if off ≠ 0 ∨ more = true then s1.deny stMalformed else s1.performWrite x.id x.role index sub body
    else
      match joinPart (x.partOf index sub) off r.at' body with
      | none => s1.deny stMalformed
      | some (t, bs) =>
        if more then (s.modSession x.id (fun y => y.setPart index sub (some (t, bs)))).done
        else s1.performWrite x.id x.role index sub bs

/-! ## SUBSCRIBE (R662) -/

def State.oapSubscribe (s : State) (x : Session) (index sub interval : Nat) : WriteOut :=
  match s.subEntry x.id index sub with
  | .error c => s.deny c
  | .ok _ =>
    if 128 ≤ x.subs.length then s.deny stLimit
    else
      let u : OapSub := { id := x.nextSub, index := index, sub := sub, interval := interval, lastSent := none, due := false }
      ({ status := stOk, body := leBytes 4 u.id },
        s.modSession x.id (fun y => { y with subs := y.subs ++ [u], nextSub := y.nextSub + 1 }))

def State.oapCancel (s : State) (x : Session) (id : Nat) : WriteOut :=
  if x.subs.any (fun u => decide (u.id = id)) then
    ({ status := stOk, body := leBytes 4 id },
      s.modSession x.id (fun y => { y with subs := y.subs.filter (fun u => decide (u.id ≠ id)) }))
  else s.deny stInvalid

/-! ## The tick (R658, R660, R661) -/

def roleRank : Role → Nat
  | .rack => 0
  | .owner => 1
  | .host => 2
  | .observer => 3

/-- A write of the present tick that stands: index, sub-index, role, port, session, value. -/
structure Claim where
  index : Nat
  sub : Nat
  role : Role
  port : MgmtPort
  session : Nat
  value : List Byte
deriving DecidableEq, Repr

def OapOp.code : OapOp → Nat
  | .read _ _ _ => 1
  | .write _ _ _ _ _ => 2
  | .readMulti _ => 3
  | .subscribe _ _ _ => 4
  | .cancel _ => 4

/-- The claim that a later write of the sub-entry meets: a session's later parts of one BLOB do not meet its first, and each
session has a NONCE of its own (17 R761). -/
def claimBefore (cs : List Claim) (sid index sub off : Nat) : Option Claim :=
  cs.find? (fun c => decide (c.index = index) && decide (c.sub = sub) && !(decide (c.session = sid) && decide (off ≠ 0)) &&
    !(decide (index = 0x7301) && decide (c.session ≠ sid)))

def State.conflict (s : State) (c : Claim) (x : Session) (p : MgmtPort) (v : List Byte) : State :=
  let k : Conflict := { time := s.stamp, index := c.index, sub := c.sub, role1 := c.role, port1 := c.port, role2 := x.role,
                        port2 := p, value1 := c.value.take 4, value2 := v.take 4 }
  { s with oap := { s.oap with conflicts := s.oap.conflicts + 1, conflictLog := pushLast 16 s.oap.conflictLog k } }

/-- A write within the tick: refused ones claim nothing. -/
def State.tickWrite (s : State) (cs : List Claim) (x : Session) (r : OapReq) (index sub off : Nat) (body : List Byte)
    (more : Bool) : WriteOut × List Claim :=
  match s.writeRefusal x.id x.role index sub with
  | .error c => (s.deny c, cs)
  | .ok _ =>
    match claimBefore cs x.id index sub off with
    | some c => ((s.conflict c x r.port body).deny stSuperseded, cs)
    | none =>
      let new : Claim := { index := index, sub := sub, role := x.role, port := r.port, session := x.id, value := body }
      (s.oapWrite x r index sub off body more, cs ++ [new])

/-- Performs one request: its answer, the state, the claims. -/
def State.performReq (s : State) (cs : List Claim) (x : Session) (r : OapReq) : (Ans × Bool) × State × List Claim :=
  match r.op with
  | .read i sub off => let a := s.oapRead x.id i sub off; (({ status := a.1, body := a.2.2 }, a.2.1), s, cs)
  | .readMulti items => let a := s.oapReadMulti x.id items; (({ status := a.1, body := a.2 }, false), s, cs)
  | .write i sub off body more => let o := s.tickWrite cs x r i sub off body more; ((o.1.1, false), o.1.2, o.2)
  | .subscribe i sub iv => let o := s.oapSubscribe x i sub iv; ((o.1, false), o.2, cs)
  | .cancel id => let o := s.oapCancel x id; ((o.1, false), o.2, cs)

/-- Sends an answer: it is kept for its REQ_ID among the last 64, and takes a record of the session. -/
def State.sendAnswer (s : State) (a : OapAnswer) : State :=
  let keep (x : Session) : List OapAnswer :=
    if x.replies.any (fun b => b.reqId == a.reqId) then x.replies else pushLast 64 x.replies a
  let s1 := s.modSession a.session (fun x => { x with replies := keep x, sendSeq := x.sendSeq + 1 })
  { s1 with oap := { s1.oap with lastAnswers := s1.oap.lastAnswers ++ [a] } }

/-- One request in its turn: BUSY while the standby answers; a kept reply again; else it is performed. A session closed
before its turn gets no answer. -/
def State.turn (s : State) (cs : List Claim) (r : OapReq) : State × List Claim :=
  match s.session r.session with
  | none => (s, cs)
  | some x =>
    let answer (st : Nat) (more : Bool) (body : List Byte) : OapAnswer :=
      { session := x.id, reqId := r.reqId, op := 0x80 + r.op.code, status := st, more := more, body := body }
    if !s.rindActive then (s.sendAnswer (answer stBusy false (leBytes 2 10)), cs)
    else
      match x.replies.find? (fun b => b.reqId == r.reqId) with
      | some b => (s.sendAnswer b, cs)
      | none =>
        let o := s.performReq cs x r
        (o.2.1.sendAnswer (answer o.1.1.status o.1.2 o.1.1.body), o.2.2)

def State.turns (s : State) (cs : List Claim) : List OapReq → State
  | [] => s
  | r :: rs => let o := s.turn cs r; State.turns o.1 o.2 rs

/-- The requests of one role and port, in order of arrival. -/
def State.ofRank (s : State) (rank port : Nat) : List OapReq :=
  s.oap.requests.filter (fun r => decide (portBit r.port = port) &&
    (match s.session r.session with | some x => decide (roleRank x.role = rank) | none => false))

/-- The order of R660. -/
def State.tickOrder (s : State) : List OapReq :=
  [0, 1, 2, 3].flatMap (fun rank => [0, 1].flatMap (fun port => s.ofRank rank port))

/-! ## EVENTs (R662) -/

/-- The value that an EVENT carries: a sub-entry's, or for sub-index 0x00 those of every readable sub-entry in order, as far
as one message holds them. -/
def State.eventValue (s : State) (sid index sub : Nat) : List Byte :=
  let all : List Byte :=
    if sub = 0 then ((s.object sid index).getD []).flatMap (fun e => e.val)
    else match s.subEntry sid index sub with
      | .ok e => e.val
      | .error _ => []
  all.take (maxValue - 12)

/-- Queues one EVENT: when the queue holds 256, the oldest is dropped and the next carries RESYNC. -/
def State.pushEvent (s : State) (sid : Nat) (u : OapSub) : State :=
  let v := s.eventValue sid u.index u.sub
  s.modSession sid (fun x =>
    let seq := x.eventSeq + 1
    let e : OapEvent := { seq := seq, resync := x.resync, subId := u.id, time := s.stamp, value := v }
    let sent : List OapSub := x.subs.map (fun w => if w.id = u.id then { w with due := false, lastSent := some s.now } else w)
    { x with eventSeq := seq, subs := sent, sendSeq := x.sendSeq + 1, events := pushLast 256 x.events e,
             resync := decide (256 ≤ x.events.length) })

def OapSub.free (u : OapSub) (now : Nat) : Bool :=
  match u.lastSent with
  | none => true
  | some t => decide (t + 1000000 * u.interval ≤ now)

/-- One change of an object reaches one subscription: an EVENT at once, or later, at most one for each interval. -/
def State.changeFor (s : State) (sid index : Nat) (id : Nat) : State :=
  match (s.session sid).bind (fun x => x.subs.find? (fun u => decide (u.id = id))) with
  | none => s
  | some u =>
    if u.index ≠ index then s
    else if u.interval = 0 || u.free s.now then s.pushEvent sid u
    else s.modSession sid (fun x => { x with subs := mapIf (fun w => decide (w.id = id)) (fun w => { w with due := true }) x.subs })

/-- Every subscription: session and SUB_ID. -/
def State.allSubs (s : State) : List (Nat × OapSub) := s.oap.sessions.flatMap (fun x => x.subs.map (fun u => (x.id, u)))

/-- The changes since the last tick, then the EVENTs whose interval has passed. -/
def State.sendEvents (s : State) : State :=
  let s1 := s.oap.changed.foldl (fun s i => s.allSubs.foldl (fun s e => s.changeFor e.1 i e.2.id) s) s
  let s2 := s1.allSubs.foldl (fun s e => if e.2.due && e.2.free s.now then s.pushEvent e.1 e.2 else s) s1
  { s2 with oap := { s2.oap with changed := [] } }

/-- The queues of EVENTs go out with each tick. -/
def State.flushEvents (s : State) : State :=
  { s with oap := { s.oap with sessions := s.oap.sessions.map (fun x => { x with events := [] }) } }

/-- The tick: what waits is answered in order, EVENTs follow, and a replacement reason that still stands is raised again
(16 R723). -/
def execMgmtTick (s : State) : Out :=
  let rs := s.tickOrder
  let s0 := { s with oap := { s.oap with requests := [], lastAnswers := [] } }
  let s1 := s0.turns [] rs
  if s1.rindActive then .next (s1.flushEvents.reraise.sendEvents) else .next s1

end Sys2Proof.Machine
end

