-- ==== Sys2Proof/Machine/Scalar.lean ====
section
/-! DEFINITION. The meanings of the scalar integer instructions, opcodes 0x01 to 0x09 (02 R790, R81, R798). -/
namespace Sys2Proof.Machine

def execAdd (c : CoreId) (rd rs1 rs2 : Reg) (s : State) : Out := s.opRR c rd rs1 rs2 (fun a b => a + b)
def execSub (c : CoreId) (rd rs1 rs2 : Reg) (s : State) : Out := s.opRR c rd rs1 rs2 (fun a b => a - b)
def execAnd (c : CoreId) (rd rs1 rs2 : Reg) (s : State) : Out := s.opRR c rd rs1 rs2 (fun a b => a &&& b)
def execOr (c : CoreId) (rd rs1 rs2 : Reg) (s : State) : Out := s.opRR c rd rs1 rs2 (fun a b => a ||| b)
def execXor (c : CoreId) (rd rs1 rs2 : Reg) (s : State) : Out := s.opRR c rd rs1 rs2 (fun a b => a ^^^ b)

/-- Shifts take their amount from bits 5:0 of rs2 (R790). -/
def shiftAmount (b : Word) : Nat := (b.extractLsb' 0 6).toNat

def execSll (c : CoreId) (rd rs1 rs2 : Reg) (s : State) : Out := s.opRR c rd rs1 rs2 (fun a b => a <<< shiftAmount b)
def execSrl (c : CoreId) (rd rs1 rs2 : Reg) (s : State) : Out := s.opRR c rd rs1 rs2 (fun a b => a >>> shiftAmount b)
def execSra (c : CoreId) (rd rs1 rs2 : Reg) (s : State) : Out :=
  s.opRR c rd rs1 rs2 (fun a b => a.sshiftRight (shiftAmount b))
def execSlt (c : CoreId) (rd rs1 rs2 : Reg) (s : State) : Out := s.opRR c rd rs1 rs2 (fun a b => boolWord (a.slt b))
def execSltu (c : CoreId) (rd rs1 rs2 : Reg) (s : State) : Out := s.opRR c rd rs1 rs2 (fun a b => boolWord (a.ult b))
def execMul (c : CoreId) (rd rs1 rs2 : Reg) (s : State) : Out := s.opRR c rd rs1 rs2 (fun a b => a * b)

/-- Bits 127:64 of the signed and of the unsigned product (R790). -/
def mulHigh (a b : Word) : Word := BitVec.ofInt 64 (a.toInt * b.toInt / 2 ^ 64)
def mulHighU (a b : Word) : Word := BitVec.ofNat 64 (a.toNat * b.toNat / 2 ^ 64)

def execMulh (c : CoreId) (rd rs1 rs2 : Reg) (s : State) : Out := s.opRR c rd rs1 rs2 mulHigh
def execMulhu (c : CoreId) (rd rs1 rs2 : Reg) (s : State) : Out := s.opRR c rd rs1 rs2 mulHighU

/-- Quotients and remainders with R790's results for division by zero and for -2^63 by -1. -/
def divS (a b : Word) : Word := if b = 0 then BitVec.allOnes 64 else BitVec.ofInt 64 (a.toInt.tdiv b.toInt)
def divU (a b : Word) : Word := if b = 0 then BitVec.allOnes 64 else BitVec.ofNat 64 (a.toNat / b.toNat)
def remS (a b : Word) : Word := if b = 0 then a else BitVec.ofInt 64 (a.toInt.tmod b.toInt)
def remU (a b : Word) : Word := if b = 0 then a else BitVec.ofNat 64 (a.toNat % b.toNat)

def execDiv (c : CoreId) (rd rs1 rs2 : Reg) (s : State) : Out := s.opRR c rd rs1 rs2 divS
def execDivu (c : CoreId) (rd rs1 rs2 : Reg) (s : State) : Out := s.opRR c rd rs1 rs2 divU
def execRem (c : CoreId) (rd rs1 rs2 : Reg) (s : State) : Out := s.opRR c rd rs1 rs2 remS
def execRemu (c : CoreId) (rd rs1 rs2 : Reg) (s : State) : Out := s.opRR c rd rs1 rs2 remU

def execAddi (c : CoreId) (rd rs1 : Reg) (imm : BitVec 16) (s : State) : Out := s.opR c rd rs1 (fun a => a + sext16 imm)
def execAndi (c : CoreId) (rd rs1 : Reg) (imm : BitVec 16) (s : State) : Out :=
  s.opR c rd rs1 (fun a => a &&& sext16 imm)
def execOri (c : CoreId) (rd rs1 : Reg) (imm : BitVec 16) (s : State) : Out :=
  s.opR c rd rs1 (fun a => a ||| sext16 imm)
def execXori (c : CoreId) (rd rs1 : Reg) (imm : BitVec 16) (s : State) : Out :=
  s.opR c rd rs1 (fun a => a ^^^ sext16 imm)
def execSlti (c : CoreId) (rd rs1 : Reg) (imm : BitVec 16) (s : State) : Out :=
  s.opR c rd rs1 (fun a => boolWord (a.slt (sext16 imm)))
def execSlli (c : CoreId) (rd rs1 : Reg) (amt : BitVec 6) (s : State) : Out := s.opR c rd rs1 (fun a => a <<< amt.toNat)
def execSrli (c : CoreId) (rd rs1 : Reg) (amt : BitVec 6) (s : State) : Out := s.opR c rd rs1 (fun a => a >>> amt.toNat)
def execSrai (c : CoreId) (rd rs1 : Reg) (amt : BitVec 6) (s : State) : Out :=
  s.opR c rd rs1 (fun a => a.sshiftRight amt.toNat)

/-- IMM21 x 2^16 and pc + IMM21 x 2^12, IMM21 sign-extended (R79, Table 2.2). -/
def execLui (c : CoreId) (rd : Reg) (imm : BitVec 21) (s : State) : Out := s.opPc c rd (fun _ => sext21 imm <<< 16)
def execAuipc (c : CoreId) (rd : Reg) (imm : BitVec 21) (s : State) : Out :=
  s.opPc c rd (fun pc => pc + sext21 imm <<< 12)

end Sys2Proof.Machine
end

