-- ==== Sys2Proof/Machine/ScalarFp.lean ====
section
/-! DEFINITION. The meanings of the scalar floating-point instructions, opcodes 0x0A and 0x0B (02 R792, R793; 04 R238 to
R240). A .S form reads bits 31:0 of its floating-point operands and writes 0 above its result. -/
namespace Sys2Proof.Machine

def FForm.fmt : FForm → FFmt
  | .s => .fp32
  | .d => .fp64

/-- The code of a floating-point operand in a general register. -/
def FForm.code (f : FForm) (a : Word) : Nat := a.toNat % 2 ^ (FForm.fmt f).width

def FForm.result (f : FForm) (x : Nat) : Word := BitVec.ofNat 64 (x % 2 ^ (FForm.fmt f).width)

/-- Two-operand, one-operand and three-operand arithmetic. -/
def State.opF2 (s : State) (c : CoreId) (f : FForm) (rd rs1 rs2 : Reg) (op : FFmt → Nat → Nat → Nat) : Out :=
  s.opRR c rd rs1 rs2 (fun a b => FForm.result f (op (FForm.fmt f) (FForm.code f a) (FForm.code f b)))

def State.opF3 (s : State) (c : CoreId) (f : FForm) (rd rs1 rs2 rs3 : Reg) (op : FFmt → Nat → Nat → Nat → Nat) : Out :=
  s.opRRR c rd rs1 rs2 rs3 (fun x y z =>
    FForm.result f (op (FForm.fmt f) (FForm.code f x) (FForm.code f y) (FForm.code f z)))

def State.opFCmp (s : State) (c : CoreId) (f : FForm) (rd rs1 rs2 : Reg) (op : FFmt → Nat → Nat → Bool) : Out :=
  s.opRR c rd rs1 rs2 (fun a b => boolWord (op (FForm.fmt f) (FForm.code f a) (FForm.code f b)))

def execFadd (c : CoreId) (f : FForm) (rd rs1 rs2 : Reg) (s : State) : Out := s.opF2 c f rd rs1 rs2 FFmt.addC
def execFsub (c : CoreId) (f : FForm) (rd rs1 rs2 : Reg) (s : State) : Out := s.opF2 c f rd rs1 rs2 FFmt.subC
def execFmul (c : CoreId) (f : FForm) (rd rs1 rs2 : Reg) (s : State) : Out := s.opF2 c f rd rs1 rs2 FFmt.mulC
def execFdiv (c : CoreId) (f : FForm) (rd rs1 rs2 : Reg) (s : State) : Out := s.opF2 c f rd rs1 rs2 FFmt.divC
def execFmin (c : CoreId) (f : FForm) (rd rs1 rs2 : Reg) (s : State) : Out := s.opF2 c f rd rs1 rs2 FFmt.minC
def execFmax (c : CoreId) (f : FForm) (rd rs1 rs2 : Reg) (s : State) : Out := s.opF2 c f rd rs1 rs2 FFmt.maxC

/-- FSQRT reads only rs1; its RS2 field is ignored (R792, R798). -/
def execFsqrt (c : CoreId) (f : FForm) (rd rs1 _rs2 : Reg) (s : State) : Out :=
  s.opR c rd rs1 (fun a => FForm.result f ((FForm.fmt f).sqrtC (FForm.code f a)))

def execFcmpEq (c : CoreId) (f : FForm) (rd rs1 rs2 : Reg) (s : State) : Out := s.opFCmp c f rd rs1 rs2 FFmt.eqC
def execFcmpLt (c : CoreId) (f : FForm) (rd rs1 rs2 : Reg) (s : State) : Out := s.opFCmp c f rd rs1 rs2 FFmt.ltC
def execFcmpLe (c : CoreId) (f : FForm) (rd rs1 rs2 : Reg) (s : State) : Out := s.opFCmp c f rd rs1 rs2 FFmt.leC
def execFcmpUn (c : CoreId) (f : FForm) (rd rs1 rs2 : Reg) (s : State) : Out := s.opFCmp c f rd rs1 rs2 FFmt.unC

/-- FCVT to integers: toward zero, saturating; NaN gives 0, and a negative value gives unsigned 0 (Table 2.15). -/
def execFcvtToSigned (c : CoreId) (f : FForm) (rd rs1 _rs2 : Reg) (s : State) : Out :=
  s.opR c rd rs1 (fun a =>
    BitVec.ofInt 64 (((FForm.fmt f).decode (FForm.code f a)).toIntSat (-(2 ^ 63)) (2 ^ 63 - 1)))
def execFcvtToUnsigned (c : CoreId) (f : FForm) (rd rs1 _rs2 : Reg) (s : State) : Out :=
  s.opR c rd rs1 (fun a => BitVec.ofInt 64 (((FForm.fmt f).decode (FForm.code f a)).toIntSat 0 (2 ^ 64 - 1)))

/-- FCVT from integers, to nearest even. -/
def execFcvtFromSigned (c : CoreId) (f : FForm) (rd rs1 _rs2 : Reg) (s : State) : Out :=
  s.opR c rd rs1 (fun a => FForm.result f ((FForm.fmt f).round .rne (FVal.ofInt a.toInt)).code)
def execFcvtFromUnsigned (c : CoreId) (f : FForm) (rd rs1 _rs2 : Reg) (s : State) : Out :=
  s.opR c rd rs1 (fun a => FForm.result f ((FForm.fmt f).round .rne (FVal.ofInt a.toNat)).code)

/-- FCVT between formats: .S narrows binary64, .D widens binary32 (Table 2.15). -/
def execFcvtBetweenFormats (c : CoreId) (f : FForm) (rd rs1 _rs2 : Reg) (s : State) : Out :=
  s.opR c rd rs1 (fun a => match f with
    | .s => FForm.result .s (FFmt.convert .fp64 .fp32 .rne (FForm.code .d a)).code
    | .d => FForm.result .d (FFmt.convert .fp32 .fp64 .rne (FForm.code .s a)).code)

/-- FMV: the magnitude of rs1 with a sign made from both signs; a NaN in rs1 gives the canonical NaN (R792, 04 R239). -/
def moveSign (t : FFmt) (a b : Nat) (sign : Bool → Bool → Bool) : Nat :=
  if (t.decode a).isNan then t.nan
  else
    let top := 2 ^ (t.ew + t.mw)
    a % top + t.signBit (sign (decide (a / top % 2 = 1)) (decide (b / top % 2 = 1)))

def execFmvSgn (c : CoreId) (f : FForm) (rd rs1 rs2 : Reg) (s : State) : Out :=
  s.opF2 c f rd rs1 rs2 (fun t a b => moveSign t a b (fun _ y => y))
def execFmvNeg (c : CoreId) (f : FForm) (rd rs1 rs2 : Reg) (s : State) : Out :=
  s.opF2 c f rd rs1 rs2 (fun t a b => moveSign t a b (fun _ y => !y))
def execFmvXor (c : CoreId) (f : FForm) (rd rs1 rs2 : Reg) (s : State) : Out :=
  s.opF2 c f rd rs1 rs2 (fun t a b => moveSign t a b (fun x y => x != y))

def execFmadd (c : CoreId) (f : FForm) (rd rs1 rs2 rs3 : Reg) (s : State) : Out := s.opF3 c f rd rs1 rs2 rs3 FFmt.fmaC
def execFmsub (c : CoreId) (f : FForm) (rd rs1 rs2 rs3 : Reg) (s : State) : Out := s.opF3 c f rd rs1 rs2 rs3 FFmt.fmsC

end Sys2Proof.Machine
end

