-- ==== Sys2Proof/Machine/Vector.lean ====
section
/-! DEFINITION. The meanings of the vector instructions, opcodes 0x28, 0x29, 0x2A and 0x2D (02 R794 to R797; 04 R238 to
R246). -/
namespace Sys2Proof.Machine

/-! ## Integer lanes (R794) -/

def State.opVInt (s : State) (c : CoreId) (w : LaneW) (vd vs1 vs2 : Reg) (f : Nat → Nat → Nat → Nat) : Out :=
  s.opVV c vd vs1 vs2 (map2 (laneBits w) (f (laneBits w)))

def execVadd (c : CoreId) (w : LaneW) (vd vs1 vs2 : Reg) (s : State) : Out :=
  s.opVInt c w vd vs1 vs2 (fun _ a b => a + b)
def execVsub (c : CoreId) (w : LaneW) (vd vs1 vs2 : Reg) (s : State) : Out :=
  s.opVInt c w vd vs1 vs2 (fun n a b => a + 2 ^ n - b)
def execVmul (c : CoreId) (w : LaneW) (vd vs1 vs2 : Reg) (s : State) : Out :=
  s.opVInt c w vd vs1 vs2 (fun _ a b => a * b)
def execVmin (c : CoreId) (w : LaneW) (vd vs1 vs2 : Reg) (s : State) : Out :=
  s.opVInt c w vd vs1 vs2 (fun n a b => if laneInt n b < laneInt n a then b else a)
def execVmax (c : CoreId) (w : LaneW) (vd vs1 vs2 : Reg) (s : State) : Out :=
  s.opVInt c w vd vs1 vs2 (fun n a b => if laneInt n a < laneInt n b then b else a)
def execVminu (c : CoreId) (w : LaneW) (vd vs1 vs2 : Reg) (s : State) : Out :=
  s.opVInt c w vd vs1 vs2 (fun _ a b => Nat.min a b)
def execVmaxu (c : CoreId) (w : LaneW) (vd vs1 vs2 : Reg) (s : State) : Out :=
  s.opVInt c w vd vs1 vs2 (fun _ a b => Nat.max a b)

/-- The width has no effect on VAND, VOR and VXOR (R794). -/
def execVand (c : CoreId) (_w : LaneW) (vd vs1 vs2 : Reg) (s : State) : Out := s.opVV c vd vs1 vs2 (fun a b => a &&& b)
def execVor (c : CoreId) (_w : LaneW) (vd vs1 vs2 : Reg) (s : State) : Out := s.opVV c vd vs1 vs2 (fun a b => a ||| b)
def execVxor (c : CoreId) (_w : LaneW) (vd vs1 vs2 : Reg) (s : State) : Out := s.opVV c vd vs1 vs2 (fun a b => a ^^^ b)

/-- Shifts take the low log2(w) bits of the VS2 lane. -/
def execVsll (c : CoreId) (w : LaneW) (vd vs1 vs2 : Reg) (s : State) : Out :=
  s.opVInt c w vd vs1 vs2 (fun n a b => a * 2 ^ (b % n))
def execVsrl (c : CoreId) (w : LaneW) (vd vs1 vs2 : Reg) (s : State) : Out :=
  s.opVInt c w vd vs1 vs2 (fun n a b => a / 2 ^ (b % n))
def execVsra (c : CoreId) (w : LaneW) (vd vs1 vs2 : Reg) (s : State) : Out :=
  s.opVInt c w vd vs1 vs2 (fun n a b => ((BitVec.ofNat n a).sshiftRight (b % n)).toNat)
def execVmla (c : CoreId) (w : LaneW) (vd vs1 vs2 vs3 : Reg) (s : State) : Out :=
  s.opVVV c vd vs1 vs2 vs3 (map3 (laneBits w) (fun a b d => a * b + d))
def execVcmpeq (c : CoreId) (w : LaneW) (vd vs1 vs2 : Reg) (s : State) : Out :=
  s.opVInt c w vd vs1 vs2 (fun n a b => if a = b then 2 ^ n - 1 else 0)
def execVcmplt (c : CoreId) (w : LaneW) (vd vs1 vs2 : Reg) (s : State) : Out :=
  s.opVInt c w vd vs1 vs2 (fun n a b => if laneInt n a < laneInt n b then 2 ^ n - 1 else 0)

/-! ## Floating-point lanes (R795, R796; 04 R238, R241) -/

def LaneF.fmt : LaneF → FFmt
  | .s => .fp32
  | .d => .fp64
  | .bf => .bf16
  | .h => .fp16

/-- An operation on lanes: FP32 and FP64 lanes compute in their own format; BF16 and FP16 lanes widen to FP32, compute
there, and round once more to the lane format (R241; log 11). -/
def laneOp2 (f : LaneF) (op : FFmt → Nat → Nat → Nat) (a b : Nat) : Nat :=
  let t := LaneF.fmt f
  let wide (x : Nat) : Nat := (FFmt.convert t .fp32 .rne x).code
  match f with
  | .s => op .fp32 a b
  | .d => op .fp64 a b
  | _ => (FFmt.convert .fp32 t .rne (op .fp32 (wide a) (wide b))).code

def laneOp3 (f : LaneF) (op : FFmt → Nat → Nat → Nat → Nat) (a b d : Nat) : Nat :=
  let t := LaneF.fmt f
  let wide (x : Nat) : Nat := (FFmt.convert t .fp32 .rne x).code
  match f with
  | .s => op .fp32 a b d
  | .d => op .fp64 a b d
  | _ => (FFmt.convert .fp32 t .rne (op .fp32 (wide a) (wide b) (wide d))).code

def State.opVF2 (s : State) (c : CoreId) (f : LaneF) (vd vs1 vs2 : Reg) (op : FFmt → Nat → Nat → Nat) : Out :=
  s.opVV c vd vs1 vs2 (map2 (LaneF.fmt f).width (laneOp2 f op))

def State.opVFCmp (s : State) (c : CoreId) (f : LaneF) (vd vs1 vs2 : Reg) (op : FFmt → Nat → Nat → Bool) : Out :=
  s.opVV c vd vs1 vs2 (map2 (LaneF.fmt f).width (fun a b =>
    if op (LaneF.fmt f) a b then 2 ^ (LaneF.fmt f).width - 1 else 0))

def execVfadd (c : CoreId) (f : LaneF) (vd vs1 vs2 : Reg) (s : State) : Out := s.opVF2 c f vd vs1 vs2 FFmt.addC
def execVfsub (c : CoreId) (f : LaneF) (vd vs1 vs2 : Reg) (s : State) : Out := s.opVF2 c f vd vs1 vs2 FFmt.subC
def execVfmul (c : CoreId) (f : LaneF) (vd vs1 vs2 : Reg) (s : State) : Out := s.opVF2 c f vd vs1 vs2 FFmt.mulC
def execVfdiv (c : CoreId) (f : LaneF) (vd vs1 vs2 : Reg) (s : State) : Out := s.opVF2 c f vd vs1 vs2 FFmt.divC
def execVfmin (c : CoreId) (f : LaneF) (vd vs1 vs2 : Reg) (s : State) : Out := s.opVF2 c f vd vs1 vs2 FFmt.minC
def execVfmax (c : CoreId) (f : LaneF) (vd vs1 vs2 : Reg) (s : State) : Out := s.opVF2 c f vd vs1 vs2 FFmt.maxC
def execVfsqrt (c : CoreId) (f : LaneF) (vd vs1 : Reg) (s : State) : Out :=
  s.opV c vd vs1 (map1 (LaneF.fmt f).width (fun a => laneOp2 f (fun t x _ => t.sqrtC x) a a))
def execVfcmpeq (c : CoreId) (f : LaneF) (vd vs1 vs2 : Reg) (s : State) : Out := s.opVFCmp c f vd vs1 vs2 FFmt.eqC
def execVfcmplt (c : CoreId) (f : LaneF) (vd vs1 vs2 : Reg) (s : State) : Out := s.opVFCmp c f vd vs1 vs2 FFmt.ltC
def execVfcmple (c : CoreId) (f : LaneF) (vd vs1 vs2 : Reg) (s : State) : Out := s.opVFCmp c f vd vs1 vs2 FFmt.leC

def State.opVF3 (s : State) (c : CoreId) (f : LaneF) (vd vs1 vs2 vs3 : Reg) (op : FFmt → Nat → Nat → Nat → Nat) : Out :=
  s.opVVV c vd vs1 vs2 vs3 (map3 (LaneF.fmt f).width (laneOp3 f op))

def execVfma (c : CoreId) (f : LaneF) (vd vs1 vs2 vs3 : Reg) (s : State) : Out := s.opVF3 c f vd vs1 vs2 vs3 FFmt.fmaC
def execVfms (c : CoreId) (f : LaneF) (vd vs1 vs2 vs3 : Reg) (s : State) : Out := s.opVF3 c f vd vs1 vs2 vs3 FFmt.fmsC
def execVfnma (c : CoreId) (f : LaneF) (vd vs1 vs2 vs3 : Reg) (s : State) : Out := s.opVF3 c f vd vs1 vs2 vs3 FFmt.fnmaC

/-! ## Reductions (R797; 04 R243) -/

/-- One level of the pairwise tree: lane 2i with lane 2i + 1. -/
def pairUp (op : Nat → Nat → Nat) : List Nat → List Nat
  | a :: b :: t => op a b :: pairUp op t
  | l => l

/-- `levels` levels of the tree. -/
def treeReduce (op : Nat → Nat → Nat) : Nat → List Nat → List Nat
  | 0, l => l
  | n + 1, l => treeReduce op n (pairUp op l)

/-- The reduction of `2^levels` lanes of width `w`, in the lowest lane, 0 above. -/
def reduce (w levels : Nat) (op : Nat → Nat → Nat) (a : VWord) : VWord :=
  BitVec.ofNat 512 ((treeReduce op levels ((List.range (2 ^ levels)).map (laneNat a w))).headD 0 % 2 ^ w)

def execVrsumS (c : CoreId) (vd vs1 : Reg) (s : State) : Out := s.opV c vd vs1 (reduce 32 4 FFmt.fp32.addC)
def execVrsumD (c : CoreId) (vd vs1 : Reg) (s : State) : Out := s.opV c vd vs1 (reduce 64 3 FFmt.fp64.addC)
def execVrmaxS (c : CoreId) (vd vs1 : Reg) (s : State) : Out := s.opV c vd vs1 (reduce 32 4 FFmt.fp32.maxC)
def execVrminS (c : CoreId) (vd vs1 : Reg) (s : State) : Out := s.opV c vd vs1 (reduce 32 4 FFmt.fp32.minC)
def execVrmaxD (c : CoreId) (vd vs1 : Reg) (s : State) : Out := s.opV c vd vs1 (reduce 64 3 FFmt.fp64.maxC)
def execVrminD (c : CoreId) (vd vs1 : Reg) (s : State) : Out := s.opV c vd vs1 (reduce 64 3 FFmt.fp64.minC)
def execVrsumW (c : CoreId) (vd vs1 : Reg) (s : State) : Out := s.opV c vd vs1 (reduce 32 4 (fun a b => (a + b) % 2 ^ 32))
def execVrsumL (c : CoreId) (vd vs1 : Reg) (s : State) : Out := s.opV c vd vs1 (reduce 64 3 (fun a b => (a + b) % 2 ^ 64))

/-! ## Permutes and moves (R797, R80) -/

def execVpermB (c : CoreId) (vd vs1 vs2 : Reg) (s : State) : Out :=
  s.opVV c vd vs1 vs2 (fun a b => ofLanes 8 64 (fun i => laneNat a 8 (laneNat b 8 i % 64)))

/-- 64-bit lane (VS3 field mod 8) of VD takes the general register; other lanes stay. -/
def execVinsD (c : CoreId) (vd rs1 vs3 : Reg) (s : State) : Out :=
  s.issue c [.g rs1, .v vd] (fun s =>
    .next (s.modCore c (fun k => (k.setV vd (ofLanes 64 8 (fun i =>
      if i = vs3.toNat % 8 then (k.getG rs1).toNat else laneNat (k.getV vd) 64 i))).retire)))

def execVextD (c : CoreId) (rd vs2 vs3 : Reg) (s : State) : Out :=
  s.issue c [.v vs2, .g rd] (fun s =>
    .next (s.modCore c (fun k => (k.setG rd (BitVec.ofNat 64 (laneNat (k.getV vs2) 64 (vs3.toNat % 8)))).retire)))

def State.opBcast (s : State) (c : CoreId) (vd rs1 : Reg) (w : Nat) : Out :=
  s.issue c [.g rs1, .v vd] (fun s =>
    .next (s.modCore c (fun k => (k.setV vd (ofLanes w (512 / w) (fun _ => (k.getG rs1).toNat))).retire)))

def execVbcastD (c : CoreId) (vd rs1 : Reg) (s : State) : Out := s.opBcast c vd rs1 64
def execVbcastW (c : CoreId) (vd rs1 : Reg) (s : State) : Out := s.opBcast c vd rs1 32

/-! ## Conversions (R797; 04 R242, R244-R246) -/

/-- `n` lanes of one format to as many of another, packed from bit 0; the rest is 0. -/
def convertLanes (src dst : FFmt) (n : Nat) (r : Rnd) (a : VWord) : VWord :=
  ofLanes dst.width n (fun i => (FFmt.convert src dst r (laneNat a src.width i)).code)

/-- VFUNC bit 0 of the narrowing forms: toward zero. -/
def tzRound (tz : Bool) : Rnd := if tz then .rtz else .rne

def execVcvtBfS (c : CoreId) (tz : Bool) (vd vs1 : Reg) (s : State) : Out :=
  s.opV c vd vs1 (convertLanes .fp32 .bf16 16 (tzRound tz))
def execVcvtHS (c : CoreId) (tz : Bool) (vd vs1 : Reg) (s : State) : Out :=
  s.opV c vd vs1 (convertLanes .fp32 .fp16 16 (tzRound tz))
def execVcvtE4S (c : CoreId) (tz : Bool) (vd vs1 : Reg) (s : State) : Out :=
  s.opV c vd vs1 (convertLanes .fp32 .e4m3 16 (tzRound tz))
def execVcvtE5S (c : CoreId) (tz : Bool) (vd vs1 : Reg) (s : State) : Out :=
  s.opV c vd vs1 (convertLanes .fp32 .e5m2 16 (tzRound tz))
def execVcvtWS (c : CoreId) (vd vs1 : Reg) (s : State) : Out :=
  s.opV c vd vs1 (map1 32 (fun a => (BitVec.ofInt 32 ((FFmt.fp32.decode a).toIntSat (-(2 ^ 31)) (2 ^ 31 - 1))).toNat))
def execVcvtLD (c : CoreId) (vd vs1 : Reg) (s : State) : Out :=
  s.opV c vd vs1 (map1 64 (fun a => (BitVec.ofInt 64 ((FFmt.fp64.decode a).toIntSat (-(2 ^ 63)) (2 ^ 63 - 1))).toNat))
def execVcvtSW (c : CoreId) (vd vs1 : Reg) (s : State) : Out :=
  s.opV c vd vs1 (map1 32 (fun a => (FFmt.fp32.round .rne (FVal.ofInt (laneInt 32 a))).code))
def execVcvtDL (c : CoreId) (vd vs1 : Reg) (s : State) : Out :=
  s.opV c vd vs1 (map1 64 (fun a => (FFmt.fp64.round .rne (FVal.ofInt (laneInt 64 a))).code))
def execVcvtSBf (c : CoreId) (vd vs1 : Reg) (s : State) : Out := s.opV c vd vs1 (convertLanes .bf16 .fp32 16 .rne)
def execVcvtSH (c : CoreId) (vd vs1 : Reg) (s : State) : Out := s.opV c vd vs1 (convertLanes .fp16 .fp32 16 .rne)
def execVcvtDS (c : CoreId) (vd vs1 : Reg) (s : State) : Out := s.opV c vd vs1 (convertLanes .fp32 .fp64 8 .rne)
def execVcvtSD (c : CoreId) (vd vs1 : Reg) (s : State) : Out := s.opV c vd vs1 (convertLanes .fp64 .fp32 8 .rne)

def MxFmt.fmt : MxFmt → FFmt
  | .e2m1 => .e2m1
  | .e3m2 => .e3m2
  | .e2m3 => .e2m3
  | .e4m3 => .e4m3
  | .e5m2 => .e5m2

/-- The exponent of the largest normal value (R245). -/
def MxFmt.emax : MxFmt → Int
  | .e2m1 => 2
  | .e3m2 => 4
  | .e2m3 => 2
  | .e4m3 => 8
  | .e5m2 => 15

/-- Floor of log2 of a nonzero finite magnitude. -/
def FVal.log2 : FVal → Option Int
  | .fin _ m e => if m = 0 then none else some (Nat.log2 m + e)
  | _ => none

def optMax : Option Int → Option Int → Option Int
  | none, y => y
  | x, none => x
  | some a, some b => some (if a < b then b else a)

def FVal.scale : FVal → Int → FVal
  | .fin n m e, k => .fin n m (e + k)
  | v, _ => v

/-- Packs 32 FP32 values into an MX block with its E8M0 scale (R244-R246): scale 0xFF where any value is NaN or infinite,
whose element bits the spec does not state and `free` gives (log 12), 0x00 with zero elements for zeros (each written +0 whatever its sign: DESIGN CHOICE, log 104), otherwise the clamped
scale and the saturated elements. -/
def packMx (f : MxFmt) (free : VWord) (vals : List FVal) : VWord :=
  let t := MxFmt.fmt f
  let b := t.width
  if vals.any (fun v => v.isNan || v.isInf) then
    BitVec.ofNat 512 (free.toNat % 2 ^ (32 * b) + 0xFF * 2 ^ 504)
  else match vals.foldl (fun m v => optMax m v.log2) none with
    | none => 0
    | some top =>
      let e0 : Int := top - MxFmt.emax f
      let e1 : Int := if e0 < -127 then -127 else if 127 < e0 then 127 else e0
      let elems := ofLanes b 32 (fun i => (t.round .rne ((vals.getD i .nan).scale (-e1))).code)
      elems ||| BitVec.ofNat 512 ((e1 + 127).toNat * 2 ^ 504)

/-- VCVT.MX of VS1 and VS1 + 1 with VS1 even; an odd VS1 is an illegal instruction (Table 2.18). -/
def mxResult (k : Core) (f : MxFmt) (free : VWord) (vs1 : Reg) : VWord :=
  let lanes (v : VWord) : List FVal := (List.range 16).map (fun i => FFmt.fp32.decode (laneNat v 32 i))
  packMx f free (lanes (k.getV vs1) ++ lanes (k.getV (vs1 + 1)))

/-- VCVT.MX packs VS1 and VS1 + 1; an odd VS1 is an illegal instruction (Table 2.18). A block that holds a NaN draws a free
value for its element bits (R246; log 12). -/
def execVcvtMx (c : CoreId) (fmt : MxFmt) (vd vs1 : Reg) (s : State) : Out :=
  s.issue c [.v vs1, .v (vs1 + 1), .v vd] (fun s =>
    if vs1.getLsbD 0 then .next (s.illegal c (instrWord (.vcvtMx c fmt vd vs1)))
    else
      let (n, s1) := s.drawFree
      .next (s1.modCore c (fun k => (k.setV vd (mxResult k fmt (Config.freeVec n) vs1)).retire)))

end Sys2Proof.Machine
end

