-- ==== Sys2Proof/Machine/Dispatch.lean ====
section
/-! DEFINITION. The dispatch: one arm for each command, a direct call of its meaning. -/
namespace Sys2Proof.Machine

def exec (i : Instr) (s : State) : Host.Outcome State Fault Refusal :=
  match i with
  | .add c rd rs1 rs2 => Sys2Proof.Machine.execAdd c rd rs1 rs2 s
  | .sub c rd rs1 rs2 => Sys2Proof.Machine.execSub c rd rs1 rs2 s
  | .and c rd rs1 rs2 => Sys2Proof.Machine.execAnd c rd rs1 rs2 s
  | .or c rd rs1 rs2 => Sys2Proof.Machine.execOr c rd rs1 rs2 s
  | .xor c rd rs1 rs2 => Sys2Proof.Machine.execXor c rd rs1 rs2 s
  | .sll c rd rs1 rs2 => Sys2Proof.Machine.execSll c rd rs1 rs2 s
  | .srl c rd rs1 rs2 => Sys2Proof.Machine.execSrl c rd rs1 rs2 s
  | .sra c rd rs1 rs2 => Sys2Proof.Machine.execSra c rd rs1 rs2 s
  | .slt c rd rs1 rs2 => Sys2Proof.Machine.execSlt c rd rs1 rs2 s
  | .sltu c rd rs1 rs2 => Sys2Proof.Machine.execSltu c rd rs1 rs2 s
  | .mul c rd rs1 rs2 => Sys2Proof.Machine.execMul c rd rs1 rs2 s
  | .mulh c rd rs1 rs2 => Sys2Proof.Machine.execMulh c rd rs1 rs2 s
  | .mulhu c rd rs1 rs2 => Sys2Proof.Machine.execMulhu c rd rs1 rs2 s
  | .div c rd rs1 rs2 => Sys2Proof.Machine.execDiv c rd rs1 rs2 s
  | .divu c rd rs1 rs2 => Sys2Proof.Machine.execDivu c rd rs1 rs2 s
  | .rem c rd rs1 rs2 => Sys2Proof.Machine.execRem c rd rs1 rs2 s
  | .remu c rd rs1 rs2 => Sys2Proof.Machine.execRemu c rd rs1 rs2 s
  | .addi c rd rs1 imm => Sys2Proof.Machine.execAddi c rd rs1 imm s
  | .andi c rd rs1 imm => Sys2Proof.Machine.execAndi c rd rs1 imm s
  | .ori c rd rs1 imm => Sys2Proof.Machine.execOri c rd rs1 imm s
  | .xori c rd rs1 imm => Sys2Proof.Machine.execXori c rd rs1 imm s
  | .slti c rd rs1 imm => Sys2Proof.Machine.execSlti c rd rs1 imm s
  | .slli c rd rs1 amt => Sys2Proof.Machine.execSlli c rd rs1 amt s
  | .srli c rd rs1 amt => Sys2Proof.Machine.execSrli c rd rs1 amt s
  | .srai c rd rs1 amt => Sys2Proof.Machine.execSrai c rd rs1 amt s
  | .lui c rd imm => Sys2Proof.Machine.execLui c rd imm s
  | .auipc c rd imm => Sys2Proof.Machine.execAuipc c rd imm s
  | .fadd c f rd rs1 rs2 => Sys2Proof.Machine.execFadd c f rd rs1 rs2 s
  | .fsub c f rd rs1 rs2 => Sys2Proof.Machine.execFsub c f rd rs1 rs2 s
  | .fmul c f rd rs1 rs2 => Sys2Proof.Machine.execFmul c f rd rs1 rs2 s
  | .fdiv c f rd rs1 rs2 => Sys2Proof.Machine.execFdiv c f rd rs1 rs2 s
  | .fsqrt c f rd rs1 rs2 => Sys2Proof.Machine.execFsqrt c f rd rs1 rs2 s
  | .fmin c f rd rs1 rs2 => Sys2Proof.Machine.execFmin c f rd rs1 rs2 s
  | .fmax c f rd rs1 rs2 => Sys2Proof.Machine.execFmax c f rd rs1 rs2 s
  | .fcmpEq c f rd rs1 rs2 => Sys2Proof.Machine.execFcmpEq c f rd rs1 rs2 s
  | .fcmpLt c f rd rs1 rs2 => Sys2Proof.Machine.execFcmpLt c f rd rs1 rs2 s
  | .fcmpLe c f rd rs1 rs2 => Sys2Proof.Machine.execFcmpLe c f rd rs1 rs2 s
  | .fcmpUn c f rd rs1 rs2 => Sys2Proof.Machine.execFcmpUn c f rd rs1 rs2 s
  | .fcvtToSigned c f rd rs1 rs2 => Sys2Proof.Machine.execFcvtToSigned c f rd rs1 rs2 s
  | .fcvtFromSigned c f rd rs1 rs2 => Sys2Proof.Machine.execFcvtFromSigned c f rd rs1 rs2 s
  | .fcvtToUnsigned c f rd rs1 rs2 => Sys2Proof.Machine.execFcvtToUnsigned c f rd rs1 rs2 s
  | .fcvtFromUnsigned c f rd rs1 rs2 => Sys2Proof.Machine.execFcvtFromUnsigned c f rd rs1 rs2 s
  | .fcvtBetweenFormats c f rd rs1 rs2 => Sys2Proof.Machine.execFcvtBetweenFormats c f rd rs1 rs2 s
  | .fmvSgn c f rd rs1 rs2 => Sys2Proof.Machine.execFmvSgn c f rd rs1 rs2 s
  | .fmvNeg c f rd rs1 rs2 => Sys2Proof.Machine.execFmvNeg c f rd rs1 rs2 s
  | .fmvXor c f rd rs1 rs2 => Sys2Proof.Machine.execFmvXor c f rd rs1 rs2 s
  | .fmadd c f rd rs1 rs2 rs3 => Sys2Proof.Machine.execFmadd c f rd rs1 rs2 rs3 s
  | .fmsub c f rd rs1 rs2 rs3 => Sys2Proof.Machine.execFmsub c f rd rs1 rs2 rs3 s
  | .lb c rd rs1 imm => Sys2Proof.Machine.execLb c rd rs1 imm s
  | .lbu c rd rs1 imm => Sys2Proof.Machine.execLbu c rd rs1 imm s
  | .lh c rd rs1 imm => Sys2Proof.Machine.execLh c rd rs1 imm s
  | .lhu c rd rs1 imm => Sys2Proof.Machine.execLhu c rd rs1 imm s
  | .lw c rd rs1 imm => Sys2Proof.Machine.execLw c rd rs1 imm s
  | .lwu c rd rs1 imm => Sys2Proof.Machine.execLwu c rd rs1 imm s
  | .ld c rd rs1 imm => Sys2Proof.Machine.execLd c rd rs1 imm s
  | .sb c rs2 rs1 imm => Sys2Proof.Machine.execSb c rs2 rs1 imm s
  | .sh c rs2 rs1 imm => Sys2Proof.Machine.execSh c rs2 rs1 imm s
  | .sw c rs2 rs1 imm => Sys2Proof.Machine.execSw c rs2 rs1 imm s
  | .sd c rs2 rs1 imm => Sys2Proof.Machine.execSd c rs2 rs1 imm s
  | .amoadd c sz rd rs1 rs2 => Sys2Proof.Machine.execAmoadd c sz rd rs1 rs2 s
  | .amomin c sz rd rs1 rs2 => Sys2Proof.Machine.execAmomin c sz rd rs1 rs2 s
  | .amomax c sz rd rs1 rs2 => Sys2Proof.Machine.execAmomax c sz rd rs1 rs2 s
  | .amominu c sz rd rs1 rs2 => Sys2Proof.Machine.execAmominu c sz rd rs1 rs2 s
  | .amomaxu c sz rd rs1 rs2 => Sys2Proof.Machine.execAmomaxu c sz rd rs1 rs2 s
  | .amoswap c sz rd rs1 rs2 => Sys2Proof.Machine.execAmoswap c sz rd rs1 rs2 s
  | .amocas c sz rd rs1 rs2 => Sys2Proof.Machine.execAmocas c sz rd rs1 rs2 s
  | .amofaddS c rd rs1 rs2 => Sys2Proof.Machine.execAmofaddS c rd rs1 rs2 s
  | .amofaddBf c rd rs1 rs2 => Sys2Proof.Machine.execAmofaddBf c rd rs1 rs2 s
  | .beq c rs1 rs2 off => Sys2Proof.Machine.execBeq c rs1 rs2 off s
  | .bne c rs1 rs2 off => Sys2Proof.Machine.execBne c rs1 rs2 off s
  | .blt c rs1 rs2 off => Sys2Proof.Machine.execBlt c rs1 rs2 off s
  | .bge c rs1 rs2 off => Sys2Proof.Machine.execBge c rs1 rs2 off s
  | .bltu c rs1 rs2 off => Sys2Proof.Machine.execBltu c rs1 rs2 off s
  | .bgeu c rs1 rs2 off => Sys2Proof.Machine.execBgeu c rs1 rs2 off s
  | .jal c rd imm => Sys2Proof.Machine.execJal c rd imm s
  | .jalr c rd rs1 imm => Sys2Proof.Machine.execJalr c rd rs1 imm s
  | .vadd c w vd vs1 vs2 => Sys2Proof.Machine.execVadd c w vd vs1 vs2 s
  | .vsub c w vd vs1 vs2 => Sys2Proof.Machine.execVsub c w vd vs1 vs2 s
  | .vmul c w vd vs1 vs2 => Sys2Proof.Machine.execVmul c w vd vs1 vs2 s
  | .vmin c w vd vs1 vs2 => Sys2Proof.Machine.execVmin c w vd vs1 vs2 s
  | .vmax c w vd vs1 vs2 => Sys2Proof.Machine.execVmax c w vd vs1 vs2 s
  | .vminu c w vd vs1 vs2 => Sys2Proof.Machine.execVminu c w vd vs1 vs2 s
  | .vmaxu c w vd vs1 vs2 => Sys2Proof.Machine.execVmaxu c w vd vs1 vs2 s
  | .vand c w vd vs1 vs2 => Sys2Proof.Machine.execVand c w vd vs1 vs2 s
  | .vor c w vd vs1 vs2 => Sys2Proof.Machine.execVor c w vd vs1 vs2 s
  | .vxor c w vd vs1 vs2 => Sys2Proof.Machine.execVxor c w vd vs1 vs2 s
  | .vsll c w vd vs1 vs2 => Sys2Proof.Machine.execVsll c w vd vs1 vs2 s
  | .vsrl c w vd vs1 vs2 => Sys2Proof.Machine.execVsrl c w vd vs1 vs2 s
  | .vsra c w vd vs1 vs2 => Sys2Proof.Machine.execVsra c w vd vs1 vs2 s
  | .vmla c w vd vs1 vs2 vs3 => Sys2Proof.Machine.execVmla c w vd vs1 vs2 vs3 s
  | .vcmpeq c w vd vs1 vs2 => Sys2Proof.Machine.execVcmpeq c w vd vs1 vs2 s
  | .vcmplt c w vd vs1 vs2 => Sys2Proof.Machine.execVcmplt c w vd vs1 vs2 s
  | .vfadd c f vd vs1 vs2 => Sys2Proof.Machine.execVfadd c f vd vs1 vs2 s
  | .vfsub c f vd vs1 vs2 => Sys2Proof.Machine.execVfsub c f vd vs1 vs2 s
  | .vfmul c f vd vs1 vs2 => Sys2Proof.Machine.execVfmul c f vd vs1 vs2 s
  | .vfdiv c f vd vs1 vs2 => Sys2Proof.Machine.execVfdiv c f vd vs1 vs2 s
  | .vfsqrt c f vd vs1 => Sys2Proof.Machine.execVfsqrt c f vd vs1 s
  | .vfmin c f vd vs1 vs2 => Sys2Proof.Machine.execVfmin c f vd vs1 vs2 s
  | .vfmax c f vd vs1 vs2 => Sys2Proof.Machine.execVfmax c f vd vs1 vs2 s
  | .vfcmpeq c f vd vs1 vs2 => Sys2Proof.Machine.execVfcmpeq c f vd vs1 vs2 s
  | .vfcmplt c f vd vs1 vs2 => Sys2Proof.Machine.execVfcmplt c f vd vs1 vs2 s
  | .vfcmple c f vd vs1 vs2 => Sys2Proof.Machine.execVfcmple c f vd vs1 vs2 s
  | .vfma c f vd vs1 vs2 vs3 => Sys2Proof.Machine.execVfma c f vd vs1 vs2 vs3 s
  | .vfms c f vd vs1 vs2 vs3 => Sys2Proof.Machine.execVfms c f vd vs1 vs2 vs3 s
  | .vfnma c f vd vs1 vs2 vs3 => Sys2Proof.Machine.execVfnma c f vd vs1 vs2 vs3 s
  | .vld c vd rs1 => Sys2Proof.Machine.execVld c vd rs1 s
  | .vst c vd rs1 => Sys2Proof.Machine.execVst c vd rs1 s
  | .vrsumS c vd vs1 => Sys2Proof.Machine.execVrsumS c vd vs1 s
  | .vrsumD c vd vs1 => Sys2Proof.Machine.execVrsumD c vd vs1 s
  | .vrmaxS c vd vs1 => Sys2Proof.Machine.execVrmaxS c vd vs1 s
  | .vrminS c vd vs1 => Sys2Proof.Machine.execVrminS c vd vs1 s
  | .vrmaxD c vd vs1 => Sys2Proof.Machine.execVrmaxD c vd vs1 s
  | .vrminD c vd vs1 => Sys2Proof.Machine.execVrminD c vd vs1 s
  | .vrsumW c vd vs1 => Sys2Proof.Machine.execVrsumW c vd vs1 s
  | .vrsumL c vd vs1 => Sys2Proof.Machine.execVrsumL c vd vs1 s
  | .vpermB c vd vs1 vs2 => Sys2Proof.Machine.execVpermB c vd vs1 vs2 s
  | .vinsD c vd rs1 vs3 => Sys2Proof.Machine.execVinsD c vd rs1 vs3 s
  | .vextD c rd vs2 vs3 => Sys2Proof.Machine.execVextD c rd vs2 vs3 s
  | .vbcastD c vd rs1 => Sys2Proof.Machine.execVbcastD c vd rs1 s
  | .vbcastW c vd rs1 => Sys2Proof.Machine.execVbcastW c vd rs1 s
  | .vcvtBfS c tz vd vs1 => Sys2Proof.Machine.execVcvtBfS c tz vd vs1 s
  | .vcvtHS c tz vd vs1 => Sys2Proof.Machine.execVcvtHS c tz vd vs1 s
  | .vcvtE4S c tz vd vs1 => Sys2Proof.Machine.execVcvtE4S c tz vd vs1 s
  | .vcvtE5S c tz vd vs1 => Sys2Proof.Machine.execVcvtE5S c tz vd vs1 s
  | .vcvtWS c vd vs1 => Sys2Proof.Machine.execVcvtWS c vd vs1 s
  | .vcvtLD c vd vs1 => Sys2Proof.Machine.execVcvtLD c vd vs1 s
  | .vcvtSW c vd vs1 => Sys2Proof.Machine.execVcvtSW c vd vs1 s
  | .vcvtDL c vd vs1 => Sys2Proof.Machine.execVcvtDL c vd vs1 s
  | .vcvtSBf c vd vs1 => Sys2Proof.Machine.execVcvtSBf c vd vs1 s
  | .vcvtSH c vd vs1 => Sys2Proof.Machine.execVcvtSH c vd vs1 s
  | .vcvtDS c vd vs1 => Sys2Proof.Machine.execVcvtDS c vd vs1 s
  | .vcvtSD c vd vs1 => Sys2Proof.Machine.execVcvtSD c vd vs1 s
  | .vcvtMx c fmt vd vs1 => Sys2Proof.Machine.execVcvtMx c fmt vd vs1 s
  | .fenceLocal c => Sys2Proof.Machine.execFenceLocal c s
  | .fenceChip c => Sys2Proof.Machine.execFenceChip c s
  | .fenceFabric c => Sys2Proof.Machine.execFenceFabric c s
  | .cflushRange c rs1 rs2 => Sys2Proof.Machine.execCflushRange c rs1 rs2 s
  | .cinvRange c rs1 rs2 => Sys2Proof.Machine.execCinvRange c rs1 rs2 s
  | .acqinv c rs1 rs2 => Sys2Proof.Machine.execAcqinv c rs1 rs2 s
  | .msend c rs1 rs2 imm => Sys2Proof.Machine.execMsend c rs1 rs2 imm s
  | .mrecv c rd imm => Sys2Proof.Machine.execMrecv c rd imm s
  | .psub c rd rs1 => Sys2Proof.Machine.execPsub c rd rs1 s
  | .lsub c rd rs1 => Sys2Proof.Machine.execLsub c rd rs1 s
  | .tinc c rs1 rs2 => Sys2Proof.Machine.execTinc c rs1 rs2 s
  | .tincL c rs2 imm => Sys2Proof.Machine.execTincL c rs2 imm s
  | .twait c rd rs1 rs2 imm => Sys2Proof.Machine.execTwait c rd rs1 rs2 imm s
  | .twaitTimeout c => Sys2Proof.Machine.execTwaitTimeout c s
  | .tread c rd imm => Sys2Proof.Machine.execTread c rd imm s
  | .barrier c rs1 => Sys2Proof.Machine.execBarrier c rs1 s
  | .phase c rs1 => Sys2Proof.Machine.execPhase c rs1 s
  | .rdsr c rd imm => Sys2Proof.Machine.execRdsr c rd imm s
  | .wrsr c rs1 imm => Sys2Proof.Machine.execWrsr c rs1 imm s
  | .ladleErrRecRetire c rs1 => Sys2Proof.Machine.execLadleErrRecRetire c rs1 s
  | .rdcnt c rd imm => Sys2Proof.Machine.execRdcnt c rd imm s
  | .wrcnt c rs1 imm => Sys2Proof.Machine.execWrcnt c rs1 imm s
  | .wfi c => Sys2Proof.Machine.execWfi c s
  | .trap c imm => Sys2Proof.Machine.execTrap c imm s
  | .tret c => Sys2Proof.Machine.execTret c s
  | .interruptTake c => Sys2Proof.Machine.execInterruptTake c s
  | .timerInterrupt c => Sys2Proof.Machine.execTimerInterrupt c s
  | .poisonConsumed c => Sys2Proof.Machine.execPoisonConsumed c s
  | .coreRunSet w c => Sys2Proof.Machine.execCoreRunSet w c s
  | .coreRunClear w c => Sys2Proof.Machine.execCoreRunClear w c s
  | .memoryResponse c id => Sys2Proof.Machine.execMemoryResponse c id s
  | .cacheFillLand c line => Sys2Proof.Machine.execCacheFillLand c line s
  | .homeAccess h e0 e1 => Sys2Proof.Machine.execHomeAccess h e0 e1 s
  | .pressNop c => Sys2Proof.Machine.execPressNop c s
  | .pressMatmul c => Sys2Proof.Machine.execPressMatmul c s
  | .pressConvert c => Sys2Proof.Machine.execPressConvert c s
  | .pressComplete c sub => Sys2Proof.Machine.execPressComplete c sub s
  | .pressLevelStep c => Sys2Proof.Machine.execPressLevelStep c s
  | .ladleCopy c => Sys2Proof.Machine.execLadleCopy c s
  | .ladleFill c => Sys2Proof.Machine.execLadleFill c s
  | .ladleList c => Sys2Proof.Machine.execLadleList c s
  | .ladleListEntry c => Sys2Proof.Machine.execLadleListEntry c s
  | .ladleTransactionDone c id => Sys2Proof.Machine.execLadleTransactionDone c id s
  | .messageAdmit c q src => Sys2Proof.Machine.execMessageAdmit c q src s
  | .messageWordArrive c q late k fabricEnd => Sys2Proof.Machine.execMessageWordArrive c q late k fabricEnd s
  | .messageTruncate c q k => Sys2Proof.Machine.execMessageTruncate c q k s
  | .tallyWriteResend k => Sys2Proof.Machine.execTallyWriteResend k s
  | .tallyTimeout d held k => Sys2Proof.Machine.execTallyTimeout d held k s
  | .barrierEngineSend => Sys2Proof.Machine.execBarrierEngineSend s
  | .regionRelease => Sys2Proof.Machine.execRegionRelease s
  | .barrierConfigWrite w n second v => Sys2Proof.Machine.execBarrierConfigWrite w n second v s
  | .barrierContextReset w n => Sys2Proof.Machine.execBarrierContextReset w n s
  | .hbmStackPower => Sys2Proof.Machine.execHbmStackPower s
  | .hbmTraining => Sys2Proof.Machine.execHbmTraining s
  | .hbmTrainingDone ts => Sys2Proof.Machine.execHbmTrainingDone ts s
  | .hbmScrub stack err => Sys2Proof.Machine.execHbmScrub stack err s
  | .channelTimeout stack ch => Sys2Proof.Machine.execChannelTimeout stack ch s
  | .hbmTempRead stack dev pkg => Sys2Proof.Machine.execHbmTempRead stack dev pkg s
  | .hbmTempLost stack => Sys2Proof.Machine.execHbmTempLost stack s
  | .identityFrameSend p => Sys2Proof.Machine.execIdentityFrameSend p s
  | .identityFrame p f => Sys2Proof.Machine.execIdentityFrame p f s
  | .identityTimeout p => Sys2Proof.Machine.execIdentityTimeout p s
  | .linkTrained p f times => Sys2Proof.Machine.execLinkTrained p f times s
  | .trainingRetry p => Sys2Proof.Machine.execTrainingRetry p s
  | .portMissing p => Sys2Proof.Machine.execPortMissing p s
  | .planWrite role v => Sys2Proof.Machine.execPlanWrite role v s
  | .signerWrite role v => Sys2Proof.Machine.execSignerWrite role v s
  | .acceptSwap role v => Sys2Proof.Machine.execAcceptSwap role v s
  | .routeBlockWrite role b v => Sys2Proof.Machine.execRouteBlockWrite role b v s
  | .routeCommit role v => Sys2Proof.Machine.execRouteCommit role v s
  | .flitReceive p f => Sys2Proof.Machine.execFlitReceive p f s
  | .linkControl p l => Sys2Proof.Machine.execLinkControl p l s
  | .linkAckSend p => Sys2Proof.Machine.execLinkAckSend p s
  | .laneLockLoss p => Sys2Proof.Machine.execLaneLockLoss p s
  | .failoverResend p => Sys2Proof.Machine.execFailoverResend p s
  | .packetRoute d => Sys2Proof.Machine.execPacketRoute d s
  | .packetDepart p => Sys2Proof.Machine.execPacketDepart p s
  | .writePacket k => Sys2Proof.Machine.execWritePacket k s
  | .readReq k => Sys2Proof.Machine.execReadReq k s
  | .readResp k => Sys2Proof.Machine.execReadResp k s
  | .messagePacket k => Sys2Proof.Machine.execMessagePacket k s
  | .tincPacket k => Sys2Proof.Machine.execTincPacket k s
  | .tallyWrite k => Sys2Proof.Machine.execTallyWrite k s
  | .ack k => Sys2Proof.Machine.execAck k s
  | .nak k => Sys2Proof.Machine.execNak k s
  | .barrierArrive k => Sys2Proof.Machine.execBarrierArrive k s
  | .barrierRelease k => Sys2Proof.Machine.execBarrierRelease k s
  | .abortPacket k => Sys2Proof.Machine.execAbortPacket k s
  | .beacon p b => Sys2Proof.Machine.execBeacon p b s
  | .audit k => Sys2Proof.Machine.execAudit k s
  | .pieceReq k => Sys2Proof.Machine.execPieceReq k s
  | .piece k => Sys2Proof.Machine.execPiece k s
  | .gapTimeout flow => Sys2Proof.Machine.execGapTimeout flow s
  | .ackTimeout flow => Sys2Proof.Machine.execAckTimeout flow s
  | .ackCoalesce flow => Sys2Proof.Machine.execAckCoalesce flow s
  | .unflowedResend d k => Sys2Proof.Machine.execUnflowedResend d k s
  | .beaconSend p => Sys2Proof.Machine.execBeaconSend p s
  | .auditSend flow => Sys2Proof.Machine.execAuditSend flow s
  | .creditReturn p => Sys2Proof.Machine.execCreditReturn p s
  | .longLinkCheck p => Sys2Proof.Machine.execLongLinkCheck p s
  | .backupPrimaryClaim => Sys2Proof.Machine.execBackupPrimaryClaim s
  | .timeNoParent => Sys2Proof.Machine.execTimeNoParent s
  | .scheduleCommit role v => Sys2Proof.Machine.execScheduleCommit role v s
  | .scheduleActivate => Sys2Proof.Machine.execScheduleActivate s
  | .congestionSample p => Sys2Proof.Machine.execCongestionSample p s
  | .siteLineLost p fault => Sys2Proof.Machine.execSiteLineLost p fault s
  | .ripenerStep t => Sys2Proof.Machine.execRipenerStep t s
  | .governorStep r reading => Sys2Proof.Machine.execGovernorStep r reading s
  | .limiterSample us100 ms1 => Sys2Proof.Machine.execLimiterSample us100 ms1 s
  | .supplyAlertAssert => Sys2Proof.Machine.execSupplyAlertAssert s
  | .supplyAlertDeassert => Sys2Proof.Machine.execSupplyAlertDeassert s
  | .supplyAlertHoldEnd => Sys2Proof.Machine.execSupplyAlertHoldEnd s
  | .mainEntryFault e => Sys2Proof.Machine.execMainEntryFault e s
  | .droopDetect r => Sys2Proof.Machine.execDroopDetect r s
  | .droopRecover r => Sys2Proof.Machine.execDroopRecover r s
  | .riseEnd r => Sys2Proof.Machine.execRiseEnd r s
  | .nextExpire r => Sys2Proof.Machine.execNextExpire r s
  | .parkSlice energy lowest => Sys2Proof.Machine.execParkSlice energy lowest s
  | .unpark => Sys2Proof.Machine.execUnpark s
  | .throttleTick => Sys2Proof.Machine.execThrottleTick s
  | .windowAvgUpdate avg main aux => Sys2Proof.Machine.execWindowAvgUpdate avg main aux s
  | .capWrite role v => Sys2Proof.Machine.execCapWrite role v s
  | .capWindowWrite role v => Sys2Proof.Machine.execCapWindowWrite role v s
  | .rackOrderWrite role v => Sys2Proof.Machine.execRackOrderWrite role v s
  | .hostOrderWrite role v => Sys2Proof.Machine.execHostOrderWrite role v s
  | .holdWrite role v => Sys2Proof.Machine.execHoldWrite role v s
  | .frequencyModeWrite role mhz v => Sys2Proof.Machine.execFrequencyModeWrite role mhz v s
  | .releaseOffsetWrite role v => Sys2Proof.Machine.execReleaseOffsetWrite role v s
  | .gateWrite w r hi v => Sys2Proof.Machine.execGateWrite w r hi v s
  | .dieSensorSample rs => Sys2Proof.Machine.execDieSensorSample rs s
  | .leakSample ohm => Sys2Proof.Machine.execLeakSample ohm s
  | .flowCheck power dt => Sys2Proof.Machine.execFlowCheck power dt s
  | .allowanceUpdate => Sys2Proof.Machine.execAllowanceUpdate s
  | .coolantDataLost => Sys2Proof.Machine.execCoolantDataLost s
  | .junctionStep power => Sys2Proof.Machine.execJunctionStep power s
  | .sustainedLimit => Sys2Proof.Machine.execSustainedLimit s
  | .coolantFaultAssert => Sys2Proof.Machine.execCoolantFaultAssert s
  | .coolantFaultDeassert => Sys2Proof.Machine.execCoolantFaultDeassert s
  | .coolantStopTimeout => Sys2Proof.Machine.execCoolantStopTimeout s
  | .flowRestored => Sys2Proof.Machine.execFlowRestored s
  | .comparatorTrip k => Sys2Proof.Machine.execComparatorTrip k s
  | .mainRailsOff => Sys2Proof.Machine.execMainRailsOff s
  | .tripClear role v => Sys2Proof.Machine.execTripClear role v s
  | .clearFaults role v => Sys2Proof.Machine.execClearFaults role v s
  | .cycleSample => Sys2Proof.Machine.execCycleSample s
  | .cycleSave => Sys2Proof.Machine.execCycleSave s
  | .lifeEvaluate => Sys2Proof.Machine.execLifeEvaluate s
  | .auxPowerUp straps a b => Sys2Proof.Machine.execAuxPowerUp straps a b s
  | .auxReset byPin => Sys2Proof.Machine.execAuxReset byPin s
  | .ownBClaim => Sys2Proof.Machine.execOwnBClaim s
  | .mainPgAssert => Sys2Proof.Machine.execMainPgAssert s
  | .mainPgLoss => Sys2Proof.Machine.execMainPgLoss s
  | .ejectAssert => Sys2Proof.Machine.execEjectAssert s
  | .holdupOkChange high => Sys2Proof.Machine.execHoldupOkChange high s
  | .flashProgram => Sys2Proof.Machine.execFlashProgram s
  | .refclkLoss k => Sys2Proof.Machine.execRefclkLoss k s
  | .sidebandPoll t power => Sys2Proof.Machine.execSidebandPoll t power s
  | .inBandInterrupt bits t => Sys2Proof.Machine.execInBandInterrupt bits t s
  | .locateWrite role v => Sys2Proof.Machine.execLocateWrite role v s
  | .locateTimeout => Sys2Proof.Machine.execLocateTimeout s
  | .mainRetry role v => Sys2Proof.Machine.execMainRetry role v s
  | .startStepBegin e => Sys2Proof.Machine.execStartStepBegin e s
  | .regionRise routerOk defects => Sys2Proof.Machine.execRegionRise routerOk defects s
  | .trainingGroupStart => Sys2Proof.Machine.execTrainingGroupStart s
  | .oapHandshake p cid cert linkLocal => Sys2Proof.Machine.execOapHandshake p cid cert linkLocal s
  | .sessionIdleTimeout sid => Sys2Proof.Machine.execSessionIdleTimeout sid s
  | .oapRead sid p req index sub off => Sys2Proof.Machine.execOapRead sid p req index sub off s
  | .oapWrite sid p req index sub off body more => Sys2Proof.Machine.execOapWrite sid p req index sub off body more s
  | .readMulti sid p req items => Sys2Proof.Machine.execReadMulti sid p req items s
  | .subscribe sid p req index sub interval => Sys2Proof.Machine.execSubscribe sid p req index sub interval s
  | .subscribeCancel sid p req subId => Sys2Proof.Machine.execSubscribeCancel sid p req subId s
  | .mgmtTick => Sys2Proof.Machine.execMgmtTick s
  | .anchorWrite sid which v => Sys2Proof.Machine.execAnchorWrite sid which v s
  | .rindRelease f => Sys2Proof.Machine.execRindRelease f s
  | .rindWatchdog => Sys2Proof.Machine.execRindWatchdog s
  | .rindClaim main aux bound => Sys2Proof.Machine.execRindClaim main aux bound s
  | .rindRestart x r => Sys2Proof.Machine.execRindRestart x r s
  | .standbyTest t => Sys2Proof.Machine.execStandbyTest t s
  | .mirrorCopy => Sys2Proof.Machine.execMirrorCopy s
  | .takeback => Sys2Proof.Machine.execTakeback s
  | .jobStart role => Sys2Proof.Machine.execJobStart role s
  | .jobStop role => Sys2Proof.Machine.execJobStop role s
  | .jobAbort role => Sys2Proof.Machine.execJobAbort role s
  | .runtimeEnd => Sys2Proof.Machine.execRuntimeEnd s
  | .rdmaConnect role v => Sys2Proof.Machine.execRdmaConnect role v s
  | .rdmaClose role v => Sys2Proof.Machine.execRdmaClose role v s
  | .keyWrite role v => Sys2Proof.Machine.execKeyWrite role v s
  | .rdmaWrite qp key off ce bytes => Sys2Proof.Machine.execRdmaWrite qp key off ce bytes s
  | .rdmaRead qp key off len ce => Sys2Proof.Machine.execRdmaRead qp key off len ce s
  | .rdmaSend qp key off ce bytes => Sys2Proof.Machine.execRdmaSend qp key off ce bytes s
  | .congestionNotification qp => Sys2Proof.Machine.execCongestionNotification qp s
  | .rateRaise qp => Sys2Proof.Machine.execRateRaise qp s
  | .ptpMessage p m => Sys2Proof.Machine.execPtpMessage p m s
  | .hangCheck => Sys2Proof.Machine.execHangCheck s
  | .windowMsWrite role v => Sys2Proof.Machine.execWindowMsWrite role v s
  | .faultRecordWrite w d v => Sys2Proof.Machine.execFaultRecordWrite w d v s
  | .abortNow w d => Sys2Proof.Machine.execAbortNow w d s
  | .abortSend => Sys2Proof.Machine.execAbortSend s
  | .abortJobIdWrite w d v => Sys2Proof.Machine.execAbortJobIdWrite w d v s
  | .dumpStart => Sys2Proof.Machine.execDumpStart s
  | .dumpReadTimeout k => Sys2Proof.Machine.execDumpReadTimeout k s
  | .dumpEnd n => Sys2Proof.Machine.execDumpEnd n s
  | .dumpRelease role v => Sys2Proof.Machine.execDumpRelease role v s
  | .dumpExpire => Sys2Proof.Machine.execDumpExpire s
  | .ladderStart => Sys2Proof.Machine.execLadderStart s
  | .ladderStepEnd => Sys2Proof.Machine.execLadderStepEnd s
  | .ladderStepTimeout => Sys2Proof.Machine.execLadderStepTimeout s
  | .ladderRequest role v => Sys2Proof.Machine.execLadderRequest role v s
  | .engineReset r hi v => Sys2Proof.Machine.execEngineReset r hi v s
  | .coreReset r hi v => Sys2Proof.Machine.execCoreReset r hi v s
  | .regionReset r => Sys2Proof.Machine.execRegionReset r s
  | .regionDrainEnd r n => Sys2Proof.Machine.execRegionDrainEnd r n s
  | .packageStepRequest => Sys2Proof.Machine.execPackageStepRequest s
  | .regulatorPhaseLoss rail d => Sys2Proof.Machine.execRegulatorPhaseLoss rail d s
  | .replacementClear role v => Sys2Proof.Machine.execReplacementClear role v s
  | .updateOpen role type source stage => Sys2Proof.Machine.execUpdateOpen role type source stage s
  | .updateAbort role => Sys2Proof.Machine.execUpdateAbort role s
  | .imageBlockReceive b => Sys2Proof.Machine.execImageBlockReceive b s
  | .blockRequestTimeout => Sys2Proof.Machine.execBlockRequestTimeout s
  | .blockRetry => Sys2Proof.Machine.execBlockRetry s
  | .recoveryResend block => Sys2Proof.Machine.execRecoveryResend block s
  | .rindConfirmTimeout => Sys2Proof.Machine.execRindConfirmTimeout s
  | .attestationNonce sid v => Sys2Proof.Machine.execAttestationNonce sid v s
  | .ownerLockSet role v => Sys2Proof.Machine.execOwnerLockSet role v s
  | .clearToken role v => Sys2Proof.Machine.execClearToken role v s
  | .unitCountersConfig role v => Sys2Proof.Machine.execUnitCountersConfig role v s
  | .registerWrite w off v mask => Sys2Proof.Machine.execRegisterWrite w off v mask s
  | .illegalInstruction c w => Sys2Proof.Machine.execIllegalInstruction c w s
  | .scheduleSlotStart p => Sys2Proof.Machine.execScheduleSlotStart p s
  | .ejectDeassert => Sys2Proof.Machine.execEjectDeassert s
  | .refclkRestore k => Sys2Proof.Machine.execRefclkRestore k s
  | .ppsInPulse => Sys2Proof.Machine.execPpsInPulse s
  | .mgmtPortDown p => Sys2Proof.Machine.execMgmtPortDown p s
  | .mgmtPortUp p => Sys2Proof.Machine.execMgmtPortUp p s
  | .mgmtPortOutage p => Sys2Proof.Machine.execMgmtPortOutage p s
  | .mgmtFrame p f => Sys2Proof.Machine.execMgmtFrame p f s
  | .rindUpdateHandover => Sys2Proof.Machine.execRindUpdateHandover s
  | .rindImageConfirmed => Sys2Proof.Machine.execRindImageConfirmed s
  | .cycleCountOverflow u n left => Sys2Proof.Machine.execCycleCountOverflow u n left s
  | .coreDefectFound row col => Sys2Proof.Machine.execCoreDefectFound row col s

end Sys2Proof.Machine
end

