-- ==== Sys2Proof/Machine/Idle.lean ====
section
/-! DEFINITION. What passes on an empty queue. -/
namespace Sys2Proof.Machine

/-- What 1 ns without a command brings: the passage of time (log 25) with the falls and rises under way, the Presses that
obey them, grants whose rise is due (11 R525), a park that waits for the lowest operating state (12 R563), the indicators' registers, and upsets of memory cells (16 R678). -/
def State.idle (s : State) : State :=
  (Config.cellUpsets s.now).foldl State.strike
    (State.refreshLeds (State.showCaps (State.coolPark (State.obeyCeilings (State.landGrants
    { s with now := s.now + 1, ftime := s.ftime + 1, runNow := if s.pow.parked = 0 then s.runNow + 1 else s.runNow,
             regions := Tab.mapVals Region.reset Region.tick s.regions })))))

end Sys2Proof.Machine
end

