-- ==== Sys2Proof/Machine/Step.lean ====
section
/-! DEFINITION. One step: the command at the front of the queue, or 1 ns of idling. -/
namespace Sys2Proof.Machine

/-- Takes the command at the front of the queue and performs it on the state with the queue's rest; on an empty
queue 1 ns passes (DESIGN CHOICE, log 25). -/
def step (s : State) : Host.Outcome State Fault Refusal :=
  match s.pending with
  | [] => .next s.idle
  | c :: rest => exec c { s with pending := rest }

/-- `s` with the command that a word of the table spells at the front of its queue. No row of
spec/opcode_table.json gives bits, so no word spells one and `s` is unchanged. -/
def State.withFetchWord (s : State) (nbits w : Nat) : State :=
  match Sys2Proof.decodeTableWord nbits w with
  | some c => { s with pending := c :: s.pending }
  | none => s

end Sys2Proof.Machine
end

