-- ==== Sys2Proof/WellFormed.lean ====
section
/-! DEFINITION. Well-formed commands: operands that name a port, a column, a lane or a list of the spec's length. A command
whose operands are all of a width of their own is well-formed whatever they hold. -/
namespace Sys2Proof

/-- Port codes 0-47 (08 Table 8.1). -/
def portOk (p : BitVec 6) : Bool := decide (p.toNat < 48)

/-- A BLOB is shorter than 2^24 bytes (15 Table 15.5). -/
def blobOk (v : List Byte) : Bool := decide (v.length < 0x1000000)

/-- The class that Table 9.4 gives a kind; KIND codes run to 0x3F. -/
def PKind.classOk (k : PKind) (c : TClass) : Bool :=
  match k with
  | .write | .readReq | .readResp | .tallyWrite => decide (c ≠ .signal)
  | .message => decide (c = .adaptive)
  | .tinc | .ack | .nak | .barrierArrive | .barrierRelease | .abort | .beacon | .audit => decide (c = .signal)
  | .pieceReq | .piece => decide (c = .service)
  | .reserved _ => false

/-- A reserved KIND is none of Table 9.4's codes. -/
def PKind.codeOk (k : PKind) : Bool :=
  match k with
  | .reserved n => decide (n = 0) || (decide (0x10 ≤ n) && decide (n < 64))
  | _ => true

/-- Payload bytes of a kind (09 Table 9.4): 1-64 data flits, 1-32 for a MESSAGE, none for the others. -/
def PKind.dataOk (k : PKind) (n : Nat) : Bool :=
  match k with
  | .write | .readResp | .piece => decide (1 ≤ n)
  | .message => decide (1 ≤ n) && decide (n ≤ 2048)
  | .reserved _ => true
  | _ => decide (n = 0)

/-- Payload of at most 4,096 bytes from DST_OFFSET on, inside one aligned 4 KiB, with a poison mark for each word that it touches (09
R409). Such a packet can reach a port, of whatever kind and class (09 R408). -/
def Packet.sizeOk (k : Packet) : Bool :=
  let o := k.dstOff.toNat
  let n := k.data.length
  k.kind.codeOk && k.kind.dataOk n && (decide (n = 0) || decide (o % 4096 + n ≤ 4096)) && decide (k.args.length ≤ 4) &&
    decide (k.poison.length = if n = 0 then 0 else (o % 8 + n + 7) / 8)

/-- A packet that is performed at its destination has passed R408. -/
def Packet.wf (k : Packet) : Bool := k.sizeOk && k.kind.classOk k.cls

/-- A flit has 64 bytes (09 R400). -/
def Flit.wf (f : Flit) : Bool := decide (f.body.length = 64)

/-- Sequences of at most 24 bits (10 R464), ten lanes. -/
def LinkCtl.wf (l : LinkCtl) : Bool :=
  decide (l.ackSeq < 0x1000000) && decide (l.creditsLane.length ≤ 10) && decide (l.received.length = 10) && decide (l.drained.length = 10)

/-- Lines of a Vat, and the tag space of in-flight accesses. -/
def HomeReq.wf (h : HomeReq) : Bool :=
  match h with
  | .access _ _ _ => true
  | .fill _ line => decide (line < 0x400000000000)
  | .writeBack _ line => decide (line < 0x400000000000)
  | .pressLine _ _ _ _ => true
  | .ladleRead _ _ line => decide (line < 0x400000000000)
  | .ladleAhead _ _ line => decide (line < 0x400000000000)
  | .ladleWrite _ _ _ => true
  | .packetWrite _ line _ => decide (line < 0x400000000000)
  | .packetRead _ line => decide (line < 0x400000000000)

/-- Tray registers as wide as Table 13.5 has them; four modules. -/
def TrayRegs.wf (t : TrayRegs) : Bool :=
  decide (t.formatMajor < 256) && decide (t.formatMinor < 256) && decide (t.modules.length ≤ 4) &&
    decide (t.mainState < 256) && decide (t.isoCause < 256) && decide (t.stageId < 2 ^ 32) && decide (t.stageState < 256) &&
    decide (t.noticeAck < 256) && decide (t.pieceStatus < 256) && decide (t.pieceEcho < 2 ^ 24)

/-- TYPEs 0x01-0x06; port codes 0-47. -/
def StepEnd.wf (e : StepEnd) : Bool :=
  match e with
  | .ok => true
  | .failed => true
  | .images bad => bad.all (fun t => decide (1 ≤ t) && decide (t ≤ 6))
  | .lanes ports => ports.all (fun p => decide (p < 48))

def ReadItem.wf (i : ReadItem) : Bool := decide (i.index < 0x10000) && decide (i.sub < 256)

/-- A block of 4,096 bytes, or the answer that there is none (17 R735). -/
def ImageBlock.wf (b : ImageBlock) : Bool :=
  decide (b.index < 0x100000000) && (b.noSuchBlock || decide (b.bytes.length = 4096))

def CountUnit.wf (u : CountUnit) : Bool :=
  match u with
  | .core _ => true
  | .port p => portOk p
  | .hbm _ => true

/-- Whether a command's operands are ones that the spec's fields can hold. -/
def Instr.wf (i : Instr) : Bool :=
  match i with
  | .homeAccess h e0 e1 => h.wf && decide (e0 ≤ 256) && decide (e1 ≤ 256)
  | .hbmTrainingDone ts => decide (ts.length ≤ 8) && ts.all (fun t => decide (t.rowsRepaired ≤ 65536))
  | .hbmScrub _ err => decide (err ≤ 256)
  | .identityFrameSend p => portOk p
  | .identityFrame p _ => portOk p
  | .identityTimeout p => portOk p
  | .linkTrained p _ _ => portOk p
  | .trainingRetry p => portOk p
  | .portMissing p => portOk p
  | .planWrite _ v => blobOk v
  | .signerWrite _ v => blobOk v
  | .routeBlockWrite _ _ v => blobOk v
  | .flitReceive p f => portOk p && f.wf
  | .linkControl p l => portOk p && l.wf
  | .linkAckSend p => portOk p
  | .laneLockLoss p => portOk p
  | .failoverResend p => portOk p
  | .packetDepart p => portOk p
  | .writePacket k => k.wf
  | .readReq k => k.wf
  | .readResp k => k.wf
  | .messagePacket k => k.wf
  | .tincPacket k => k.wf
  | .tallyWrite k => k.wf
  | .ack k => k.wf
  | .nak k => k.wf
  | .barrierArrive k => k.wf
  | .barrierRelease k => k.wf
  | .abortPacket k => k.wf
  | .beacon p b => portOk p && decide (b.stratum ≤ 0xFF)
  | .audit k => k.wf
  | .pieceReq k => k.wf
  | .piece k => k.wf
  | .beaconSend p => portOk p
  | .creditReturn p => portOk p
  | .longLinkCheck p => portOk p
  | .congestionSample p => portOk p
  | .siteLineLost p _ => portOk p
  | .ripenerStep t => decide (t.regions.length = 16) && decide (t.lowest.length = 16)
  | .dieSensorSample rs => decide (rs.length = 128)
  | .sidebandPoll t _ => t.wf
  | .inBandInterrupt _ t => t.wf
  | .startStepBegin e => e.wf
  | .regionRise _ defects => defects.all (fun d => decide (d < 1088))
  | .oapWrite _ _ _ _ _ _ body _ => decide (body.length ≤ 1136)
  | .readMulti _ _ _ items => decide (items.length ≤ 284) && items.all ReadItem.wf
  | .anchorWrite _ _ v => blobOk v
  | .rdmaConnect _ v => blobOk v
  | .keyWrite _ v => blobOk v
  | .rdmaWrite _ _ _ _ bytes => decide (bytes.length ≤ 0x80000000)
  | .rdmaSend _ _ _ _ bytes => decide (bytes.length ≤ 0x80000000)
  | .imageBlockReceive b => b.wf
  | .recoveryResend block => decide (block < 0x100000000)
  | .attestationNonce _ v => blobOk v
  | .clearToken _ v => blobOk v
  | .unitCountersConfig _ v => blobOk v
  | .scheduleSlotStart p => portOk p
  | .cycleCountOverflow u n _ => u.wf && decide (n.toNat < (match u with | .core _ => 8 | _ => 4))
  | .coreDefectFound _ col => decide (col < 34)
  | .add .. | .sub .. | .and .. | .or .. | .xor .. | .sll .. | .srl .. | .sra .. | .slt .. | .sltu .. | .mul ..
  | .mulh .. | .mulhu .. | .div .. | .divu .. | .rem .. | .remu .. | .addi .. | .andi .. | .ori .. | .xori ..
  | .slti .. | .slli .. | .srli .. | .srai .. | .lui .. | .auipc .. | .fadd .. | .fsub .. | .fmul .. | .fdiv ..
  | .fsqrt .. | .fmin .. | .fmax .. | .fcmpEq .. | .fcmpLt .. | .fcmpLe .. | .fcmpUn .. | .fcvtToSigned ..
  | .fcvtFromSigned .. | .fcvtToUnsigned .. | .fcvtFromUnsigned .. | .fcvtBetweenFormats .. | .fmvSgn .. | .fmvNeg ..
  | .fmvXor .. | .fmadd .. | .fmsub .. | .lb .. | .lbu .. | .lh .. | .lhu .. | .lw .. | .lwu .. | .ld .. | .sb ..
  | .sh .. | .sw .. | .sd .. | .amoadd .. | .amomin .. | .amomax .. | .amominu .. | .amomaxu .. | .amoswap ..
  | .amocas .. | .amofaddS .. | .amofaddBf .. | .beq .. | .bne .. | .blt .. | .bge .. | .bltu .. | .bgeu .. | .jal ..
  | .jalr .. | .vadd .. | .vsub .. | .vmul .. | .vmin .. | .vmax .. | .vminu .. | .vmaxu .. | .vand .. | .vor ..
  | .vxor .. | .vsll .. | .vsrl .. | .vsra .. | .vmla .. | .vcmpeq .. | .vcmplt .. | .vfadd .. | .vfsub ..
  | .vfmul .. | .vfdiv .. | .vfsqrt .. | .vfmin .. | .vfmax .. | .vfcmpeq .. | .vfcmplt .. | .vfcmple .. | .vfma ..
  | .vfms .. | .vfnma .. | .vld .. | .vst .. | .vrsumS .. | .vrsumD .. | .vrmaxS .. | .vrminS .. | .vrmaxD ..
  | .vrminD .. | .vrsumW .. | .vrsumL .. | .vpermB .. | .vinsD .. | .vextD .. | .vbcastD .. | .vbcastW ..
  | .vcvtBfS .. | .vcvtHS .. | .vcvtE4S .. | .vcvtE5S .. | .vcvtWS .. | .vcvtLD .. | .vcvtSW .. | .vcvtDL ..
  | .vcvtSBf .. | .vcvtSH .. | .vcvtDS .. | .vcvtSD .. | .vcvtMx .. | .fenceLocal .. | .fenceChip ..
  | .fenceFabric .. | .cflushRange .. | .cinvRange .. | .acqinv .. | .msend .. | .mrecv .. | .psub .. | .lsub ..
  | .tinc .. | .tincL .. | .twait .. | .twaitTimeout .. | .tread .. | .barrier .. | .phase .. | .rdsr .. | .wrsr ..
  | .ladleErrRecRetire .. | .rdcnt .. | .wrcnt .. | .wfi .. | .trap .. | .tret .. | .interruptTake ..
  | .timerInterrupt .. | .poisonConsumed .. | .coreRunSet .. | .coreRunClear .. | .memoryResponse ..
  | .cacheFillLand .. | .pressNop .. | .pressMatmul .. | .pressConvert .. | .pressComplete .. | .pressLevelStep ..
  | .ladleCopy .. | .ladleFill .. | .ladleList .. | .ladleListEntry .. | .ladleTransactionDone .. | .messageAdmit ..
  | .messageWordArrive .. | .messageTruncate .. | .tallyWriteResend .. | .tallyTimeout .. | .barrierEngineSend
  | .regionRelease | .barrierConfigWrite .. | .barrierContextReset .. | .hbmStackPower | .hbmTraining
  | .channelTimeout .. | .hbmTempRead .. | .hbmTempLost .. | .acceptSwap .. | .routeCommit .. | .packetRoute ..
  | .gapTimeout .. | .ackTimeout .. | .ackCoalesce .. | .unflowedResend .. | .auditSend .. | .backupPrimaryClaim
  | .timeNoParent | .scheduleCommit .. | .scheduleActivate | .governorStep .. | .limiterSample ..
  | .supplyAlertAssert | .supplyAlertDeassert | .supplyAlertHoldEnd | .mainEntryFault .. | .droopDetect ..
  | .droopRecover .. | .riseEnd .. | .nextExpire .. | .parkSlice .. | .unpark | .throttleTick | .windowAvgUpdate ..
  | .capWrite .. | .capWindowWrite .. | .rackOrderWrite .. | .hostOrderWrite .. | .holdWrite ..
  | .frequencyModeWrite .. | .releaseOffsetWrite .. | .gateWrite .. | .leakSample .. | .flowCheck ..
  | .allowanceUpdate | .coolantDataLost | .junctionStep .. | .sustainedLimit | .coolantFaultAssert
  | .coolantFaultDeassert | .coolantStopTimeout | .flowRestored | .comparatorTrip .. | .mainRailsOff | .tripClear ..
  | .clearFaults .. | .cycleSample | .cycleSave | .lifeEvaluate | .auxPowerUp .. | .auxReset .. | .ownBClaim
  | .mainPgAssert | .mainPgLoss | .ejectAssert | .holdupOkChange .. | .flashProgram | .refclkLoss ..
  | .locateWrite .. | .locateTimeout | .mainRetry .. | .trainingGroupStart | .oapHandshake ..
  | .sessionIdleTimeout .. | .oapRead .. | .subscribe .. | .subscribeCancel .. | .mgmtTick | .rindRelease ..
  | .rindWatchdog | .rindClaim .. | .rindRestart .. | .standbyTest .. | .mirrorCopy | .takeback | .jobStart ..
  | .jobStop .. | .jobAbort .. | .runtimeEnd | .rdmaClose .. | .rdmaRead .. | .congestionNotification ..
  | .rateRaise .. | .ptpMessage .. | .hangCheck | .windowMsWrite .. | .faultRecordWrite .. | .abortNow ..
  | .abortSend | .abortJobIdWrite .. | .dumpStart | .dumpReadTimeout .. | .dumpEnd .. | .dumpRelease .. | .dumpExpire
  | .ladderStart | .ladderStepEnd | .ladderStepTimeout | .ladderRequest .. | .engineReset .. | .coreReset ..
  | .regionReset .. | .regionDrainEnd .. | .packageStepRequest | .regulatorPhaseLoss .. | .replacementClear ..
  | .updateOpen .. | .updateAbort .. | .blockRequestTimeout | .blockRetry | .rindConfirmTimeout | .ownerLockSet ..
  | .registerWrite .. | .illegalInstruction .. | .ejectDeassert | .refclkRestore .. | .ppsInPulse | .mgmtPortDown ..
  | .mgmtPortUp .. | .mgmtPortOutage .. | .mgmtFrame .. | .rindUpdateHandover | .rindImageConfirmed => true

end Sys2Proof
end

