-- ==== Sys2Proof/Safety.lean ====
section
/-! DEFINITION. What counts as a safe run: every command of it completes, and memory and cores stay in their one canonical form. -/
namespace Sys2Proof

open Machine

/-- A command completes at a state: it answers a next state, no fault and no refusal. -/
def Completes (c : Instr) (s : State) : Prop := ∃ t, exec c s = .next t

/-- The invariant of every run: memory lists its bytes in rising order and none that an unlisted byte reads as; the cores
are listed the same way. -/
def Canonical (s : State) : Prop := Memory.wf s.mem = true ∧ Tab.wf Core.reset s.cores = true

/-- Outcomes of performing commands in order: the state after the last, if each completes. -/
def runAll (s : State) : List Instr → Option State
  | [] => some s
  | c :: cs =>
    match exec c s with
    | .next t => runAll t cs
    | .fault _ => none
    | .refused _ => none

/-- A run of commands is safe: it goes to its end, and leaves memory and cores canonical. -/
def SafeRun (s : State) (cs : List Instr) : Prop := ∃ t, runAll s cs = some t ∧ Canonical t

end Sys2Proof
end

