-- ==== Sys2Proof/Certificates/Slice0/Obligations.lean ====
section
/-! DEFINITION. The statements for the provers, in the words of the spec's rules. A statement about a command says that
`exec` answers a next state and what that state holds. -/
namespace Sys2Proof.Claims

open Sys2Proof.Machine

/-- Command `c` at `s` answers a next state, and `P` holds of it. -/
def Gives (c : Instr) (s : State) (P : State → Prop) : Prop := ∃ t, exec c s = .next t ∧ P t

/-- Every byte of memory reads as before. -/
def SameMem (s t : State) : Prop := ∀ a, Memory.byte t.mem a = Memory.byte s.mem a

/-- Every core reads as before. -/
def SameCores (s t : State) : Prop := ∀ o : CoreId, t.core o = s.core o

/-- Only core `c` differs: every other core, every byte of memory and all other state are as before. -/
def OnlyCore (c : CoreId) (s t : State) : Prop :=
  (∀ o : CoreId, o ≠ c → t.core o = s.core o) ∧ SameMem s t ∧ { t with cores := s.cores } = s

/-- The same, but that the reads of a Vat may have corrected single wrong bits of its words (16 R678). -/
def OnlyCoreReads (c : CoreId) (s t : State) : Prop :=
  (∀ o : CoreId, o ≠ c → t.core o = s.core o) ∧ SameMem s t ∧ { t with cores := s.cores, cellErrs := s.cellErrs } = s

/-- What an instruction that only computes leaves alone in its core: all but the general and vector registers, pc, the
stall, the count of retired instructions, and what the performance counters may change (their own state and the
pending counter-overflow interrupt). -/
def SameBesideRetire (k k' : Core) : Prop :=
  { k' with g := k.g, v := k.v, pc := k.pc, stall := k.stall, coreProgress := k.coreProgress, pmu := k.pmu,
            intPending := k.intPending, intAddr := k.intAddr } = k

/-- The general registers as before, but for `rd`; g0 reads as zero whatever is written (R73). -/
def TookReg (rd : Reg) (v : Word) (k k' : Core) : Prop :=
  k'.getG rd = (if rd = 0 then 0 else v) ∧ ∀ r, r ≠ rd → k'.getG r = k.getG r

/-- The vector registers as before, but for `vd`. -/
def TookVec (vd : Reg) (v : VWord) (k k' : Core) : Prop := k'.getV vd = v ∧ ∀ r, r ≠ vd → k'.getV r = k.getV r

/-- pc has moved to `pc` and the instruction counts as retired. -/
def Retired (pc : Word) (k k' : Core) : Prop :=
  k'.pc = pc ∧ k'.stall = .none ∧ k'.coreProgress = k.coreProgress + 1 ∧ SameBesideRetire k k'

/-- Core `c` retired its instruction into `rd`: nothing else of the machine changed. -/
def ToReg (c : CoreId) (rd : Reg) (v : Word) (s t : State) : Prop :=
  TookReg rd v (s.core c) (t.core c) ∧ (∀ r, (t.core c).getV r = (s.core c).getV r) ∧
    Retired ((s.core c).pc + 4) (s.core c) (t.core c) ∧ OnlyCore c s t

/-- The same into a vector register. -/
def ToVec (c : CoreId) (vd : Reg) (v : VWord) (s t : State) : Prop :=
  TookVec vd v (s.core c) (t.core c) ∧ (∀ r, (t.core c).getG r = (s.core c).getG r) ∧
    Retired ((s.core c).pc + 4) (s.core c) (t.core c) ∧ OnlyCore c s t

/-- The same, lane by lane: each of the 512 / `w` lanes of width `w` is `f` of its number. -/
def ToLanes (c : CoreId) (vd : Reg) (w : Nat) (f : Nat → Nat) (s t : State) : Prop :=
  (∀ i, i < 512 / w → laneNat ((t.core c).getV vd) w i = f i % 2 ^ w) ∧
    (∀ r, r ≠ vd → (t.core c).getV r = (s.core c).getV r) ∧ (∀ r, (t.core c).getG r = (s.core c).getG r) ∧
    Retired ((s.core c).pc + 4) (s.core c) (t.core c) ∧ OnlyCore c s t

/-- Core `c` retired with no register changed and pc at `pc`. -/
def ToPc (c : CoreId) (pc : Word) (s t : State) : Prop :=
  (t.core c).g = (s.core c).g ∧ (t.core c).v = (s.core c).v ∧ Retired pc (s.core c) (t.core c) ∧ OnlyCore c s t

/-- Core `c` took a trap or an interrupt (R151): the mode, the address and the cause are saved, NEST is set, and it goes
on in RUNTIME mode at TVEC; its registers and everything else are as before. -/
def Entered (c : CoreId) (cause : Nat) (addr pc : Word) (s t : State) : Prop :=
  (t.core c).mode = .runtime ∧ (t.core c).prevMode = (s.core c).mode ∧ (t.core c).trapPc = pc ∧
    (t.core c).trapCause = BitVec.ofNat 64 cause ∧ (t.core c).trapAddr = addr ∧ (t.core c).nest = true ∧
    (t.core c).pc = (s.core c).tvec ∧
    { t.core c with mode := (s.core c).mode, prevMode := (s.core c).prevMode, trapPc := (s.core c).trapPc,
                    trapCause := (s.core c).trapCause, trapAddr := (s.core c).trapAddr, nest := (s.core c).nest,
                    pc := (s.core c).pc, stall := (s.core c).stall } = s.core c ∧ OnlyCore c s t

/-- `2^n` lanes from lane `lo` combined by the fixed tree: neighbours first, then neighbouring pairs. -/
def laneTree (op : Nat → Nat → Nat) (lane : Nat → Nat) : Nat → Nat → Nat
  | 0, lo => lane lo
  | n + 1, lo => op (laneTree op lane n lo) (laneTree op lane n (lo + 2 ^ n))

end Sys2Proof.Claims

open Sys2Proof Sys2Proof.Machine Sys2Proof.Claims

/-! ## The queue, reset and encodings -/

/-- A step on a queue with a command in front is that command on the state with the queue's rest. -/
def Obligations.StepTakesFrontCommand : Prop :=
  ∀ (c : Instr) (rest : List Instr) (s : State), step { s with pending := c :: rest } = exec c { s with pending := rest }

/-- Every word that the encoder gives an instruction decodes to it, at some core: no operand bit is dropped. -/
def Obligations.DecodeOfEncode : Prop :=
  ∀ (i : Instr) (w : BitVec 32), Instr.wf i = true → encode i = some w → ∃ c, decodeWord c w = some i

/-- Words written out from Tables 2.1 and 2.2 and Tables 2.13 to 2.18 decode to their instructions. -/
def Obligations.EncodedWords : Prop :=
  ∀ c : CoreId,
    decodeWord c 0x04221800 = some (.add c 1 2 3) ∧
    decodeWord c 0x08220010 = some (.addi c 1 2 16) ∧
    decodeWord c 0x40228008 = some (.lb c 1 2 0x8008) ∧
    decodeWord c 0x00000000 = none ∧
    decodeWord c 0xA0221803 = some (.vadd c .b64 1 2 3) ∧
    decodeWord c 0xE0000002 = some (.tret c) ∧
    decodeWord c 0xE0000FF9 = none

/-! ## Scalar instructions -/

/-- Opcode 0x01 (R790, Table 2.13). -/
def Sys2Proof.Claims.ScalarRegisterResults : Prop :=
  ∀ (c : CoreId) (rd rs1 rs2 : Reg) (s : State), s.canIssue c [.g rs1, .g rs2, .g rd] = true →
    let a := (s.core c).getG rs1
    let b := (s.core c).getG rs2
    Gives (.add c rd rs1 rs2) s (ToReg c rd (a + b) s) ∧
    Gives (.sub c rd rs1 rs2) s (ToReg c rd (a - b) s) ∧
    Gives (.and c rd rs1 rs2) s (ToReg c rd (a &&& b) s) ∧
    Gives (.or c rd rs1 rs2) s (ToReg c rd (a ||| b) s) ∧
    Gives (.xor c rd rs1 rs2) s (ToReg c rd (a ^^^ b) s) ∧
    Gives (.sll c rd rs1 rs2) s (ToReg c rd (a <<< (b.toNat % 64)) s) ∧
    Gives (.srl c rd rs1 rs2) s (ToReg c rd (a >>> (b.toNat % 64)) s) ∧
    Gives (.sra c rd rs1 rs2) s (ToReg c rd (a.sshiftRight (b.toNat % 64)) s) ∧
    Gives (.slt c rd rs1 rs2) s (ToReg c rd (if a.toInt < b.toInt then 1 else 0) s) ∧
    Gives (.sltu c rd rs1 rs2) s (ToReg c rd (if a.toNat < b.toNat then 1 else 0) s) ∧
    Gives (.mul c rd rs1 rs2) s (ToReg c rd (a * b) s) ∧
    Gives (.mulh c rd rs1 rs2) s (ToReg c rd ((a.signExtend 128 * b.signExtend 128).extractLsb' 64 64) s) ∧
    Gives (.mulhu c rd rs1 rs2) s (ToReg c rd ((a.setWidth 128 * b.setWidth 128).extractLsb' 64 64) s) ∧
    Gives (.div c rd rs1 rs2) s (ToReg c rd (if b = 0 then BitVec.allOnes 64 else a.sdiv b) s) ∧
    Gives (.divu c rd rs1 rs2) s (ToReg c rd (if b = 0 then BitVec.allOnes 64 else a.udiv b) s) ∧
    Gives (.rem c rd rs1 rs2) s (ToReg c rd (if b = 0 then a else a.srem b) s) ∧
    Gives (.remu c rd rs1 rs2) s (ToReg c rd (if b = 0 then a else a.umod b) s)

/-- Opcodes 0x02 to 0x09 (R79, R81, R798): an immediate is sign-extended. -/
def Sys2Proof.Claims.ScalarImmediateResults : Prop :=
  (∀ (c : CoreId) (rd rs1 : Reg) (i : BitVec 16) (s : State), s.canIssue c [.g rs1, .g rd] = true →
    let a := (s.core c).getG rs1
    Gives (.addi c rd rs1 i) s (ToReg c rd (a + i.signExtend 64) s) ∧
    Gives (.andi c rd rs1 i) s (ToReg c rd (a &&& i.signExtend 64) s) ∧
    Gives (.ori c rd rs1 i) s (ToReg c rd (a ||| i.signExtend 64) s) ∧
    Gives (.xori c rd rs1 i) s (ToReg c rd (a ^^^ i.signExtend 64) s) ∧
    Gives (.slti c rd rs1 i) s (ToReg c rd (if a.toInt < i.toInt then 1 else 0) s)) ∧
  (∀ (c : CoreId) (rd rs1 : Reg) (n : BitVec 6) (s : State), s.canIssue c [.g rs1, .g rd] = true →
    let a := (s.core c).getG rs1
    Gives (.slli c rd rs1 n) s (ToReg c rd (a <<< n.toNat) s) ∧
    Gives (.srli c rd rs1 n) s (ToReg c rd (a >>> n.toNat) s) ∧
    Gives (.srai c rd rs1 n) s (ToReg c rd (a.sshiftRight n.toNat) s)) ∧
  (∀ (c : CoreId) (rd : Reg) (i : BitVec 21) (s : State), s.canIssue c [.g rd] = true →
    Gives (.lui c rd i) s (ToReg c rd (i.signExtend 64 * 0x10000) s) ∧
    Gives (.auipc c rd i) s (ToReg c rd ((s.core c).pc + i.signExtend 64 * 0x1000) s))

/-- Every scalar integer instruction, register and immediate form. -/
def Obligations.ScalarIntegerResults : Prop := ScalarRegisterResults ∧ ScalarImmediateResults

/-- Opcodes 0x0A and 0x0B (R792, R793): results in rd, in the operations of chapter 04. -/
def Sys2Proof.Claims.ScalarFloatResults : Prop :=
  (∀ (c : CoreId) (f : FForm) (rd rs1 rs2 : Reg) (s : State), s.canIssue c [.g rs1, .g rs2, .g rd] = true →
    let t := FForm.fmt f
    let a := ((s.core c).getG rs1).toNat % 2 ^ t.width
    let b := ((s.core c).getG rs2).toNat % 2 ^ t.width
    let out (x : Nat) := ToReg c rd (BitVec.ofNat 64 (x % 2 ^ t.width)) s
    let flag (p : Bool) := ToReg c rd (if p then 1 else 0) s
    Gives (.fadd c f rd rs1 rs2) s (out (t.addC a b)) ∧
    Gives (.fsub c f rd rs1 rs2) s (out (t.subC a b)) ∧
    Gives (.fmul c f rd rs1 rs2) s (out (t.mulC a b)) ∧
    Gives (.fdiv c f rd rs1 rs2) s (out (t.divC a b)) ∧
    Gives (.fmin c f rd rs1 rs2) s (out (t.minC a b)) ∧
    Gives (.fmax c f rd rs1 rs2) s (out (t.maxC a b)) ∧
    Gives (.fcmpEq c f rd rs1 rs2) s (flag (t.eqC a b)) ∧
    Gives (.fcmpLt c f rd rs1 rs2) s (flag (t.ltC a b)) ∧
    Gives (.fcmpLe c f rd rs1 rs2) s (flag (t.leC a b)) ∧
    Gives (.fcmpUn c f rd rs1 rs2) s (flag (t.unC a b)) ∧
    Gives (.fmvSgn c f rd rs1 rs2) s (out (moveSign t a b (fun _ y => y))) ∧
    Gives (.fmvNeg c f rd rs1 rs2) s (out (moveSign t a b (fun _ y => !y))) ∧
    Gives (.fmvXor c f rd rs1 rs2) s (out (moveSign t a b (fun x y => x != y)))) ∧
  (∀ (c : CoreId) (f : FForm) (rd rs1 rs2 : Reg) (s : State), s.canIssue c [.g rs1, .g rd] = true →
    let t := FForm.fmt f
    let w := (s.core c).getG rs1
    let v := t.decode (w.toNat % 2 ^ t.width)
    let out (x : Nat) := ToReg c rd (BitVec.ofNat 64 (x % 2 ^ t.width)) s
    Gives (.fsqrt c f rd rs1 rs2) s (out (t.sqrtC (w.toNat % 2 ^ t.width))) ∧
    Gives (.fcvtToSigned c f rd rs1 rs2) s (ToReg c rd (BitVec.ofInt 64 (v.toIntSat (-(2 ^ 63)) (2 ^ 63 - 1))) s) ∧
    Gives (.fcvtToUnsigned c f rd rs1 rs2) s (ToReg c rd (BitVec.ofInt 64 (v.toIntSat 0 (2 ^ 64 - 1))) s) ∧
    Gives (.fcvtFromSigned c f rd rs1 rs2) s (out (t.round .rne (FVal.ofInt w.toInt)).code) ∧
    Gives (.fcvtFromUnsigned c f rd rs1 rs2) s (out (t.round .rne (FVal.ofInt w.toNat)).code) ∧
    Gives (.fcvtBetweenFormats c .s rd rs1 rs2) s
      (ToReg c rd (BitVec.ofNat 64 ((FFmt.convert .fp64 .fp32 .rne w.toNat).code % 2 ^ 32)) s) ∧
    Gives (.fcvtBetweenFormats c .d rd rs1 rs2) s
      (ToReg c rd (BitVec.ofNat 64 ((FFmt.convert .fp32 .fp64 .rne (w.toNat % 2 ^ 32)).code % 2 ^ 64)) s)) ∧
  (∀ (c : CoreId) (f : FForm) (rd rs1 rs2 rs3 : Reg) (s : State), s.canIssue c [.g rs1, .g rs2, .g rs3, .g rd] = true →
    let t := FForm.fmt f
    let a := ((s.core c).getG rs1).toNat % 2 ^ t.width
    let b := ((s.core c).getG rs2).toNat % 2 ^ t.width
    let d := ((s.core c).getG rs3).toNat % 2 ^ t.width
    let out (x : Nat) := ToReg c rd (BitVec.ofNat 64 (x % 2 ^ t.width)) s
    Gives (.fmadd c f rd rs1 rs2 rs3) s (out (t.fmaC a b d)) ∧
    Gives (.fmsub c f rd rs1 rs2 rs3) s (out (t.fmsC a b d)))

/-- A comparison with a NaN gives 0, FCMP.UN gives 1 (R792), and FMIN and FMAX return what they return for the
other operand alone (R240). -/
def Sys2Proof.Claims.FloatNanOperands : Prop :=
  ∀ (t : FFmt) (a b : Nat), t = .fp32 ∨ t = .fp64 → (t.decode a).isNan = true →
    t.eqC a b = false ∧ t.ltC a b = false ∧ t.leC a b = false ∧ t.unC a b = true ∧
    t.eqC b a = false ∧ t.ltC b a = false ∧ t.leC b a = false ∧ t.unC b a = true ∧
    t.addC a b = t.nan ∧ t.addC b a = t.nan ∧ t.mulC a b = t.nan ∧ t.mulC b a = t.nan ∧
    ((t.decode b).isNan = false → t.minC a b = t.minC b b ∧ t.minC b a = t.minC b b ∧
      t.maxC a b = t.maxC b b ∧ t.maxC b a = t.maxC b b)

/-- Every scalar floating-point instruction, and what it makes of NaN operands. -/
def Obligations.FloatInstructionResults : Prop := ScalarFloatResults ∧ FloatNanOperands

/-! ## Branches and jumps -/

/-- Branches and jumps (R79, R81): offsets count words of 4 bytes from the instruction's own address. -/
def Obligations.BranchAndJumpTargets : Prop :=
  (∀ (c : CoreId) (rs1 rs2 : Reg) (off : BitVec 16) (s : State), s.canIssue c [.g rs1, .g rs2] = true →
    let a := (s.core c).getG rs1
    let b := (s.core c).getG rs2
    let pc := (s.core c).pc
    let go (p : Prop) [Decidable p] := ToPc c (if p then pc + off.signExtend 64 * 4 else pc + 4) s
    Gives (.beq c rs1 rs2 off) s (go (a = b)) ∧
    Gives (.bne c rs1 rs2 off) s (go (a ≠ b)) ∧
    Gives (.blt c rs1 rs2 off) s (go (a.toInt < b.toInt)) ∧
    Gives (.bge c rs1 rs2 off) s (go (b.toInt ≤ a.toInt)) ∧
    Gives (.bltu c rs1 rs2 off) s (go (a.toNat < b.toNat)) ∧
    Gives (.bgeu c rs1 rs2 off) s (go (b.toNat ≤ a.toNat))) ∧
  (∀ (c : CoreId) (rd rs1 : Reg) (i : BitVec 21) (j : BitVec 16) (s : State),
    let pc := (s.core c).pc
    let jump (to' : Word) (t : State) := TookReg rd (pc + 4) (s.core c) (t.core c) ∧
      (∀ r, (t.core c).getV r = (s.core c).getV r) ∧ Retired to' (s.core c) (t.core c) ∧ OnlyCore c s t
    (s.canIssue c [.g rd] = true → Gives (.jal c rd i) s (jump (pc + i.signExtend 64 * 4))) ∧
    (s.canIssue c [.g rd, .g rs1] = true →
      Gives (.jalr c rd rs1 j) s (jump (((s.core c).getG rs1 + j.signExtend 64) &&& 0xFFFFFFFFFFFFFFFC))))

/-! ## Vector instructions -/

/-- Opcode 0x28 (R794, Table 2.16), lane by lane. -/
def Sys2Proof.Claims.VectorIntegerResults : Prop :=
  (∀ (c : CoreId) (w : LaneW) (vd vs1 vs2 : Reg) (s : State), s.canIssue c [.v vs1, .v vs2, .v vd] = true →
    let n := laneBits w
    let a := laneNat ((s.core c).getV vs1) n
    let b := laneNat ((s.core c).getV vs2) n
    let lanes (f : Nat → Nat) := ToLanes c vd n f s
    Gives (.vadd c w vd vs1 vs2) s (lanes fun i => a i + b i) ∧
    Gives (.vsub c w vd vs1 vs2) s (lanes fun i => a i + (2 ^ n - b i)) ∧
    Gives (.vmul c w vd vs1 vs2) s (lanes fun i => a i * b i) ∧
    Gives (.vmin c w vd vs1 vs2) s (lanes fun i => if laneInt n (b i) < laneInt n (a i) then b i else a i) ∧
    Gives (.vmax c w vd vs1 vs2) s (lanes fun i => if laneInt n (a i) < laneInt n (b i) then b i else a i) ∧
    Gives (.vminu c w vd vs1 vs2) s (lanes fun i => min (a i) (b i)) ∧
    Gives (.vmaxu c w vd vs1 vs2) s (lanes fun i => max (a i) (b i)) ∧
    Gives (.vsll c w vd vs1 vs2) s (lanes fun i => a i * 2 ^ (b i % n)) ∧
    Gives (.vsrl c w vd vs1 vs2) s (lanes fun i => a i / 2 ^ (b i % n)) ∧
    Gives (.vsra c w vd vs1 vs2) s (lanes fun i => ((BitVec.ofNat n (a i)).sshiftRight (b i % n)).toNat) ∧
    Gives (.vcmpeq c w vd vs1 vs2) s (lanes fun i => if a i = b i then 2 ^ n - 1 else 0) ∧
    Gives (.vcmplt c w vd vs1 vs2) s (lanes fun i => if laneInt n (a i) < laneInt n (b i) then 2 ^ n - 1 else 0) ∧
    Gives (.vand c w vd vs1 vs2) s (ToVec c vd ((s.core c).getV vs1 &&& (s.core c).getV vs2) s) ∧
    Gives (.vor c w vd vs1 vs2) s (ToVec c vd ((s.core c).getV vs1 ||| (s.core c).getV vs2) s) ∧
    Gives (.vxor c w vd vs1 vs2) s (ToVec c vd ((s.core c).getV vs1 ^^^ (s.core c).getV vs2) s)) ∧
  (∀ (c : CoreId) (w : LaneW) (vd vs1 vs2 vs3 : Reg) (s : State),
    s.canIssue c [.v vs1, .v vs2, .v vs3, .v vd] = true →
    let n := laneBits w
    Gives (.vmla c w vd vs1 vs2 vs3) s (ToLanes c vd n (fun i =>
      laneNat ((s.core c).getV vs1) n i * laneNat ((s.core c).getV vs2) n i + laneNat ((s.core c).getV vs3) n i) s))

/-- Opcodes 0x29 and 0x2A (R795, R796): each lane by the operation of its format (R241). -/
def Sys2Proof.Claims.VectorFloatResults : Prop :=
  (∀ (c : CoreId) (f : LaneF) (vd vs1 vs2 : Reg) (s : State), s.canIssue c [.v vs1, .v vs2, .v vd] = true →
    let t := LaneF.fmt f
    let a := laneNat ((s.core c).getV vs1) t.width
    let b := laneNat ((s.core c).getV vs2) t.width
    let lanes (g : Nat → Nat) := ToLanes c vd t.width g s
    Gives (.vfadd c f vd vs1 vs2) s (lanes fun i => laneOp2 f FFmt.addC (a i) (b i)) ∧
    Gives (.vfsub c f vd vs1 vs2) s (lanes fun i => laneOp2 f FFmt.subC (a i) (b i)) ∧
    Gives (.vfmul c f vd vs1 vs2) s (lanes fun i => laneOp2 f FFmt.mulC (a i) (b i)) ∧
    Gives (.vfdiv c f vd vs1 vs2) s (lanes fun i => laneOp2 f FFmt.divC (a i) (b i)) ∧
    Gives (.vfmin c f vd vs1 vs2) s (lanes fun i => laneOp2 f FFmt.minC (a i) (b i)) ∧
    Gives (.vfmax c f vd vs1 vs2) s (lanes fun i => laneOp2 f FFmt.maxC (a i) (b i)) ∧
    Gives (.vfcmpeq c f vd vs1 vs2) s (lanes fun i => if t.eqC (a i) (b i) then 2 ^ t.width - 1 else 0) ∧
    Gives (.vfcmplt c f vd vs1 vs2) s (lanes fun i => if t.ltC (a i) (b i) then 2 ^ t.width - 1 else 0) ∧
    Gives (.vfcmple c f vd vs1 vs2) s (lanes fun i => if t.leC (a i) (b i) then 2 ^ t.width - 1 else 0)) ∧
  (∀ (c : CoreId) (f : LaneF) (vd vs1 : Reg) (s : State), s.canIssue c [.v vs1, .v vd] = true →
    let t := LaneF.fmt f
    Gives (.vfsqrt c f vd vs1) s (ToLanes c vd t.width (fun i =>
      let x := laneNat ((s.core c).getV vs1) t.width i
      laneOp2 f (fun g y _ => g.sqrtC y) x x) s)) ∧
  (∀ (c : CoreId) (f : LaneF) (vd vs1 vs2 vs3 : Reg) (s : State),
    s.canIssue c [.v vs1, .v vs2, .v vs3, .v vd] = true →
    let t := LaneF.fmt f
    let lanes (op : FFmt → Nat → Nat → Nat → Nat) := ToLanes c vd t.width (fun i =>
      laneOp3 f op (laneNat ((s.core c).getV vs1) t.width i) (laneNat ((s.core c).getV vs2) t.width i)
        (laneNat ((s.core c).getV vs3) t.width i)) s
    Gives (.vfma c f vd vs1 vs2 vs3) s (lanes FFmt.fmaC) ∧
    Gives (.vfms c f vd vs1 vs2 vs3) s (lanes FFmt.fmsC) ∧
    Gives (.vfnma c f vd vs1 vs2 vs3) s (lanes FFmt.fnmaC))

/-- Every vector instruction that works lane by lane. -/
def Obligations.VectorLaneResults : Prop := VectorIntegerResults ∧ VectorFloatResults

/-- Reductions (R797, R243): the fixed tree over the lanes, in the lowest lane, with 0 above. -/
def Sys2Proof.Claims.VectorReductionResults : Prop :=
  ∀ (c : CoreId) (vd vs1 : Reg) (s : State), s.canIssue c [.v vs1, .v vd] = true →
    let x := (s.core c).getV vs1
    let sum (w n : Nat) (op : Nat → Nat → Nat) :=
      ToVec c vd (BitVec.ofNat 512 (laneTree op (laneNat x w) n 0 % 2 ^ w)) s
    Gives (.vrsumS c vd vs1) s (sum 32 4 FFmt.fp32.addC) ∧
    Gives (.vrsumD c vd vs1) s (sum 64 3 FFmt.fp64.addC) ∧
    Gives (.vrmaxS c vd vs1) s (sum 32 4 FFmt.fp32.maxC) ∧
    Gives (.vrminS c vd vs1) s (sum 32 4 FFmt.fp32.minC) ∧
    Gives (.vrmaxD c vd vs1) s (sum 64 3 FFmt.fp64.maxC) ∧
    Gives (.vrminD c vd vs1) s (sum 64 3 FFmt.fp64.minC) ∧
    Gives (.vrsumW c vd vs1) s (sum 32 4 (· + ·)) ∧
    Gives (.vrsumL c vd vs1) s (sum 64 3 (· + ·))

/-- Permutes, moves and conversions of opcode 0x2D (R797, Table 2.18; R242, R244). The contents of an MX block that holds
a NaN are the model's free value (log 12), so the statement leaves the value drawn open. -/
def Sys2Proof.Claims.VectorMoveAndConvertResults : Prop :=
  (∀ (c : CoreId) (vd vs1 vs2 : Reg) (s : State), s.canIssue c [.v vs1, .v vs2, .v vd] = true →
    Gives (.vpermB c vd vs1 vs2) s (ToLanes c vd 8 (fun i =>
      laneNat ((s.core c).getV vs1) 8 (laneNat ((s.core c).getV vs2) 8 i % 64)) s)) ∧
  (∀ (c : CoreId) (vd rs1 vs3 : Reg) (s : State), s.canIssue c [.g rs1, .v vd] = true →
    Gives (.vinsD c vd rs1 vs3) s (ToLanes c vd 64 (fun i =>
      if i = vs3.toNat % 8 then ((s.core c).getG rs1).toNat else laneNat ((s.core c).getV vd) 64 i) s) ∧
    Gives (.vbcastD c vd rs1) s (ToLanes c vd 64 (fun _ => ((s.core c).getG rs1).toNat) s) ∧
    Gives (.vbcastW c vd rs1) s (ToLanes c vd 32 (fun _ => ((s.core c).getG rs1).toNat % 2 ^ 32) s)) ∧
  (∀ (c : CoreId) (rd vs2 vs3 : Reg) (s : State), s.canIssue c [.v vs2, .g rd] = true →
    Gives (.vextD c rd vs2 vs3) s
      (ToReg c rd (BitVec.ofNat 64 (laneNat ((s.core c).getV vs2) 64 (vs3.toNat % 8))) s)) ∧
  (∀ (c : CoreId) (tz : Bool) (vd vs1 : Reg) (s : State), s.canIssue c [.v vs1, .v vd] = true →
    let x := (s.core c).getV vs1
    let r : Rnd := if tz then .rtz else .rne
    let to' (src dst : FFmt) (n : Nat) (r : Rnd) := ToLanes c vd dst.width (fun i =>
      if i < n then (FFmt.convert src dst r (laneNat x src.width i)).code else 0) s
    Gives (.vcvtBfS c tz vd vs1) s (to' .fp32 .bf16 16 r) ∧
    Gives (.vcvtHS c tz vd vs1) s (to' .fp32 .fp16 16 r) ∧
    Gives (.vcvtE4S c tz vd vs1) s (to' .fp32 .e4m3 16 r) ∧
    Gives (.vcvtE5S c tz vd vs1) s (to' .fp32 .e5m2 16 r) ∧
    Gives (.vcvtSBf c vd vs1) s (to' .bf16 .fp32 16 .rne) ∧
    Gives (.vcvtSH c vd vs1) s (to' .fp16 .fp32 16 .rne) ∧
    Gives (.vcvtDS c vd vs1) s (to' .fp32 .fp64 8 .rne) ∧
    Gives (.vcvtSD c vd vs1) s (to' .fp64 .fp32 8 .rne) ∧
    Gives (.vcvtWS c vd vs1) s (ToLanes c vd 32 (fun i =>
      (BitVec.ofInt 32 ((FFmt.fp32.decode (laneNat x 32 i)).toIntSat (-(2 ^ 31)) (2 ^ 31 - 1))).toNat) s) ∧
    Gives (.vcvtLD c vd vs1) s (ToLanes c vd 64 (fun i =>
      (BitVec.ofInt 64 ((FFmt.fp64.decode (laneNat x 64 i)).toIntSat (-(2 ^ 63)) (2 ^ 63 - 1))).toNat) s) ∧
    Gives (.vcvtSW c vd vs1) s (ToLanes c vd 32 (fun i =>
      (FFmt.fp32.round .rne (FVal.ofInt (laneInt 32 (laneNat x 32 i)))).code) s) ∧
    Gives (.vcvtDL c vd vs1) s (ToLanes c vd 64 (fun i =>
      (FFmt.fp64.round .rne (FVal.ofInt (laneInt 64 (laneNat x 64 i)))).code) s)) ∧
  (∀ (c : CoreId) (m : MxFmt) (vd vs1 : Reg) (s : State),
    s.canIssue c [.v vs1, .v (vs1 + 1), .v vd] = true → vs1.getLsbD 0 = false →
    Gives (.vcvtMx c m vd vs1) s (fun t => ∃ free : VWord,
      ToVec c vd (mxResult (s.core c) m free vs1) { s with freeCount := s.freeCount + 1 } t))

/-- Vector reductions, moves and conversions. -/
def Obligations.VectorReduceMoveConvert : Prop := VectorReductionResults ∧ VectorMoveAndConvertResults

/-! ## Loads, stores and atomics -/

namespace Sys2Proof.Claims

/-- The access that core `k` puts in flight. -/
def newAccess (k : Core) (kind : MemKind) (a : Word) (off len : Nat) (vec : Bool) (bytes : List Byte) : MemOp :=
  { id := k.nextId, kind := kind, pc := k.pc, addr := a, off := off, len := len, parts := accessParts vec off len false,
    bytes := bytes, poisoned := false }

/-- Core `c` issued an access that its home will perform: pc has moved on, the access is in flight after the older ones,
and no register, byte of memory or other core changed. -/
def InFlight (c : CoreId) (kind : MemKind) (a : Word) (off len : Nat) (vec : Bool) (bytes : List Byte) (s t : State) :
    Prop :=
  (t.core c).memops = (s.core c).memops ++ [newAccess (s.core c) kind a off len vec bytes] ∧
    (t.core c).pc = (s.core c).pc + 4 ∧
    { t.core c with memops := (s.core c).memops, nextId := (s.core c).nextId, pc := (s.core c).pc,
                    stall := (s.core c).stall, coreProgress := (s.core c).coreProgress, pmu := (s.core c).pmu,
                    intPending := (s.core c).intPending, intAddr := (s.core c).intAddr } = s.core c ∧
    OnlyCore c s t

end Sys2Proof.Claims

/-- Loads, stores, VLD, VST and atomics issue to the home of their address where no check stops them (R82 to R84, R87). -/
def Sys2Proof.Claims.AccessesIssue : Prop :=
  ∀ (c : CoreId) (rd rs1 rs2 : Reg) (i : BitVec 16) (off : Nat) (s : State), 
    let a := (s.core c).getG rs1 + i.signExtend 64
    let b := (s.core c).getG rs1
    let x := (s.core c).getG rs2
    (∀ (op : Instr) (len : Nat) (sg : Bool),
      (op, len, sg) ∈ [(Instr.lb c rd rs1 i, 1, true), (.lbu c rd rs1 i, 1, false), (.lh c rd rs1 i, 2, true),
        (.lhu c rd rs1 i, 2, false), (.lw c rd rs1 i, 4, true), (.lwu c rd rs1 i, 4, false), (.ld c rd rs1 i, 8, true)] →
      s.canIssue c [.g rs1, .g rd] = true → s.checkAccess c a len false false false = .ok off false →
      s.inCave off len = false →
      Gives op s (InFlight c (.load rd sg) a off len false (List.replicate len 0) s)) ∧
    (∀ (op : Instr) (len : Nat),
      (op, len) ∈ [(Instr.sb c rs2 rs1 i, 1), (.sh c rs2 rs1 i, 2), (.sw c rs2 rs1 i, 4), (.sd c rs2 rs1 i, 8)] →
      s.canIssue c [.g rs1, .g rs2] = true → s.checkAccess c a len true false false = .ok off false →
      s.inCave off len = false → s.storeRefused c off = false →
      Gives op s (InFlight c .store a off len false (leBytes len x.toNat) s)) ∧
    (∀ (op : Instr) (len : Nat) (k : AmoOp),
      (op, len, k) ∈ [(Instr.amoadd c .w rd rs1 rs2, 4, AmoOp.add), (.amoadd c .d rd rs1 rs2, 8, .add),
        (.amomin c .w rd rs1 rs2, 4, .min), (.amomin c .d rd rs1 rs2, 8, .min),
        (.amomax c .w rd rs1 rs2, 4, .max), (.amomax c .d rd rs1 rs2, 8, .max),
        (.amominu c .w rd rs1 rs2, 4, .minu), (.amominu c .d rd rs1 rs2, 8, .minu),
        (.amomaxu c .w rd rs1 rs2, 4, .maxu), (.amomaxu c .d rd rs1 rs2, 8, .maxu),
        (.amoswap c .w rd rs1 rs2, 4, .swap), (.amoswap c .d rd rs1 rs2, 8, .swap),
        (.amocas c .w rd rs1 rs2, 4, .cas), (.amocas c .d rd rs1 rs2, 8, .cas),
        (.amofaddS c rd rs1 rs2, 4, .faddS), (.amofaddBf c rd rs1 rs2, 2, .faddBf)] →
      s.canIssue c [.g rs1, .g rs2, .g rd] = true →
      (∃ cached, s.checkAccess c b len true false true = .ok off cached) → s.inCave off len = false →
      s.storeRefused c off = false →
      Gives op s (InFlight c (.amo k rd x ((s.core c).getG rd)) b off len false (List.replicate len 0) s)) ∧
    (s.canIssue c [.g rs1, .v rd] = true → s.checkAccess c b 64 false true false = .ok off false →
      s.inCave off 64 = false →
      Gives (.vld c rd rs1) s (InFlight c (.vload rd) b off 64 true (List.replicate 64 0) s)) ∧
    (s.canIssue c [.g rs1, .v rd] = true → s.checkAccess c b 64 true true false = .ok off false →
      s.inCave off 64 = false → s.storeRefused c off = false →
      Gives (.vst c rd rs1) s (InFlight c .store b off 64 true (lineBytes ((s.core c).getV rd)) s))

/-- An access that a check refuses takes the check's trap and performs nothing: the address, pc and cause are saved (R83,
R84, R87, R151). -/
def Sys2Proof.Claims.RefusedAccessesTrap : Prop :=
  ∀ (c : CoreId) (rd rs1 rs2 : Reg) (i : BitVec 16) (cause : Nat) (s : State), (s.core c).nest = false →
    let a := (s.core c).getG rs1 + i.signExtend 64
    let b := (s.core c).getG rs1
    (∀ (op : Instr) (len : Nat),
      (op, len) ∈ [(Instr.lb c rd rs1 i, 1), (.lbu c rd rs1 i, 1), (.lh c rd rs1 i, 2), (.lhu c rd rs1 i, 2),
        (.lw c rd rs1 i, 4), (.lwu c rd rs1 i, 4), (.ld c rd rs1 i, 8)] →
      s.canIssue c [.g rs1, .g rd] = true → s.checkAccess c a len false false false = .trap cause →
      Gives op s (Entered c cause a (s.core c).pc s)) ∧
    (∀ (op : Instr) (len : Nat),
      (op, len) ∈ [(Instr.sb c rs2 rs1 i, 1), (.sh c rs2 rs1 i, 2), (.sw c rs2 rs1 i, 4), (.sd c rs2 rs1 i, 8)] →
      s.canIssue c [.g rs1, .g rs2] = true → s.checkAccess c a len true false false = .trap cause →
      Gives op s (Entered c cause a (s.core c).pc s)) ∧
    (s.canIssue c [.g rs1, .v rd] = true → s.checkAccess c b 64 false true false = .trap cause →
      Gives (.vld c rd rs1) s (Entered c cause b (s.core c).pc s)) ∧
    (s.canIssue c [.g rs1, .v rd] = true → s.checkAccess c b 64 true true false = .trap cause →
      Gives (.vst c rd rs1) s (Entered c cause b (s.core c).pc s)) ∧
    (s.canIssue c [.g rs1, .g rs2, .g rd] = true → s.checkAccess c b 8 true false true = .trap cause →
      Gives (.amoadd c .d rd rs1 rs2) s (Entered c cause b (s.core c).pc s) ∧
      Gives (.amoswap c .d rd rs1 rs2) s (Entered c cause b (s.core c).pc s) ∧
      Gives (.amocas c .d rd rs1 rs2) s (Entered c cause b (s.core c).pc s))

/-- Loads, stores and atomics issue, or trap where an access is refused. -/
def Obligations.AccessesIssueOrTrap : Prop := AccessesIssue ∧ RefusedAccessesTrap

/-- An aligned load of a Vat, issued, performed at its home and returned, puts the bytes there into its register, in
little-endian order, and changes no memory (R82, R250). -/
def Sys2Proof.Claims.VatLoadReturnsItsBytes : Prop :=
  ∀ (c o : CoreId) (rd rs1 : Reg) (i : BitVec 16) (off r : Nat) (s : State) (op : Instr) (len : Nat) (sg : Bool),
    (op, len, sg) ∈ [(Instr.lb c rd rs1 i, 1, true), (.lbu c rd rs1 i, 1, false), (.lh c rd rs1 i, 2, true),
      (.lhu c rd rs1 i, 2, false), (.lw c rd rs1 i, 4, true), (.lwu c rd rs1 i, 4, false), (.ld c rd rs1 i, 8, true)] →
    s.canIssue c [.g rs1, .g rd] = true → (s.core c).memops = [] →
    s.checkAccess c ((s.core c).getG rs1 + i.signExtend 64) len false false false = .ok off false →
    s.inCave off len = false → off % len = 0 → spaceOf off = .vat o r → s.vatLost off = false →
    s.rangePoisoned off len = false → s.requestWaits c off = false → s.responseWaits c off = false →
    ∃ t, runAll s [op, .homeAccess (.access c (s.core c).nextId 0) 0 0, .memoryResponse c (s.core c).nextId] = some t ∧
      TookReg rd (let b := BitVec.ofNat (8 * len) (leValue (Memory.read s.mem off len))
                  if sg then b.signExtend 64 else b.setWidth 64) (s.core c) (t.core c) ∧
      (t.core c).memops = [] ∧ (t.core c).pc = (s.core c).pc + 4 ∧ SameMem s t

/-- An aligned store to a Vat, issued and performed at its home, writes its bytes there and no others (R82, R250). -/
def Sys2Proof.Claims.VatStoreWritesItsBytes : Prop :=
  ∀ (c o : CoreId) (rs2 rs1 : Reg) (i : BitVec 16) (off r : Nat) (s : State) (op : Instr) (len : Nat),
    (op, len) ∈ [(Instr.sb c rs2 rs1 i, 1), (.sh c rs2 rs1 i, 2), (.sw c rs2 rs1 i, 4), (.sd c rs2 rs1 i, 8)] →
    s.canIssue c [.g rs1, .g rs2] = true → (s.core c).memops = [] →
    s.checkAccess c ((s.core c).getG rs1 + i.signExtend 64) len true false false = .ok off false →
    s.inCave off len = false → s.storeRefused c off = false → off % len = 0 → spaceOf off = .vat o r →
    s.vatLost off = false → s.requestWaits c off = false →
    ∃ t, runAll s [op, .homeAccess (.access c (s.core c).nextId 0) 0 0] = some t ∧
      (∀ j, j < len → Memory.byte t.mem (off + j) = ((s.core c).getG rs2).extractLsb' (8 * j) 8) ∧
      (∀ a, a < off ∨ off + len ≤ a → Memory.byte t.mem a = Memory.byte s.mem a) ∧
      (t.core c).g = (s.core c).g ∧ (t.core c).v = (s.core c).v ∧ (t.core c).memops = [] ∧
      (t.core c).pc = (s.core c).pc + 4

namespace Sys2Proof.Claims

/-- What an integer atomic leaves in memory (05 Table 5.6): of the old value and its operand, in `w` bits. -/
def amoNew (k : AmoOp) (w : Nat) (old x cmp : BitVec w) : BitVec w :=
  match k with
  | .add => old + x
  | .min => if x.toInt ≤ old.toInt then x else old
  | .max => if old.toInt ≤ x.toInt then x else old
  | .minu => if x.toNat ≤ old.toNat then x else old
  | .maxu => if old.toNat ≤ x.toNat then x else old
  | .swap => x
  | .cas => if old = cmp then x else old
  | .faddS => BitVec.ofNat w (FFmt.fp32.addC old.toNat x.toNat)
  | .faddBf => BitVec.ofNat w (FFmt.bf16.addC old.toNat x.toNat)

end Sys2Proof.Claims

/-- An atomic on a Vat, issued, performed and returned: memory takes the new value, rd the old one, sign-extended for the
4-byte integer forms and zero-extended for AMOFADD; other bytes keep their values (R279, R280, R791). -/
def Sys2Proof.Claims.VatAtomicReadsAndWrites : Prop :=
  ∀ (c o : CoreId) (rd rs1 rs2 : Reg) (off r : Nat) (s : State) (op : Instr) (len : Nat) (k : AmoOp),
    (op, len, k) ∈ [(Instr.amoadd c .w rd rs1 rs2, 4, AmoOp.add), (.amoadd c .d rd rs1 rs2, 8, .add),
      (.amomin c .w rd rs1 rs2, 4, .min), (.amomin c .d rd rs1 rs2, 8, .min),
      (.amomax c .w rd rs1 rs2, 4, .max), (.amomax c .d rd rs1 rs2, 8, .max),
      (.amominu c .w rd rs1 rs2, 4, .minu), (.amominu c .d rd rs1 rs2, 8, .minu),
      (.amomaxu c .w rd rs1 rs2, 4, .maxu), (.amomaxu c .d rd rs1 rs2, 8, .maxu),
      (.amoswap c .w rd rs1 rs2, 4, .swap), (.amoswap c .d rd rs1 rs2, 8, .swap),
      (.amocas c .w rd rs1 rs2, 4, .cas), (.amocas c .d rd rs1 rs2, 8, .cas),
      (.amofaddS c rd rs1 rs2, 4, .faddS), (.amofaddBf c rd rs1 rs2, 2, .faddBf)] →
    s.canIssue c [.g rs1, .g rs2, .g rd] = true → (s.core c).memops = [] →
    (∃ cached, s.checkAccess c ((s.core c).getG rs1) len true false true = .ok off cached) → s.inCave off len = false →
    s.storeRefused c off = false → off % len = 0 → spaceOf off = .vat o r → s.vatLost off = false →
    (s.core c).line (off / 64) = none → s.rangePoisoned off len = false → s.requestWaits c off = false →
    s.responseWaits c off = false →
    let w := 8 * len
    let old := BitVec.ofNat w (leValue (Memory.read s.mem off len))
    ∃ t, runAll s [op, .homeAccess (.access c (s.core c).nextId 0) 0 0, .memoryResponse c (s.core c).nextId] = some t ∧
      BitVec.ofNat w (leValue (Memory.read t.mem off len)) =
        amoNew k w old (((s.core c).getG rs2).setWidth w) (((s.core c).getG rd).setWidth w) ∧
      TookReg rd (if k = .faddS ∨ k = .faddBf then old.setWidth 64 else old.signExtend 64) (s.core c) (t.core c) ∧
      (∀ a, a < off ∨ off + len ≤ a → Memory.byte t.mem a = Memory.byte s.mem a)

/-- Loads, stores and atomics of a Vat as they are performed. -/
def Obligations.VatAccessesComplete : Prop := VatLoadReturnsItsBytes ∧ VatStoreWritesItsBytes ∧ VatAtomicReadsAndWrites

/-- A load or store that hits the data cache is performed at once on the line; a fill that its home has read lands as a clean line with the
bytes that it read, and where the set is full one of its lines, not the most recently used, is written back and dropped first (R98, R253,
R789; 05 R254, R255). -/
def Sys2Proof.Claims.CacheHitsAndFills : Prop :=
  (∀ (c : CoreId) (rd rs1 : Reg) (i : BitVec 16) (off : Nat) (l : CLine) (s : State),
    s.canIssue c [.g rs1, .g rd] = true →
    s.checkAccess c ((s.core c).getG rs1 + i.signExtend 64) 8 false false false = .ok off true →
    s.inCave off 8 = false → off % 8 = 0 → (s.core c).memops = [] → (s.core c).fills.length ≤ 32 →
    (s.core c).line (off / 64) = some l → l.poison = 0 →
    Gives (.ld c rd rs1 i) s (fun t =>
      TookReg rd (BitVec.ofNat 64 (leValue (((lineBytes l.data).drop (off % 64)).take 8))) (s.core c) (t.core c) ∧
      (t.core c).pc = (s.core c).pc + 4 ∧ (t.core c).memops = [] ∧ OnlyCore c s t)) ∧
  (∀ (c : CoreId) (rs2 rs1 : Reg) (i : BitVec 16) (off : Nat) (l : CLine) (s : State),
    s.canIssue c [.g rs1, .g rs2] = true →
    s.checkAccess c ((s.core c).getG rs1 + i.signExtend 64) 8 true false false = .ok off true →
    s.inCave off 8 = false → s.storeRefused c off = false → off % 8 = 0 → (s.core c).memops = [] →
    (s.core c).fills.length ≤ 32 → (s.core c).line (off / 64) = some l →
    let in' (j : Nat) : Prop := off % 64 ≤ j ∧ j < off % 64 + 8
    Gives (.sd c rs2 rs1 i) s (fun t => (∃ x, (t.core c).line (off / 64) = some x ∧ ∀ j, j < 64 →
        (in' j → x.dirty.getLsbD j = true ∧
          x.data.extractLsb' (8 * j) 8 = ((s.core c).getG rs2).extractLsb' (8 * (j - off % 64)) 8) ∧
        (¬ in' j → x.dirty.getLsbD j = l.dirty.getLsbD j ∧ x.data.extractLsb' (8 * j) 8 = l.data.extractLsb' (8 * j) 8)) ∧
      (∀ n, n ≠ off / 64 → (t.core c).line n = (s.core c).line n) ∧ (t.core c).g = (s.core c).g ∧
      (t.core c).pc = (s.core c).pc + 4 ∧ (t.core c).memops = [] ∧ OnlyCore c s t)) ∧
  (∀ (c : CoreId) (line : Nat) (f : Fill) (rest : List Fill) (d : VWord) (p : BitVec 8) (s : State),
    takeFirst (fun x => x.line == line) (s.core c).fills = some (f, rest) → f.read = some (d, p) →
    s.responseWaits c (64 * line) = false →
    let same := (s.core c).cache.filter (fun e => e.1 % 1024 = line % 1024)
    (same.length < 4 → (s.core c).memops = [] →
      Gives (.cacheFillLand c line) s (fun t =>
        (t.core c).line line = some { data := d, dirty := 0, poison := p } ∧
        (∀ n, n ≠ line → (t.core c).line n = (s.core c).line n) ∧ (t.core c).fills = rest ∧
        (t.core c).g = (s.core c).g ∧ OnlyCore c s t)) ∧
    (4 ≤ same.length → Tab.wf none (s.core c).cache = true → (s.core c).memops = [] →
      Gives (.cacheFillLand c line) s (fun t =>
        (t.core c).line line = some { data := d, dirty := 0, poison := p } ∧ (t.core c).fills = rest ∧
        (t.core c).g = (s.core c).g ∧ (∀ o : CoreId, o ≠ c → t.core o = s.core o) ∧
        ∃ v l, v % 1024 = line % 1024 ∧ Tab.get none (s.core c).recent (line % 1024) ≠ some v ∧
          (s.core c).line v = some l ∧ (v ≠ line → (t.core c).line v = none) ∧
          (∀ n, n ≠ line → n ≠ v → (t.core c).line n = (s.core c).line n) ∧
          (∀ a, a / 64 ≠ v → Memory.byte t.mem a = Memory.byte s.mem a) ∧
          (s.channelFailed (64 * v) = false → ∀ j, j < 64 → Memory.byte t.mem (64 * v + j) =
            if l.dirty.getLsbD j = true then l.data.extractLsb' (8 * j) 8 else Memory.byte s.mem (64 * v + j)))) ∧
    (∀ (m : MemOp) (q : MemPart) (rd : Reg) (sg : Bool), same.length < 4 → (s.core c).memops = [m] → m.kind = .load rd sg →
      m.parts = [q] → q.cached = true → q.performed = false → (m.off + q.rel) / 64 = line →
      Gives (.cacheFillLand c line) s (fun t => ∃ x, (t.core c).memops = [x] ∧ x.id = m.id ∧ x.allDone = true ∧
        x.bytes = spliceBytes m.bytes q.rel (((lineBytes d).drop ((m.off + q.rel) % 64)).take q.len) ∧
        (t.core c).g = (s.core c).g ∧ SameMem s t)))

namespace Sys2Proof.Claims

/-- A core's request reaches a home that takes it: nothing on the way holds it, and the home is a Vat of a core that serves, in a region
out of reset, or a channel of HBM that answers and in which no symbol is in error. -/
def Reaches (c : CoreId) (s : State) (off : Nat) : Prop :=
  s.requestWaits c off = false ∧
    ((∃ o r, spaceOf off = .vat o r ∧ s.vatLost off = false) ∨
      (spaceOf off = .hbm ∧ (∀ a, a / 64 = off / 64 → s.channelFailed a = false) ∧ s.symbolErrs = []))

/-- Each byte of a line is as it was, or as a write with a mask has left it; all of the write is there where `whole` holds; other bytes
are as before. -/
def LandedIn (line : Nat) (data : VWord) (on : BitVec 64) (whole : Prop) (s t : State) : Prop :=
  (∀ j, j < 64 →
    (on.getLsbD j = false → Memory.byte t.mem (64 * line + j) = Memory.byte s.mem (64 * line + j)) ∧
    (on.getLsbD j = true → whole → Memory.byte t.mem (64 * line + j) = data.extractLsb' (8 * j) 8) ∧
    (Memory.byte t.mem (64 * line + j) = Memory.byte s.mem (64 * line + j) ∨
      Memory.byte t.mem (64 * line + j) = data.extractLsb' (8 * j) 8)) ∧
  ∀ a, a / 64 ≠ line → Memory.byte t.mem a = Memory.byte s.mem a

end Sys2Proof.Claims

/-- Data that returns reaches its register, and the access leaves the list of those in flight; a part of a load, store or atomic, once its
home may perform it, reads or writes there; so do a line fill, a write-back, a line of D and the lines that a Ladle transaction of this
chip reads and writes, a masked line in any pieces (R250, R254, R258, R259, R268; 02 R789; 03 R178). -/
def Sys2Proof.Claims.HomesPerformAndReturn : Prop :=
  (∀ (c : CoreId) (id : Nat) (m : MemOp) (rest : List MemOp) (s : State),
    takeFirst (fun x => x.id == id) (s.core c).memops = some (m, rest) → m.allDone = true → m.kind ≠ .store →
    (∀ p ∈ m.parts, s.responseWaits c (m.off + p.rel) = false) →
    let b := BitVec.ofNat (8 * m.bytes.length) (leValue m.bytes)
    Gives (.memoryResponse c id) s (fun t =>
      (∀ rd sg, m.kind = .load rd sg →
        TookReg rd (if sg then b.signExtend 64 else b.setWidth 64) (s.core c) (t.core c)) ∧
      (∀ vd, m.kind = .vload vd → TookVec vd (bytesVec m.bytes) (s.core c) (t.core c) ∧ (t.core c).g = (s.core c).g) ∧
      (∀ op rd x y, m.kind = .amo op rd x y → TookReg rd
        (if op = .faddS ∨ op = .faddBf then b.setWidth 64 else b.signExtend 64) (s.core c) (t.core c)) ∧
      (t.core c).memops = rest ∧
      (t.core c).poison = (s.core c).poison ++ (if m.poisoned = true then [{ addr := m.addr, reg := m.dest }] else []) ∧
      OnlyCore c s t)) ∧
  (∀ (c : CoreId) (id pi : Nat) (m : MemOp) (p : MemPart) (s : State),
    (s.core c).memops.find? (fun x => decide (x.id = id)) = some m → m.parts[pi]? = some p →
    p.performed = false → p.cached = false → (s.core c).mayPerform m (m.off + p.rel) p.len = true →
    Reaches c s (m.off + p.rel) → (m.off + p.rel) % 64 + p.len ≤ 64 → p.rel + p.len ≤ m.bytes.length →
    let off := m.off + p.rel
    let old := BitVec.ofNat (8 * p.len) (leValue (Memory.read s.mem off p.len))
    let reads (t : State) := ∃ x, (t.core c).memops.find? (fun x => decide (x.id = id)) = some x ∧
      x.parts[pi]? = some { p with performed := true } ∧
      ∀ j, j < p.len → x.bytes.getD (p.rel + j) 0 = Memory.byte s.mem (off + j)
    let rest (t : State) := (∀ a, a < off ∨ off + p.len ≤ a → Memory.byte t.mem a = Memory.byte s.mem a) ∧
      (∀ x : CoreId, x ≠ c → t.core x = s.core x) ∧ (t.core c).g = (s.core c).g
    (m.kind = .store → Gives (.homeAccess (.access c id pi) 0 0) s (fun t =>
      (∀ j, j < p.len → Memory.byte t.mem (off + j) = m.bytes.getD (p.rel + j) 0) ∧ rest t)) ∧
    ((∃ rd sg, m.kind = .load rd sg) ∨ (∃ vd, m.kind = .vload vd) →
      Gives (.homeAccess (.access c id pi) 0 0) s (fun t => reads t ∧ SameMem s t ∧ rest t)) ∧
    (∀ op rd x y, m.kind = .amo op rd x y → (s.core c).line (off / 64) = none → s.rangePoisoned off p.len = false →
      Gives (.homeAccess (.access c id pi) 0 0) s (fun t => reads t ∧ rest t ∧
        BitVec.ofNat (8 * p.len) (leValue (Memory.read t.mem off p.len)) =
          amoNew op (8 * p.len) old (x.setWidth (8 * p.len)) (y.setWidth (8 * p.len))))) ∧
  (∀ (c : CoreId) (id pi : Nat) (m : MemOp) (p : MemPart) (rd : Reg) (sg : Bool) (s : State),
    (s.core c).memops.find? (fun x => decide (x.id = id)) = some m → m.parts[pi]? = some p → m.kind = .load rd sg →
    p.performed = false → p.cached = false → (s.core c).mayPerform m (m.off + p.rel) p.len = true →
    s.requestWaits c (m.off + p.rel) = false → (spaceOf (m.off + p.rel)).isRegs = true →
    s.vatLost (m.off + p.rel) = false → p.rel + p.len ≤ m.bytes.length →
    (s.regBytes (m.off + p.rel) p.len).length = p.len →
    Gives (.homeAccess (.access c id pi) 0 0) s (fun t =>
      (∃ x, (t.core c).memops.find? (fun x => decide (x.id = id)) = some x ∧
        x.parts[pi]? = some { p with performed := true } ∧
        (x.bytes.drop p.rel).take p.len = s.regBytes (m.off + p.rel) p.len) ∧ SameMem s t ∧
      (t.core c).g = (s.core c).g ∧ ∀ o : CoreId, o ≠ c → t.core o = s.core o)) ∧
  (∀ (c : CoreId) (line : Nat) (f : Fill) (s : State), (s.core c).fills.find? (fun f => decide (f.line = line)) = some f →
    f.read = none → Reaches c s (64 * line) →
    Gives (.homeAccess (.fill c line) 0 0) s (fun t =>
      (∃ p, (t.core c).fills.find? (fun f => decide (f.line = line)) =
        some { f with read := some (bytesVec (Memory.read s.mem (64 * line) 64), p) } ∧
        (s.rangePoisoned (64 * line) 64 = false → p = 0)) ∧
      (t.core c).g = (s.core c).g ∧ SameMem s t ∧ ∀ o : CoreId, o ≠ c → t.core o = s.core o)) ∧
  (∀ (c : CoreId) (line : Nat) (l : CLine) (s : State), (s.core c).line line = some l → l.dirty ≠ 0 →
    Reaches c s (64 * line) →
    Gives (.homeAccess (.writeBack c line) 0 0) s (fun t => LandedIn line l.data l.dirty True s t ∧
      (t.core c).line line = none ∧ (∀ n, n ≠ line → (t.core c).line n = (s.core c).line n) ∧
      (t.core c).g = (s.core c).g ∧ ∀ o : CoreId, o ≠ c → t.core o = s.core o)) ∧
  (∀ (c : CoreId) (r : PressRun) (i : Nat) (l : PressLine) (mask : BitVec 64) (s : State),
    ((s.pressSync c).core c).pressRun.find? (fun x => x.cmd.sub == r.cmd.sub) = some r → r.lines[i]? = some l →
    s.coreAlive c = true → (s.core c).pressHeld = false → (s.core c).engineInReset = false →
    let rest (t : State) (ls : List PressLine) := (∃ x, (t.core c).pressRun.find? (fun x => x.cmd.sub == r.cmd.sub) = some x ∧
      x.lines = ls) ∧ (t.core c).g = (s.core c).g ∧ ∀ o : CoreId, o ≠ c → t.core o = s.core o
    Gives (.homeAccess (.pressLine c r.cmd.sub i mask) 0 0) s (fun t =>
      LandedIn (vatBase c / 64 + l.line) l.data l.mask (mask = BitVec.allOnes 64 ∨ l.mask = BitVec.allOnes 64) s t ∧
      (∃ ls, rest t ls ∧ (mask = BitVec.allOnes 64 ∨ l.mask = BitVec.allOnes 64 → ls = r.lines.eraseIdx i)))) ∧
  (∀ (c : CoreId) (x : LadleTx) (r : LadleRun) (s : State), (s.core c).ladleTxs.find? (fun t => decide (t.id = x.id)) = some x →
    (s.core c).ladleRun.find? (fun r => r.desc.sub == x.sub) = some r → s.coreAlive c = true → (s.core c).engineInReset = false →
    x.path = .onChip →
    let src := addrOff x.src
    let dst := addrOff x.dst
    let tx (t : State) (P : LadleTx → Prop) := (∃ y, (t.core c).ladleTxs.find? (fun t => decide (t.id = x.id)) = some y ∧ P y) ∧
      (t.core c).g = (s.core c).g ∧ ∀ o : CoreId, o ≠ c → t.core o = s.core o
    (∀ line, r.desc.isFill = false → mayRead x.early src x.len line = true → Reaches c s (64 * line) →
      s.responseWaits c (64 * line) = false →
      Gives (.homeAccess (.ladleRead c x.id line) 0 0) s (fun t => SameMem s t ∧ tx t (fun y =>
        (Tab.get [] y.early line).map (fun b => b.1) = Memory.read s.mem (64 * line) 64 ∧ y.landed = x.landed))) ∧
    (∀ (mask : BitVec 64), dst % 64 + x.len ≤ 64 → Reaches c s dst → s.homeAsleep dst = none →
      r.desc.isFill = true ∨ unread x.early src x.len = [] →
      let byte (j : Nat) : Byte := if r.desc.isFill then r.desc.src.extractLsb' (8 * ((dst + j) % 8)) 8
        else ((Tab.get [] x.early ((src + j) / 64)).getD ((src + j) % 64) (Memory.byte s.mem (src + j), false)).1
      Gives (.homeAccess (.ladleWrite c x.id mask) 0 0) s (fun t =>
        (∀ j, j < x.len → Memory.byte t.mem (dst + j) = Memory.byte s.mem (dst + j) ∨ Memory.byte t.mem (dst + j) = byte j) ∧
        (mask = BitVec.allOnes 64 → x.landed = 0 → ∀ j, j < x.len → Memory.byte t.mem (dst + j) = byte j) ∧
        (∀ a, a < dst ∨ dst + x.len ≤ a → Memory.byte t.mem a = Memory.byte s.mem a) ∧
        tx t (fun y => y.early = x.early)))) ∧
  (∀ (c : CoreId) (sub : BitVec 16) (line : Nat) (r : LadleRun) (e : LadleEnt) (s : State),
    (s.core c).ladleOpen.find? (fun x => x.1.desc.sub == sub) = some (r, e) → s.coreAlive c = true →
    (s.core c).engineInReset = false → (s.core c).ladleHeld = false → s.regionParked c = false → r.desc.isFill = false →
    r.row < r.desc.rows * r.desc.planes → (s.awayChip e.dst).isSome = true → s.awayChip r.desc.src = none →
    let span := s.ladleSpan r e
    s.ladleRefuse c span.1 span.2.2 false = none → mayRead r.early (addrOff span.1) span.2.2 line = true →
    Reaches c s (64 * line) → s.responseWaits c (64 * line) = false →
    Gives (.homeAccess (.ladleAhead c sub line) 0 0) s (fun t => SameMem s t ∧
      (∃ y ∈ (t.core c).ladleRun, y.desc = r.desc ∧ y.ents = r.ents ∧
        (Tab.get [] y.early line).map (fun b => b.1) = Memory.read s.mem (64 * line) 64) ∧
      (t.core c).g = (s.core c).g ∧ ∀ o : CoreId, o ≠ c → t.core o = s.core o))

/-- What caches answer, and what homes perform and return. -/
def Obligations.CachesAndHomes : Prop := CacheHitsAndFills ∧ HomesPerformAndReturn
/-! ## Special registers, traps and interrupts -/

namespace Sys2Proof.Claims

/-- Core `c` retired with its general and vector registers as before, nothing outside it changed, and `P` holds between
its old and new state. -/
def CoreSets (c : CoreId) (P : Core → Core → Prop) (s t : State) : Prop :=
  (t.core c).g = (s.core c).g ∧ (t.core c).v = (s.core c).v ∧ (t.core c).pc = (s.core c).pc + 4 ∧
    (t.core c).stall = .none ∧ P (s.core c) (t.core c) ∧ OnlyCore c s t

/-- The word of an instruction as TRAP_ADDR holds it. -/
def wordOf (i : Instr) : Word := match encode i with | some w => w.setWidth 64 | none => 0

end Sys2Proof.Claims

/-- RDSR writes a special register's value to rd; an undefined selector takes trap 0x01, and a register that only RUNTIME
mode reads takes trap 0x02 in JOB mode (R76, R85, Table 2.3). -/
def Sys2Proof.Claims.SpecialRegisterReads : Prop :=
  ∀ (c : CoreId) (rd : Reg) (s : State), s.canIssue c [.g rd] = true →
    let k := s.core c
    Gives (.rdsr c rd 0x01) s (ToReg c rd (if k.mode = .runtime then 1 else 0) s) ∧
    Gives (.rdsr c rd 0x02) s (ToReg c rd (BitVec.ofNat 64 (c.toNat + s.org.physIndex c * 2 ^ 16 + coreRegion c * 2 ^ 32 +
      s.fab.chip.toNat * 2 ^ 48)) s) ∧
    Gives (.rdsr c rd 0x03) s (ToReg c rd k.jobId s) ∧
    Gives (.rdsr c rd 0x10) s (ToReg c rd s.ftimeWord s) ∧
    Gives (.rdsr c rd 0x11) s (ToReg c rd k.timerCmp s) ∧
    Gives (.rdsr c rd 0x12) s (ToReg c rd k.mrecvTags s) ∧
    Gives (.rdsr c rd 0x13) s (ToReg c rd (if k.phaseEn then 1 else 0) s) ∧
    (k.mode = .runtime →
      Gives (.rdsr c rd 0x08) s (ToReg c rd k.tvec s) ∧
      Gives (.rdsr c rd 0x09) s (ToReg c rd k.trapPc s) ∧
      Gives (.rdsr c rd 0x0A) s (ToReg c rd k.trapCause s) ∧
      Gives (.rdsr c rd 0x0B) s (ToReg c rd k.trapAddr s) ∧
      Gives (.rdsr c rd 0x0C) s (ToReg c rd
        ((if k.prevMode = .runtime then 1 else 0) + (if k.nest then 2 else 0)) s) ∧
      Gives (.rdsr c rd 0x0D) s (ToReg c rd (k.intEnable.setWidth 64) s) ∧
      Gives (.rdsr c rd 0x0E) s (ToReg c rd
        ((k.intPending ||| (if k.timerCmp.toNat ≤ s.ftimeWord.toNat then 8 else 0)).setWidth 64) s) ∧
      (k.ladleErrs = [] → Gives (.rdsr c rd 0x14) s (ToReg c rd 0 s) ∧ Gives (.rdsr c rd 0x15) s (ToReg c rd 0 s)) ∧
      (∀ e es, k.ladleErrs = e :: es →
        Gives (.rdsr c rd 0x14) s (ToReg c rd (e.sub ++ e.tag ++ e.flowErr ++ (0 : BitVec 8) ++ e.cause ++
          (if es = [] then 0x01 else 0x03 : BitVec 8)) s) ∧
        Gives (.rdsr c rd 0x15) s (ToReg c rd e.addr s))) ∧
    (k.mode = .job → k.nest = false →
      ∀ sel : BitVec 8, sel ∈ [(0x08 : BitVec 8), 0x09, 0x0A, 0x0B, 0x0C, 0x0D, 0x0E, 0x14, 0x15] →
        Gives (.rdsr c rd sel) s (Entered c 0x02 (wordOf (.rdsr c rd sel)) k.pc s)) ∧
    (k.nest = false → ∀ sel : BitVec 8, sel ∉ [(0x01 : BitVec 8), 0x02, 0x03, 0x08, 0x09, 0x0A, 0x0B, 0x0C, 0x0D, 0x0E,
        0x10, 0x11, 0x12, 0x13, 0x14, 0x15] →
      Gives (.rdsr c rd sel) s (Entered c 0x01 (wordOf (.rdsr c rd sel)) k.pc s))

/-- WRSR writes rs1 to a special register; TVEC keeps 256-byte alignment, INT_PENDING is cleared by ones but for the timer's bit while
the timer stands, a one written to LADLE_ERR_REC retires its oldest record, an undefined or read-only selector takes trap 0x01 and a
JOB-mode write of a RUNTIME register trap 0x02 (R76, R85, R800, R803, Table 2.3). The retirement itself may set INT_PENDING bit 2 (18
R770). -/
def Sys2Proof.Claims.SpecialRegisterWrites : Prop :=
  ∀ (c : CoreId) (rs1 : Reg) (s : State), s.canIssue c [.g rs1] = true →
    let k := s.core c
    let v := k.getG rs1
    (k.mode = .runtime →
      Gives (.wrsr c rs1 0x03) s (CoreSets c (fun _ k' => k'.jobId = v ∧ k'.streams = []) s) ∧
      Gives (.wrsr c rs1 0x08) s (CoreSets c (fun _ k' => k'.tvec = (v >>> 8) <<< 8) s) ∧
      Gives (.wrsr c rs1 0x09) s (CoreSets c (fun _ k' => k'.trapPc = v) s) ∧
      Gives (.wrsr c rs1 0x0C) s (CoreSets c (fun _ k' =>
        k'.prevMode = (if v.getLsbD 0 then .runtime else .job) ∧ k'.nest = v.getLsbD 1) s) ∧
      Gives (.wrsr c rs1 0x0D) s (CoreSets c (fun _ k' => k'.intEnable = v.setWidth 8) s) ∧
      Gives (.wrsr c rs1 0x13) s (CoreSets c (fun _ k' => k'.phaseEn = v.getLsbD 0) s) ∧
      Gives (.wrsr c rs1 0x0E) s (CoreSets c (fun _ k' => ∀ i, i < 8 → i ≠ 2 → k'.intPending.getLsbD i =
        ((k.intPending.getLsbD i && !v.getLsbD i) ||
          (decide (i = 3) && decide (k.timerCmp.toNat ≤ s.ftimeWord.toNat)))) s) ∧
      (v.getLsbD 0 = false →
        let same (_ k' : Core) : Prop := k'.ladleErrs = k.ladleErrs ∧ k'.ladleErrWait = k.ladleErrWait
        Gives (.wrsr c rs1 0x14) s (CoreSets c same s) ∧ Gives (.ladleErrRecRetire c rs1) s (CoreSets c same s)) ∧
      (v.getLsbD 0 = true →
        let retire (k k' : Core) : Prop := k'.ladleErrs = k.ladleErrs.tail ++ (if k.ladleErrs = [] then [] else k.ladleErrWait.take 1)
        Gives (.wrsr c rs1 0x14) s (CoreSets c retire s) ∧ Gives (.ladleErrRecRetire c rs1) s (CoreSets c retire s))) ∧
    Gives (.wrsr c rs1 0x11) s (CoreSets c (fun _ k' => k'.timerCmp = v) s) ∧
    (k.mode = .job → k.nest = false →
      (∀ sel : BitVec 8, sel ∈ [(0x03 : BitVec 8), 0x08, 0x09, 0x0C, 0x0D, 0x0E, 0x13, 0x14] →
        Gives (.wrsr c rs1 sel) s (Entered c 0x02 (wordOf (.wrsr c rs1 sel)) k.pc s)) ∧
      Gives (.ladleErrRecRetire c rs1) s (Entered c 0x02 (wordOf (.wrsr c rs1 0x14)) k.pc s)) ∧
    (k.nest = false → ∀ sel : BitVec 8, sel ∉ [(0x03 : BitVec 8), 0x08, 0x09, 0x0C, 0x0D, 0x0E, 0x11, 0x13, 0x14] →
      Gives (.wrsr c rs1 sel) s (Entered c 0x01 (wordOf (.wrsr c rs1 sel)) k.pc s))

/-- The counter page: RDCNT gives each register, WRCNT sets the bits that can be written, undefined selectors take trap 0x01, and a JOB-mode
write takes trap 0x02 unless JOBWRITE lets it through (18 R767 to R769, Table 18.1). What a write leaves is stated while the counters are
frozen after it, since its own retirement may count. -/
def Sys2Proof.Claims.CounterPageAccess : Prop :=
  (∀ (c : CoreId) (rd : Reg) (n : BitVec 8) (s : State), s.canIssue c [.g rd] = true →
    let p := (s.core c).pmu
    let bits (fs : List (Bool × Nat)) : Word := BitVec.ofNat 64 (fs.foldl (fun a f => a + (if f.1 then 2 ^ f.2 else 0)) 0)
    Gives (.rdcnt c rd 0x00) s (ToReg c rd
      (BitVec.ofNat 64 ((s.region (coreRegion c)).cycles / 1000) - p.cycleBase) s) ∧
    (n.toNat < 8 → Gives (.rdcnt c rd (n + 1)) s (ToReg c rd ((Tab.get 0 p.cnt n.toNat).setWidth 64) s) ∧
      Gives (.rdcnt c rd (n + 0x10)) s (ToReg c rd (Tab.get 0 p.ctl n.toNat) s)) ∧
    Gives (.rdcnt c rd 0x20) s (ToReg c rd
      (bits [(p.freeze, 63), (p.abortFrozen, 62), (p.jobWrite, 61), (p.freezeOnOvf, 60)]) s) ∧
    Gives (.rdcnt c rd 0x21) s (ToReg c rd
      (bits [(p.sampleValid, 15)] ||| (p.sampleCnt.setWidth 64 <<< 8) ||| p.ovf.setWidth 64) s) ∧
    Gives (.rdcnt c rd 0x22) s (ToReg c rd p.samplePc s) ∧
    Gives (.rdcnt c rd 0x23) s (ToReg c rd p.sampleAddr s) ∧
    ((s.core c).nest = false → 8 < n.toNat → n.toNat < 0x10 ∨ 0x17 < n.toNat → n.toNat < 0x20 ∨ 0x23 < n.toNat →
      Gives (.rdcnt c rd n) s (Entered c 0x01 (wordOf (.rdcnt c rd n)) (s.core c).pc s))) ∧
  (∀ (c : CoreId) (rs1 : Reg) (n : BitVec 8) (s : State), s.canIssue c [.g rs1] = true → 
    (s.core c).mode = .runtime ∨ (s.core c).pmu.jobWrite = true →
    let p := (s.core c).pmu
    let v := (s.core c).getG rs1
    (p.freeze = true → n.toNat < 8 →
      Gives (.wrcnt c rs1 (n + 1)) s (CoreSets c (fun _ k' => Tab.get 0 k'.pmu.cnt n.toNat = v.setWidth 48) s) ∧
      Gives (.wrcnt c rs1 (n + 0x10)) s (CoreSets c (fun _ k' => Tab.get 0 k'.pmu.ctl n.toNat =
        (v &&& (if n = 0 then 0xDC00000000000FFF else 0xFC00000000000FFF))) s)) ∧
    (p.freeze = true → Gives (.wrcnt c rs1 0x21) s (CoreSets c (fun _ k' =>
      k'.pmu.sampleValid = (p.sampleValid && !v.getLsbD 15) ∧ k'.pmu.ovf = p.ovf &&& ~~~(v.setWidth 8)) s)) ∧
    (v.getLsbD 63 = true → Gives (.wrcnt c rs1 0x20) s (CoreSets c (fun _ k' => k'.pmu.freeze = true ∧
      k'.pmu.abortFrozen = (p.abortFrozen && !v.getLsbD 62) ∧ k'.pmu.freezeOnOvf = v.getLsbD 60 ∧
      k'.pmu.jobWrite = (if (s.core c).mode = .runtime then v.getLsbD 61 else p.jobWrite)) s)) ∧
    Gives (.wrcnt c rs1 0x00) s (CoreSets c (fun _ k' =>
      BitVec.ofNat 64 ((s.region (coreRegion c)).cycles / 1000) - k'.pmu.cycleBase = v) s) ∧
    (n.toNat ≤ 8 ∨ (0x10 ≤ n.toNat ∧ n.toNat ≤ 0x17) ∨ (0x20 ≤ n.toNat ∧ n.toNat ≤ 0x23) →
      Gives (.wrcnt c rs1 n) s (fun t => Retired ((s.core c).pc + 4) (s.core c) (t.core c) ∧ (t.core c).g = (s.core c).g ∧
        (t.core c).v = (s.core c).v ∧ OnlyCore c s t))) ∧
  (∀ (c : CoreId) (rs1 : Reg) (n : BitVec 8) (s : State), s.canIssue c [.g rs1] = true → (s.core c).nest = false →
    let listed := n.toNat ≤ 8 ∨ (0x10 ≤ n.toNat ∧ n.toNat ≤ 0x17) ∨ (0x20 ≤ n.toNat ∧ n.toNat ≤ 0x23)
    (¬ listed → Gives (.wrcnt c rs1 n) s (Entered c 0x01 (wordOf (.wrcnt c rs1 n)) (s.core c).pc s)) ∧
    (listed → (s.core c).mode = .job → (s.core c).pmu.jobWrite = false →
      Gives (.wrcnt c rs1 n) s (Entered c 0x02 (wordOf (.wrcnt c rs1 n)) (s.core c).pc s)))

/-- RDSR, WRSR and the counter page. -/
def Obligations.SpecialRegisterAccess : Prop := SpecialRegisterReads ∧ SpecialRegisterWrites ∧ CounterPageAccess

/-- Traps, TRET and interrupts (R147, R151 to R153, R802). -/
def Obligations.TrapsReturnsAndInterrupts : Prop :=
  (∀ (c : CoreId) (n : BitVec 8) (s : State), s.canIssue c [] = true → (s.core c).nest = false →
    Gives (.trap c n) s (Entered c 0x06 (n.setWidth 64) (s.core c).pc s)) ∧
  (∀ (c : CoreId) (w : BitVec 32) (s : State), s.canIssue c [] = true → (s.core c).nest = false →
    decodeWord c w = none → Gives (.illegalInstruction c w) s (Entered c 0x01 (w.setWidth 64) (s.core c).pc s)) ∧
  (∀ (c : CoreId) (s : State), s.canIssue c [] = true → (s.core c).mode = .runtime →
    Gives (.tret c) s (fun t => (t.core c).pc = (s.core c).trapPc ∧ (t.core c).mode = (s.core c).prevMode ∧
      (t.core c).nest = false ∧ (t.core c).g = (s.core c).g ∧ OnlyCore c s t)) ∧
  (∀ (c : CoreId) (s : State), s.canIssue c [] = true → (s.core c).mode = .job → (s.core c).nest = false →
    Gives (.tret c) s (Entered c 0x02 (wordOf (.tret c)) (s.core c).pc s)) ∧
  (∀ (c : CoreId) (n : Nat) (s : State), s.coreRuns c = true → (s.core c).nest = false → (s.core c).stall ≠ .wfi →
    s.ftimeWord.toNat < (s.core c).timerCmp.toNat → n < 8 →
    ((s.core c).intPending &&& (s.core c).intEnable).getLsbD n = true →
    (∀ i, i < n → ((s.core c).intPending &&& (s.core c).intEnable).getLsbD i = false) →
    Gives (.interruptTake c) s (Entered c (0x20 + n) (Tab.get 0 (s.core c).intAddr n) (s.core c).pc s)) ∧
  (∀ (c : CoreId) (n : Nat) (s : State), s.coreRuns c = true → (s.core c).nest = false → (s.core c).stall = .wfi →
    s.ftimeWord.toNat < (s.core c).timerCmp.toNat → (s.core c).pmu.freeze = true → n < 8 →
    ((s.core c).intPending &&& (s.core c).intEnable).getLsbD n = true →
    (∀ i, i < n → ((s.core c).intPending &&& (s.core c).intEnable).getLsbD i = false) →
    Gives (.interruptTake c) s (fun t => (t.core c).mode = .runtime ∧ (t.core c).trapCause = BitVec.ofNat 64 (0x20 + n) ∧
      (t.core c).trapPc = (s.core c).pc + 4 ∧ (t.core c).pc = (s.core c).tvec ∧ (t.core c).stall = .none ∧
      (t.core c).g = (s.core c).g ∧ OnlyCore c s t)) ∧
  (∀ (c : CoreId) (p : PoisonHit) (rest : List PoisonHit) (s : State), s.coreRuns c = true →
    (s.core c).nest = false → (s.core c).poison = p :: rest →
    Gives (.poisonConsumed c) s (fun t => (t.core c).mode = .runtime ∧ (t.core c).trapCause = 0x08 ∧
      (t.core c).trapAddr = p.addr ∧ (t.core c).trapPc = (s.core c).pc ∧ (t.core c).pc = (s.core c).tvec ∧
      (t.core c).poison = rest ∧ (t.core c).g = (s.core c).g ∧ OnlyCore c s t)) ∧
  (∀ (c : CoreId) (s : State), s.coreAlive c = true → (s.core c).timerCmp.toNat ≤ s.ftimeWord.toNat →
    (s.core c).stall ≠ .wfi →
    Gives (.timerInterrupt c) s (fun t => (t.core c).intPending = (s.core c).intPending ||| 8 ∧
      (t.core c).pc = (s.core c).pc ∧ (t.core c).g = (s.core c).g ∧ OnlyCore c s t)) ∧
  (∀ (c : CoreId) (s : State), s.canIssue c [] = true → s.ftimeWord.toNat < (s.core c).timerCmp.toNat →
    ((s.core c).intReady = true → Gives (.wfi c) s (ToPc c ((s.core c).pc + 4) s)) ∧
    ((s.core c).intReady = false →
      Gives (.wfi c) s (fun t => t.core c = { s.core c with stall := .wfi } ∧ OnlyCore c s t)))

/-- A trap raised while NEST is set halts the core with cause 0x3E and writes a fault record; a core whose issued instructions
have not all retired is halted when they have (R154, R801). -/
def Sys2Proof.Claims.DoubleFaultHalts : Prop :=
  ∀ (c : CoreId) (n : BitVec 8) (s : State), s.canIssue c [] = true → (s.core c).nest = true →
    s.faults.ladder.step = 0 → s.faults.inAbort = true →
    Gives (.trap c n) s (fun t => (t.core c).run = false ∧ (t.core c).trapCause = 0x3E ∧
      ((s.core c).unretired = false → (t.core c).halted = true ∧ (t.core c).startPc = (s.core c).pc) ∧
      ((s.core c).unretired = true → (t.core c).halted = false ∧ (t.core c).pc = (s.core c).pc) ∧
      t.faults.seq = s.faults.seq + 1 ∧ SameMem s t ∧
      (∀ o : CoreId, o ≠ c → t.core o = s.core o))

/-- Setting RUN starts a halted core at START_PC in the mode it held; clearing it halts a running core, once every instruction
that it has issued has retired, with START_PC at the oldest instruction not issued; either store is a doorbell (R77, R801,
Table 2.11). -/
def Sys2Proof.Claims.RunBitStartsAndHalts : Prop :=
  (∀ (w : Writer) (c : CoreId) (s : State), s.mayControl w = true → s.coreAlive c = true → (s.core c).halted = true →
    (s.core c).abortPending = none →
    Gives (.coreRunSet w c) s (fun t => (t.core c).run = true ∧ (t.core c).halted = false ∧
      (t.core c).pc = (s.core c).startPc ∧ (t.core c).mode = (s.core c).mode ∧
      (t.core c).intPending = (s.core c).intPending ||| 0x10 ∧ OnlyCore c s t)) ∧
  (∀ (w : Writer) (c : CoreId) (s : State), s.mayControl w = true → s.coreAlive c = true → (s.core c).run = true →
    (s.core c).halted = false → (s.core c).unretired = false →
    Gives (.coreRunClear w c) s (fun t => (t.core c).run = false ∧ (t.core c).halted = true ∧
      (t.core c).startPc = (s.core c).pc ∧ (t.core c).mode = (s.core c).mode ∧
      (t.core c).intPending = (s.core c).intPending ||| 0x10 ∧ OnlyCore c s t)) ∧
  (∀ (w : Writer) (c : CoreId) (s : State), s.mayControl w = true → s.coreAlive c = true → (s.core c).run = true →
    (s.core c).halted = false → (s.core c).stall.waits = false → (s.core c).unretired = true →
    Gives (.coreRunClear w c) s (fun t => (t.core c).run = false ∧ (t.core c).halted = false ∧
      (t.core c).pc = (s.core c).pc ∧ (t.core c).memops = (s.core c).memops ∧ OnlyCore c s t))

/-- A double fault halts; RUN starts and halts. -/
def Obligations.CoresHaltAndStart : Prop := DoubleFaultHalts ∧ RunBitStartsAndHalts

/-! ## Fences and range operations -/

/-- A fence retires once what it waits for is done, with every older CINV.RANGE done for the loads to come, and until then stalls: FENCE.LOCAL for the older accesses of the core,
FENCE.CHIP for its messages to this chip too, FENCE.FABRIC also for its remote writes, remote TINCs and messages to other
chips (R110, R111, R113). -/
def Sys2Proof.Claims.FencesRetireWhenDone : Prop :=
  ∀ (c : CoreId) (s : State), s.canIssue c [] = true →
    let k := s.core c
    let here := ∃ m ∈ k.outMsgs, s.reach m.dst = .here
    let sent (p : PKind) := ∃ u ∈ s.fab.west.store ++ s.fab.east.store, u.pkt.srcCore = c ∧ u.pkt.kind = p
    let retires (i : Instr) := Gives i s (ToPc c (k.pc + 4) (s.modCore c Core.settleDrops))
    let stalls (i : Instr) := Gives i s (fun t => t.core c = { k with stall := .loadOrFence } ∧ OnlyCore c s t)
    (k.memops = [] → retires (.fenceLocal c)) ∧ (k.memops ≠ [] → stalls (.fenceLocal c)) ∧
    (k.memops = [] → ¬ here → retires (.fenceChip c)) ∧ (k.memops ≠ [] ∨ here → stalls (.fenceChip c)) ∧
    (k.memops = [] → ¬ here → s.ladleAway c = false → ¬ sent .tinc → ¬ sent .message → retires (.fenceFabric c)) ∧
    (k.memops ≠ [] ∨ here ∨ s.ladleAway c = true ∨ sent .tinc ∨ sent .message → stalls (.fenceFabric c))

namespace Sys2Proof.Claims

/-- A line of a core's data cache overlaps a range of offsets. -/
def overlapsRange (r : Option (Nat × Nat)) (n : Nat) : Prop :=
  match r with
  | none => False
  | some (lo, hi) => 64 * n < hi ∧ lo < 64 * n + 64

/-- What a range operation leaves of one line in its range (R116, R117, R119): a dirty line whose write-back the table permits is
clean, or dropped; one whose write-back it does not permit stays dirty; a clean one stays, or is dropped. -/
def lineAfter (k : Core) (drop : Bool) (n : Nat) : Option CLine :=
  match k.line n with
  | none => none
  | some l =>
    if l.dirty ≠ 0 ∧ k.permits true (64 * n) 64 = false then some l
    else if drop = true then none else some { l with dirty := 0 }

/-- A range operation of core `c` is done: each line of the range is as `lineAfter` says, the others are as before, the
instruction has retired, and no register and no other core has changed. -/
def RangeDone (c : CoreId) (drop : Bool) (r : Option (Nat × Nat)) (s t : State) : Prop :=
  (∀ n, overlapsRange r n → (t.core c).line n = lineAfter (s.core c) drop n) ∧
    (∀ n, ¬ overlapsRange r n → (t.core c).line n = (s.core c).line n) ∧
    (t.core c).g = (s.core c).g ∧ (t.core c).v = (s.core c).v ∧ (t.core c).pc = (s.core c).pc + 4 ∧
    (t.core c).stall = .none ∧ ∀ o : CoreId, o ≠ c → t.core o = s.core o

end Sys2Proof.Claims

/-- CFLUSH.RANGE, CINV.RANGE and ACQINV act on every line of their range and retire, once no older access to the range is
unperformed; ACQINV also waits for older loads and drops speculative fills of its range (R107, R116 to R119, R271). -/
def Sys2Proof.Claims.RangeOperationsComplete : Prop :=
  ∀ (c : CoreId) (rs1 rs2 : Reg) (s : State), s.canIssue c [.g rs1, .g rs2] = true →
    let r := s.rangeOf ((s.core c).getG rs1) ((s.core c).getG rs2)
    (s.core c).rangeBusy r = false →
    Gives (.cflushRange c rs1 rs2) s (RangeDone c false r s) ∧
    Gives (.cinvRange c rs1 rs2) s (RangeDone c true r s) ∧
    ((∀ m ∈ (s.core c).memops, m.kind = .store) →
      Gives (.acqinv c rs1 rs2) s (fun t => RangeDone c true r s t ∧
        ∀ f ∈ (t.core c).fills, f.speculative = true → ¬ overlapsRange r f.line))

/-- The dirty bytes of a line that a range operation writes back are in memory when it retires, and no other byte of memory
changes; a channel that has failed takes no write (R116 to R119; 05 R254). -/
def Sys2Proof.Claims.RangeOperationsWriteBack : Prop :=
  ∀ (c : CoreId) (rs1 rs2 : Reg) (n : Nat) (l : CLine) (s : State), s.canIssue c [.g rs1, .g rs2] = true →
    let r := s.rangeOf ((s.core c).getG rs1) ((s.core c).getG rs2)
    (s.core c).rangeBusy r = false → overlapsRange r n → (s.core c).line n = some l → l.dirty ≠ 0 →
    (s.core c).permits true (64 * n) 64 = true → s.channelFailed (64 * n) = false →
    let back (t : State) := (∀ i, i < 64 → l.dirty.getLsbD i = true →
        Memory.byte t.mem (64 * n + i) = (l.data >>> (8 * i)).setWidth 8) ∧
      (∀ i, i < 64 → l.dirty.getLsbD i = false → Memory.byte t.mem (64 * n + i) = Memory.byte s.mem (64 * n + i)) ∧
      (∀ a, (s.core c).line (a / 64) = none → Memory.byte t.mem a = Memory.byte s.mem a)
    Gives (.cflushRange c rs1 rs2) s back ∧ Gives (.cinvRange c rs1 rs2) s back ∧
    ((∀ m ∈ (s.core c).memops, m.kind = .store) → Gives (.acqinv c rs1 rs2) s back)

/-- Fences and range operations. -/
def Obligations.FencesAndRanges : Prop := FencesRetireWhenDone ∧ RangeOperationsComplete ∧ RangeOperationsWriteBack

/-! ## Tallies -/

/-- TINC of a tally of this chip and of another, TINC.L, TREAD and TWAIT (R139 to R142, R269, 06 R300). -/
def Obligations.TallyInstructions : Prop :=
  (∀ (c : CoreId) (rs1 rs2 : Reg) (o : CoreId) (n : Nat) (s : State), s.canIssue c [.g rs1, .g rs2] = true →
    tallyOf (addrOff ((s.core c).getG rs1)) = some (o, n) → s.reach ((s.core c).getG rs1) = .here →
    s.coreAlive o = true → (s.core c).storesPending = false →
    Gives (.tinc c rs1 rs2) s (fun t =>
      (t.core o).tally n = (s.core o).tally n + ((s.core c).getG rs2).setWidth 32 ∧
      (∀ m, m ≠ n → (t.core o).tally m = (s.core o).tally m) ∧ (t.core c).pc = (s.core c).pc + 4 ∧
      (o ≠ c → (s.core o).stall = .none → (t.core o).g = (s.core o).g) ∧ SameMem s t ∧
      (∀ x : CoreId, x ≠ c → x ≠ o → t.core x = s.core x))) ∧
  (∀ (c : CoreId) (rs1 rs2 : Reg) (o : CoreId) (n : Nat) (chip : BitVec 16) (s : State),
    s.canIssue c [.g rs1, .g rs2] = true → tallyOf (addrOff ((s.core c).getG rs1)) = some (o, n) →
    s.reach ((s.core c).getG rs1) = .away chip → (s.core c).storesPending = false → (s.core c).abortClosed = false →
    s.unacked c .tinc < 32 → s.storeRoom signalDie = true →
    (s.org.dieWaits s.org.requestPlane signalDie c true = false →
      Gives (.tinc c rs1 rs2) s (fun t => t.unacked c .tinc = s.unacked c .tinc + 1 ∧ (t.core c).pc = (s.core c).pc + 4 ∧
        (t.core c).g = (s.core c).g ∧ (t.core c).tallies = (s.core c).tallies ∧ SameMem s t ∧
        (∀ x : CoreId, x ≠ c → t.core x = s.core x))) ∧
    (s.org.dieWaits s.org.requestPlane signalDie c true = true →
      Gives (.tinc c rs1 rs2) s (fun t => t.core c = { s.core c with stall := .loadOrFence } ∧ OnlyCore c s t))) ∧
  (∀ (c : CoreId) (rs2 : Reg) (n : BitVec 8) (s : State), s.canIssue c [.g rs2] = true →
    (s.core c).storesPending = false →
    Gives (.tincL c rs2 n) s (CoreSets c (fun k k' =>
      k'.tally (n.toNat % 64) = k.tally (n.toNat % 64) + (k.getG rs2).setWidth 32 ∧
      ∀ m, m ≠ n.toNat % 64 → k'.tally m = k.tally m) s)) ∧
  (∀ (c : CoreId) (rd : Reg) (n : BitVec 8) (s : State), s.canIssue c [.g rd] = true →
    Gives (.tread c rd n) s (ToReg c rd (((s.core c).tally (n.toNat % 64)).setWidth 64) s)) ∧
  (∀ (c : CoreId) (rd rs1 rs2 : Reg) (n : BitVec 8) (s : State), s.canIssue c [.g rs1, .g rs2, .g rd] = true →
    let v := (s.core c).tally (n.toNat % 64)
    let w := ((s.core c).getG rs1).setWidth 32
    (0 ≤ (v - w).toInt → Gives (.twait c rd rs1 rs2 n) s (ToReg c rd (v.setWidth 64) (s.modCore c Core.settleDrops))) ∧
    ((v - w).toInt < 0 → Gives (.twait c rd rs1 rs2 n) s (fun t => (t.core c).pc = (s.core c).pc ∧
      (t.core c).stall = .twait rd (n.setWidth 6) w
        (if (s.core c).getG rs2 = 0 then none else some (s.runNow + 1000 * ((s.core c).getG rs2).toNat)) ∧
      (t.core c).g = (s.core c).g ∧ OnlyCore c s t))) ∧
  (∀ (c : CoreId) (rd : Reg) (n : BitVec 6) (w : BitVec 32) (deadline : Nat) (s : State), s.coreRuns c = true →
    (s.core c).stall = .twait rd n w (some deadline) → deadline ≤ s.runNow →
    Gives (.twaitTimeout c) s (ToReg c rd (((s.core c).tally n.toNat).setWidth 64) s))

/-! ## Messages -/

/-- MSEND to a queue of this chip puts its words in a slot; a queue with room takes the message whole, its words arrive in
order, an overdue message ends with a poisoned terminating word, and MRECV returns the oldest word or zero (R136 to
R138; 06 R291 to R298). -/
def Obligations.MessagesReachTheirQueue : Prop :=
  (∀ (c : CoreId) (rs1 rs2 : Reg) (n : BitVec 8) (off : Nat) (s : State), s.canIssue c [.g rs1, .g rs2] = true →
    s.msendCheck c ((s.core c).getG rs1) ((s.core c).getG rs2) (n.toNat + 1) = .ok off →
    s.reach ((s.core c).getG rs1) = .here → (s.core c).storesPending = false → (s.core c).abortClosed = false →
    s.leaving c < 8 → s.queueAsleep (addrOff ((s.core c).getG rs1)) = none →
    Gives (.msend c rs1 rs2 n) s (fun t => (t.core c).outMsgs = (s.core c).outMsgs ++
      [{ id := (s.core c).nextId, srcChip := s.fab.chip, srcCore := c, dst := (s.core c).getG rs1,
         words := s.vatWords c off (n.toNat + 1), admitted := false }] ∧ (t.core c).g = (s.core c).g ∧
      (t.core c).pc = (s.core c).pc + 4 ∧ (t.core c).stall = .none ∧ SameMem s t ∧
      (∀ x : CoreId, x ≠ c → t.core x = s.core x))) ∧
  (∀ (c : CoreId) (rs1 rs2 : Reg) (n : BitVec 8) (off : Nat) (chip : BitVec 16) (s : State),
    s.canIssue c [.g rs1, .g rs2] = true →
    s.msendCheck c ((s.core c).getG rs1) ((s.core c).getG rs2) (n.toNat + 1) = .ok off →
    s.reach ((s.core c).getG rs1) = .away chip → (s.core c).storesPending = false → (s.core c).abortClosed = false →
    s.leaving c < 8 → s.storeRoom (coreDie c) = true →
    (s.org.dieWaits s.org.requestPlane (coreDie c) c true = true →
      Gives (.msend c rs1 rs2 n) s (fun t => t.core c = { s.core c with stall := .msend } ∧ OnlyCoreReads c s t)) ∧
    (s.org.dieWaits s.org.requestPlane (coreDie c) c true = false →
    Gives (.msend c rs1 rs2 n) s (fun t => t.unacked c .message = s.unacked c .message + 1 ∧
      (t.core c).outMsgs = (s.core c).outMsgs ∧ (t.core c).g = (s.core c).g ∧ (t.core c).pc = (s.core c).pc + 4 ∧
      SameMem s t ∧ (∀ x : CoreId, x ≠ c → t.core x = s.core x)))) ∧
  (∀ (c : CoreId) (q : BitVec 2) (d : Die) (m : OutMsg) (s : State), s.waiting (.die d) c q.toNat = some m →
    s.coreAlive c = true → (s.core c).engineInReset = false →
    m.words.length ≤ ((s.core c).queue q.toNat).free → s.messageWaits (.die d) c = false →
    Gives (.messageAdmit c q (.die d)) s (fun t => ∃ x : QMsg,
      ((t.core c).queue q.toNat).msgs = ((s.core c).queue q.toNat).msgs ++ [x] ∧ x.coming = m.words ∧ x.held = [] ∧
      x.len = m.words.length ∧ x.srcChip = m.srcChip ∧ x.srcCore = m.srcCore ∧
      t.dieMsgs = s.dieMsgs.filter (fun e => !(e.1 == d && decide (e.2 = m))) ∧ SameMem s t)) ∧
  (∀ (c : CoreId) (q : BitVec 2) (i : Nat) (m : QMsg) (w : Word) (p : Bool) (rest : List (Word × Bool)) (s : State),
    s.coreAlive c = true → (s.core c).engineInReset = false → ((s.core c).queue q.toNat).msgs[i]? = some m →
    m.coming = (w, p) :: rest → rest ≠ [] →
    Gives (.messageWordArrive c q false i false) s (fun t => ∃ x y,
      ((t.core c).queue q.toNat).msgs[i]? = some x ∧ x.held = m.held ++ [y] ∧ y.data = w ∧ y.poison = p ∧
      x.coming = rest ∧ x.arrived = m.arrived + 1 ∧ SameMem s t)) ∧
  (∀ (c : CoreId) (q : BitVec 2) (i : Nat) (m : QMsg) (s : State),
    s.coreAlive c = true → (s.core c).engineInReset = false → ((s.core c).queue q.toNat).msgs[i]? = some m →
    m.coming ≠ [] → m.lastTime + 100000 ≤ s.now →
    Gives (.messageTruncate c q i) s (fun t => ∃ x y,
      ((t.core c).queue q.toNat).msgs[i]? = some x ∧ x.held = m.held ++ [y] ∧ y.trunc = true ∧ y.poison = true ∧
      y.data = 0 ∧ x.coming = [] ∧ x.readable = true ∧
      ((t.core c).queue q.toNat).truncated = satAdd 0xFFFF ((s.core c).queue q.toNat).truncated 1 ∧ SameMem s t)) ∧
  (∀ (c : CoreId) (rd : Reg) (n : BitVec 8) (s : State), s.canIssue c [.g rd] = true →
    let q := n.toNat % 4
    (((s.core c).queue q).msgs = [] → Gives (.mrecv c rd n) s (fun t =>
      TookReg rd 0 (s.core c) (t.core c) ∧ (t.core c).mrecvTags = 0 ∧ (t.core c).pc = (s.core c).pc + 4 ∧
      OnlyCore c s t)) ∧
    (∀ (m : QMsg) (ms : List QMsg) (w : QWord) (ws : List QWord), ((s.core c).queue q).msgs = m :: ms →
      m.held = w :: ws → m.readable = true → w.poison = false → w.parity = parityOf w.data →
      Gives (.mrecv c rd n) s (fun t =>
        TookReg rd w.data (s.core c) (t.core c) ∧ (t.core c).mrecvTags.getLsbD 0 = true ∧
        (t.core c).mrecvTags.getLsbD 1 = false ∧ (t.core c).pc = (s.core c).pc + 4 ∧
        (t.core c).poison = (s.core c).poison ∧ OnlyCore c s t)))

/-! ## The Press -/

/-- PSUB and LSUB copy the descriptor behind rs1 into their queue and return the number of earlier submissions, once no older
store is unperformed; a descriptor that cannot be read takes trap 0x07 (R121 to R123, R166; 05 R269). -/
def Obligations.PressAndLadleSubmission : Prop :=
  (∀ (c : CoreId) (rd rs1 : Reg) (w0 w1 w2 w3 : Word) (s : State), s.canIssue c [.g rs1, .g rd] = true →
    s.readDescriptor c ((s.core c).getG rs1) 4 = .ok [w0, w1, w2, w3] → fld w3 31 16 ≤ 0xBFFF →
    (s.core c).storesPending = false → (s.core c).abortClosed = false → (s.core c).engineInReset = false →
    (s.core c).pressQ.length + (s.core c).pressRun.length < 16 →
    Gives (.psub c rd rs1) s (fun t =>
      (t.core c).pressQ = (s.core c).pressQ ++ [{ w0 := w0, w1 := w1, w2 := w2, w3 := w3, sub := (s.core c).pressSub }] ∧
      (t.core c).pressSub = (s.core c).pressSub + 1 ∧
      TookReg rd ((s.core c).pressSub.setWidth 64) (s.core c) (t.core c) ∧ (t.core c).pc = (s.core c).pc + 4 ∧
      OnlyCoreReads c s t)) ∧
  (∀ (c : CoreId) (rd rs1 : Reg) (w : List Word) (s : State), s.canIssue c [.g rs1, .g rd] = true →
    s.readDescriptor c ((s.core c).getG rs1) 8 = .ok w → (s.core c).storesPending = false →
    (s.core c).abortClosed = false → (s.core c).engineInReset = false →
    (s.core c).ladleQ.length + (s.core c).ladleRun.length < 32 →
    Gives (.lsub c rd rs1) s (fun t =>
      (t.core c).ladleQ = (s.core c).ladleQ ++ [{ w := w, sub := (s.core c).ladleSub }] ∧
      (t.core c).ladleSub = (s.core c).ladleSub + 1 ∧
      TookReg rd ((s.core c).ladleSub.setWidth 64) (s.core c) (t.core c) ∧ (t.core c).pc = (s.core c).pc + 4 ∧
      OnlyCoreReads c s t)) ∧
  (∀ (c : CoreId) (rd rs1 : Reg) (n : Nat) (s : State), s.canIssue c [.g rs1, .g rd] = true → (s.core c).nest = false →
    (s.core c).storesPending = false →
    (n = 4 → s.readDescriptor c ((s.core c).getG rs1) n = .error 0x07 →
      Gives (.psub c rd rs1) s (Entered c 0x07 ((s.core c).getG rs1) (s.core c).pc s)) ∧
    (n = 8 → s.readDescriptor c ((s.core c).getG rs1) n = .error 0x07 →
      Gives (.lsub c rd rs1) s (Entered c 0x07 ((s.core c).getG rs1) (s.core c).pc s)))

/-- The command at the head of the Press queue starts once those before it let it: a NOP will complete after 8 cycles, a
MATMUL or CONVERT begins its first tile, and one that its checks refuse will complete after 30 cycles with their cause (R171 to
R176, R184, R185, R190). -/
def Obligations.PressCommandsStart : Prop :=
  ∀ (c : CoreId) (p : PressCmd) (rest : List PressCmd) (s : State), (s.core c).pressQ = p :: rest →
    s.coreAlive c = true → ((s.pressSync c).core c).pressReady p.order = true →
    let refused := (s.pressSync c).pressCheck c p
    let started (P : PressRun → Prop) (t : State) := ∃ r : PressRun, (t.core c).pressQ = rest ∧
      (t.core c).pressRun = ((s.pressSync c).core c).pressRun ++ [r] ∧ r.cmd = p ∧ r.startCycle = s.arrayCycle c ∧
      r.lines = [] ∧ P r ∧ (t.core c).g = (s.core c).g ∧ (t.core c).pc = (s.core c).pc ∧ OnlyCoreReads c s t
    (p.opcode = 0 → refused = 0 →
      Gives (.pressNop c) s (started fun r => r.cause = 0 ∧ r.due = some (s.arrayCycle c + 8))) ∧
    (p.opcode = 1 → refused = 0 →
      Gives (.pressMatmul c) s (started fun r => r.cause = 0 ∧
        r.tile = 0 ∧ r.steps = 0 ∧ r.need = p.kc r.fallback ∧ r.wait = p.lead)) ∧
    (p.opcode = 2 → refused = 0 →
      Gives (.pressConvert c) s (started fun r => r.cause = 0 ∧
        r.tile = 0 ∧ r.steps = 0 ∧ r.need = 0 ∧ r.side = p.sideLines 0)) ∧
    (refused ≠ 0 →
      let fails := started fun r => r.cause = refused ∧ r.due = some (s.arrayCycle c + 30)
      (p.opcode ≠ 1 → p.opcode ≠ 2 → Gives (.pressNop c) s fails) ∧ (p.opcode = 1 → Gives (.pressMatmul c) s fails) ∧
        (p.opcode = 2 → Gives (.pressConvert c) s fails))

/-- Without C, an element of an INT8 MATMUL is the exact sum of its products and never saturates (R204, R216; the bound
that chapter 04 draws). -/
def Obligations.Int8ProductsAreExact : Prop :=
  ∀ (s : State) (c : CoreId) (p : PressCmd) (fb : Bool) (i r j col : Nat), p.opcode = 1 → p.cls = some .int8 →
    p.accMode = 0 →
    s.pressElem c p fb i r j col = .int ((List.range p.k).foldl (fun acc k =>
      acc + laneInt 8 (s.pressA c p i r k) * laneInt 8 (s.pressB c p j col k)) 0) false

/-- The seven balanced slices of an FP64 operand rebuild it, each between -128 and 127 (R233). -/
def Obligations.SlicesRebuildTheOperand : Prop :=
  ∀ x : Int, -(2 ^ 54) ≤ x → x ≤ 2 ^ 54 →
    (slices x).length = 7 ∧ (∀ d ∈ slices x, -128 ≤ d ∧ d ≤ 127) ∧ x = (slices x).foldl (fun acc d => acc * 256 + d) 0

/-- A command whose last cycle has come completes: its record lands in the own Vat, its run leaves, and memory changes
nowhere but in its lines of D and its record (R184 to R190). -/
def Sys2Proof.Claims.PressCommandsComplete : Prop :=
  ∀ (c : CoreId) (r : PressRun) (rest : List PressRun) (due : Nat) (s : State),
    takeFirst (fun x => x.cmd.sub == r.cmd.sub) ((s.pressSync c).core c).pressRun = some (r, rest) → s.coreAlive c = true →
    (s.core c).pressHeld = false → (s.core c).engineInReset = false → r.due = some due → due ≤ s.arrayCycle c →
    r.cause = 0 → r.noRecord = false →
    Gives (.pressComplete c r.cmd.sub) s (fun t =>
      Memory.read t.mem (vatBase c + 64 * r.cmd.recAddr) 64 =
        wordBytes (r.record (s.arrayCycle c - r.startCycle) s.ftimeWord.toNat) ∧
      (∀ a, (a < vatBase c + 64 * r.cmd.recAddr ∨ vatBase c + 64 * r.cmd.recAddr + 64 ≤ a) →
        (∀ l ∈ r.lines, a < vatBase c + 64 * l.line ∨ vatBase c + 64 * l.line + 64 ≤ a) →
        Memory.byte t.mem a = Memory.byte s.mem a) ∧
      (t.core c).pressRun = rest ∧
      (t.core c).pressProgress = (s.core c).pressProgress + BitVec.ofNat 32 r.lastWork ∧
      (r.cmd.tEn = true → (t.core c).tally r.cmd.tId = (s.core c).tally r.cmd.tId + BitVec.ofNat 32 r.cmd.tAdd) ∧
      (∀ o : CoreId, o ≠ c → t.core o = s.core o))

/-- The activity level: a request that begins takes a Press at level 0 to level 1; it then rises one step each 512 array
cycles up to its ceiling; it falls at once when the Press no longer requests it, then one step each 512 cycles, unless a NOP or
a CONVERT holds it; one that stands above its region's ceiling obeys that at once (R193 to R197). That a fall which meets such a
command takes its first step and stays after it is the model's choice (log entry 119). -/
def Sys2Proof.Claims.PressLevelSteps : Prop :=
  ∀ (c : CoreId) (s : State), s.corePowered c = true →
    let k := (s.pressSync c).core c
    let level := (s.core c).pressLevel
    let now := s.arrayCycle c
    let next := if now < k.pressStepCycle + 1024 then k.pressStepCycle + 512 else now
    let levelled (n cycle : Nat) (rising : Bool) (t : State) := (t.core c).pressLevel = n ∧
      (t.core c).pressStepCycle = cycle ∧ (t.core c).pressRising = rising ∧ (t.core c).pressQ = (s.core c).pressQ ∧
      OnlyCoreReads c s t
    (k.pressRequests = true → s.regionParked c = false → k.pressRising = false → 1 ≤ s.pressCeiling c →
      level ≤ s.pressCeiling c → Gives (.pressLevelStep c) s (levelled (if level = 0 then 1 else level) now true)) ∧
    (k.pressRequests = true → s.regionParked c = false → k.pressRising = true →
      k.pressStepCycle + 512 ≤ now → level < s.pressCeiling c →
      Gives (.pressLevelStep c) s (levelled (level + 1) next true)) ∧
    (k.pressRequests = false → k.pressRising = true → 1 < level → level ≤ s.pressCeiling c →
      Gives (.pressLevelStep c) s (levelled (level - 1) now false)) ∧
    (k.pressRequests = false → k.pressRising = false → 1 < level → level ≤ s.pressCeiling c →
      (k.pressStays = true ∨ now < k.pressStepCycle + 512 →
        Gives (.pressLevelStep c) s (levelled level k.pressStepCycle false)) ∧
      (k.pressStays = false → k.pressStepCycle + 512 ≤ now →
        Gives (.pressLevelStep c) s (levelled (level - 1) next false))) ∧
    (k.pressRequests = true → s.regionParked c = false → k.pressRising = true → s.pressCeiling c < level →
      Gives (.pressLevelStep c) s (levelled (s.pressCeiling c) now true))

/-- Press commands complete, and the level steps. -/
def Obligations.PressCommandsEnd : Prop := PressCommandsComplete ∧ PressLevelSteps

/-! ## The Ladle -/

/-- The Ladle takes the descriptor at the head of its queue: one whose checks refuse it leaves a record and an interrupt,
and one that they accept starts, and issues until a limit (R148, R157, R803; 05 R275). -/
def Sys2Proof.Claims.LadleDescriptorsStart : Prop :=
  ∀ (c : CoreId) (d : LadleDesc) (rest : List LadleDesc) (s : State), (s.core c).ladleQ = d :: rest →
    s.coreAlive c = true → s.regionParked c = false → (s.core c).ladleHeld = false →
    (s.core c).engineInReset = false → (s.core c).ladleErrs.length < 32 →
    (s.core c).ladleRun.all (s.mayOverlap d) = true →
    let taken (ents : List LadleEnt) (t : State) := t = (s.modCore c (fun k =>
      { k with ladleQ := rest,
               ladleRun := k.ladleRun ++ [{ desc := d, ents := ents, row := 0, off := 0, issuedAll := false }] })).ladlePump c
    let one : List LadleEnt := [{ idx := 0, dst := d.dst, rt := d.word 6, flow := d.flow, issued := false, rtDone := false }]
    (d.op = 0 → s.ladleCheck c d = none → Gives (.ladleCopy c) s (taken one)) ∧
    (d.op = 1 → s.ladleCheck c d = none → Gives (.ladleFill c) s (taken one)) ∧
    (d.op = 2 → s.ladleCheck c d = none → Gives (.ladleList c) s (taken [])) ∧
    (∀ (cause : Nat) (a : Word), s.ladleCheck c d = some (cause, a) →
      let stops (t : State) := (t.core c).ladleErrs = (s.core c).ladleErrs ++
          [{ sub := d.sub, tag := d.tag, flowErr := 0, cause := BitVec.ofNat 8 cause, addr := a }] ∧
        (t.core c).ladleQ = rest ∧ (t.core c).ladleRun = (s.core c).ladleRun ∧
        (t.core c).intPending.getLsbD 0 = true ∧ OnlyCore c s t
      (d.op ≠ 1 → d.op ≠ 2 → Gives (.ladleCopy c) s stops) ∧ (d.op = 1 → Gives (.ladleFill c) s stops) ∧
        (d.op = 2 → Gives (.ladleList c) s stops))

/-- The next entry of a list is read from the Vat and judged; a sound one is added with its destination (R804). -/
def Sys2Proof.Claims.LadleListEntriesAreTaken : Prop :=
  ∀ (c : CoreId) (r : LadleRun) (s : State), (s.core c).ladleRun.find? (fun r => !r.issuedAll) = some r →
    s.coreAlive c = true → s.regionParked c = false → (s.core c).ladleHeld = false → (s.core c).engineInReset = false →
    r.desc.isList = true → r.ents.all (fun e => e.issued) = true →
    let at' := addrOff r.desc.dst + 16 * r.ents.length
    let base := s.loadWord at'
    let w := s.loadWord (at' + 8)
    s.rangePoisoned at' 16 = false → fld w 49 32 = 0 → s.awayChip base = none → s.awayChip r.desc.src = none →
    r.desc.outOfSpan false base = none →
    Gives (.ladleListEntry c) s (fun t => t = ((s.vatRead at' 16).modCore c (fun k => k.setRun { r with row := 0, off := 0, early := [], ents := r.ents ++
      [{ idx := r.ents.length, dst := base, rt := w, flow := fld w 63 50, issued := false, rtDone := false }] })).ladlePump c)

/-- Ladle descriptors start, and list entries are taken. -/
def Obligations.LadleTakesItsWork : Prop := LadleDescriptorsStart ∧ LadleListEntriesAreTaken

/-- A COPY of one row within the own Vat moves its bytes, and a FILL writes its pattern aligned to the destination: taken
and performed, its destination reads as the source did and no other byte changes (R126, R805). -/
def Sys2Proof.Claims.LadleMovesBytes : Prop :=
  ∀ (c : CoreId) (d : LadleDesc) (so do' : Nat) (s : State), (s.core c).ladleQ = [d] → (s.core c).ladleRun = [] →
    (s.core c).ladleTxs = [] → s.coreAlive c = true → s.regionParked c = false → (s.core c).ladleHeld = false →
    (s.core c).engineInReset = false → (s.core c).ladleErrs.length < 32 → s.ladleCheck c d = none →
    d.rows = 1 → d.planes = 1 → d.ltEn = false → (d.word 6).getLsbD 31 = false →
    s.awayChip d.dst = none → spaceOf (addrOff d.dst) = .vat c do' → addrOff d.dst % 64 + d.rowBytes ≤ 64 →
    s.ladleRefuse c d.dst d.rowBytes true = none → addrOff d.dst + d.rowBytes ≤ 2 ^ 48 →
    (d.op = 0 → s.awayChip d.src = none → spaceOf (addrOff d.src) = .vat c so →
      addrOff d.src + d.rowBytes ≤ 2 ^ 48 → s.ladleRefuse c d.src d.rowBytes false = none →
      ∃ t, runAll s [.ladleCopy c, .ladleTransactionDone c (s.core c).nextId] = some t ∧
        (∀ i, i < d.rowBytes → Memory.byte t.mem (addrOff d.dst + i) = Memory.byte s.mem (addrOff d.src + i)) ∧
        (∀ a, a < addrOff d.dst ∨ addrOff d.dst + d.rowBytes ≤ a → Memory.byte t.mem a = Memory.byte s.mem a) ∧
        (t.core c).ladleRun = [] ∧ (t.core c).ladleTxs = []) ∧
    (d.op = 1 →
      ∃ t, runAll s [.ladleFill c, .ladleTransactionDone c (s.core c).nextId] = some t ∧
        (∀ i, i < d.rowBytes → Memory.byte t.mem (addrOff d.dst + i) =
          d.src.extractLsb' (8 * ((addrOff d.dst + i) % 8)) 8) ∧
        (∀ a, a < addrOff d.dst ∨ addrOff d.dst + d.rowBytes ≤ a → Memory.byte t.mem a = Memory.byte s.mem a) ∧
        (t.core c).ladleRun = [] ∧ (t.core c).ladleTxs = [])

/-- A transaction to another chip that has been acknowledged leaves the list of those outstanding (R131). -/
def Sys2Proof.Claims.LadleTransactionsEnd : Prop :=
  ∀ (c : CoreId) (id : Nat) (x : LadleTx) (rest : List LadleTx) (f : Nat) (q : BitVec 32) (s : State),
    takeFirst (fun t => decide (t.id = id)) (s.core c).ladleTxs = some (x, rest) → s.coreAlive c = true →
    (s.core c).engineInReset = false → x.path = .write f q → x.acked = true → (s.core c).ladleHeld = true →
    (s.core c).ladleRun = [] →
    Gives (.ladleTransactionDone c id) s (fun t => (t.core c).ladleTxs = rest ∧
      (t.core c).ladleProgress = (s.core c).ladleProgress + 1 ∧ OnlyCore c s t)

/-- Ladle transactions move bytes and end. -/
def Obligations.LadleTransactionsMoveBytes : Prop := LadleMovesBytes ∧ LadleTransactionsEnd

/-! ## Barriers -/

/-- BARRIER counts the core in and stalls it, once all that went before has been performed (05 R272); the last arrival of a context of this chip completes its generation, which
starts the release wave; each region resumes in its own slot (R143, R313 to R315, R319 to R322). -/
def Obligations.BarriersCollectAndRelease : Prop :=
  (∀ (c : CoreId) (rs1 : Reg) (s : State), s.canIssue c [.g rs1] = true →
    let n := ((s.core c).getG rs1).toNat
    let b := s.ctx n
    n ≤ 255 → b.valid = true → b.frozen = false → s.chipDone c = true → (s.core c).arrivedGen n = none →
    b.cross = false → b.state = 0 → b.arrived.toNat < b.localCount.toNat →
    (b.arrived.toNat + 1 < b.localCount.toNat →
      Gives (.barrier c rs1) s (fun t => t.ctx n = { b with arrived := b.arrived + 1 } ∧
        (t.core c).stall = .barrier n b.gen ∧ (t.core c).pc = (s.core c).pc ∧ (t.core c).g = (s.core c).g ∧
        SameMem s t ∧ ∀ o : CoreId, o ≠ c → t.core o = s.core o)) ∧
    (b.arrived.toNat + 1 = b.localCount.toNat → b.nArrived.toNat < b.localCount.toNat → b.regions ≠ 0 →
      Gives (.barrier c rs1) s (fun t => (t.ctx n).gen = b.gen + 1 ∧ (t.ctx n).arrived = b.nArrived ∧
        (t.ctx n).nArrived = 0 ∧ (t.ctx n).state = 2 ∧ (t.core c).stall = .barrier n b.gen ∧
        (∃ l, t.barriers.releases = s.barriers.releases ++ l ∧ ∀ x ∈ l, x.ctx = n ∧ x.gen = b.gen ∧ s.now ≤ x.due) ∧
        SameMem s t ∧ ∀ o : CoreId, o ≠ c → t.core o = s.core o))) ∧
  (∀ (c : CoreId) (rs1 : Reg) (s : State), s.canIssue c [.g rs1] = true → ((s.core c).getG rs1).toNat ≤ 255 →
    (s.ctx ((s.core c).getG rs1).toNat).valid = true → (s.ctx ((s.core c).getG rs1).toNat).frozen = false →
    s.chipDone c = false → Gives (.barrier c rs1) s (fun t => t = s.modCore c (fun k => { k with stall := .barrierFence }))) ∧
  (∀ (r : Release) (rest : List Release) (s : State),
    takeFirst (fun (r : Release) => s.barriers.releases.all (fun x => decide (r.due ≤ x.due))) s.barriers.releases =
      some (r, rest) → r.due ≤ s.now → (∀ at', s.barriers.lastRelease = some at' → at' + 250 ≤ s.now) →
    Gives .regionRelease s (fun t => t.barriers.releases = rest ∧ t.barriers.lastRelease = some s.now ∧
      (t.region r.region).releasedAt = some s.now ∧
      (∀ c : CoreId, c ∈ s.org.regionCores r.region → (s.core c).stall = .barrier r.ctx r.gen →
        (s.org.regionCores r.region).Nodup → (t.core c).stall = .none ∧ (t.core c).pc = (s.core c).pc + 4) ∧
      (∀ c : CoreId, c ∉ s.org.regionCores r.region → t.core c = s.core c) ∧ SameMem s t)) ∧
  (∀ (e : EngineSend) (rest : List EngineSend) (s : State), s.barriers.sends = e :: rest →
    s.barriers.lastSend = none → s.storeRoom .west = true →
    Gives .barrierEngineSend s (fun t => t.barriers.sends = rest ∧ t.barriers.lastSend = some s.now ∧
      t.fab.west.store.length = s.fab.west.store.length + 1 ∧ t.cores = s.cores ∧ t.mem = s.mem)) ∧
  (∀ (w : Writer) (n : BitVec 8) (v : Word) (s : State), s.mayControl w = true → (s.ctx n.toNat).idle = true →
    Gives (.barrierConfigWrite w n false v) s (fun t =>
      (t.ctx n.toNat).valid = v.getLsbD 63 ∧ (t.ctx n.toNat).cross = v.getLsbD 62 ∧ (t.ctx n.toNat).leader = v.getLsbD 61 ∧
      (t.ctx n.toNat).leaderChip = v.extractLsb' 32 16 ∧ (t.ctx n.toNat).members = v.extractLsb' 16 5 ∧
      (t.ctx n.toNat).otherLeaders = v.extractLsb' 0 9 ∧ t.cores = s.cores ∧ t.mem = s.mem) ∧
    Gives (.barrierConfigWrite w n true v) s (fun t =>
      (t.ctx n.toNat).regions = v.extractLsb' 32 16 ∧ (t.ctx n.toNat).localCount = v.extractLsb' 0 11 ∧
      t.cores = s.cores ∧ t.mem = s.mem)) ∧
  (∀ (w : Writer) (n : BitVec 8) (s : State), s.mayControl w = true →
    (∀ c ∈ allCores, ∀ m g, (s.core c).stall = .barrier m g → m ≠ n.toNat) →
    Gives (.barrierContextReset w n) s (fun t => (t.ctx n.toNat).gen = 0 ∧ (t.ctx n.toNat).arrived = 0 ∧
      (t.ctx n.toNat).state = 0 ∧ (t.ctx n.toNat).frozen = false ∧ (t.ctx n.toNat).discarded = 0 ∧
      t.barriers.releases = s.barriers.releases.filter (fun r => r.ctx ≠ n.toNat) ∧ t.mem = s.mem))

/-! ## Power -/

namespace Sys2Proof.Claims

/-- No core and no byte of memory differs. -/
def Quiet (s t : State) : Prop := t.cores = s.cores ∧ t.mem = s.mem

/-- Every Press stands at the level of before, or at its region's ceiling where that lies lower (03 R197); nothing else of a core,
and no byte of memory, differs. -/
def PressesObey (s t : State) : Prop :=
  t.mem = s.mem ∧ ∀ c : CoreId,
    (t.core c).pressLevel = Nat.min (s.core c).pressLevel (t.pressCeiling c) ∧
    { t.core c with pressLevel := (s.core c).pressLevel, pressChanges := (s.core c).pressChanges,
                    pressStepCycle := (s.core c).pressStepCycle } = s.core c

/-- Nothing differs but the regions' registers, the power unit, and the objects whose change is to be reported. -/
def PowerOnly (s t : State) : Prop :=
  { t with regions := s.regions, pow := s.pow, oap := { t.oap with changed := s.oap.changed } } = s

/-- The power unit is `p`, but for the flags of CAP_STATUS as last reported (R539). -/
def PowIs (p : PowSt) (t : State) : Prop := t.pow = { p with shown := t.pow.shown }

/-- A command that changes the registers of region `r` alone, and the power unit to `p`. -/
def RegionOnly (r : Nat) (p : PowSt) (s t : State) : Prop :=
  (∀ q, q ≠ r → t.region q = s.region q) ∧ PowIs p t ∧ PowerOnly s t

/-- The answer to a write with a row of its own. -/
def replied (status : Nat) (body : List Byte) : List OapAnswer :=
  [{ session := 0, reqId := 0, op := 0x82, status := status, more := false, body := body }]

/-- A write is performed: it is answered OK, and `P` holds of the new state. -/
def Written (c : Instr) (s : State) (P : State → Prop) : Prop :=
  Gives c s (fun t => t.oap.lastAnswers = replied 0 [] ∧ P t)

/-- A write is refused with a code (15 Table 15.9): it changes nothing but the answer. -/
def Denied (c : Instr) (s : State) (status : Nat) (body : List Byte) : Prop :=
  exec c s = .next { s with oap := { s.oap with lastAnswers := replied status body } }

end Sys2Proof.Claims

/-- Writes of caps, window, orders, hold and frequency mode: the value is taken, and an order takes the package to the
higher of the two states; a frequency written while a job is loaded is held until the job ends (R502, R504, R513; Tables 11.3
to 11.5). -/
def Obligations.PowerWrites : Prop :=
  ∀ s : State, s.rindActive = true → s.carries .rack = true → s.carries .host = true →
    (∀ v : BitVec 32,
      Written (.capWrite .rack v) s (fun t => t.pow = { s.pow with rackCap := v.toNat, capPending := true } ∧ Quiet s t) ∧
      Written (.capWrite .host v) s (fun t => t.pow = { s.pow with hostCap := v.toNat, capPending := true } ∧ Quiet s t)) ∧
    (∀ v : BitVec 8,
      (1 ≤ v.toNat → v.toNat ≤ 30 →
        Written (.capWindowWrite .rack v) s (fun t => t.pow = { s.pow with window := v.toNat } ∧ Quiet s t)) ∧
      (v.toNat = 0 ∨ 30 < v.toNat → Denied (.capWindowWrite .rack v) s 0x05 []) ∧
      (v.toNat ≤ 1 → Written (.holdWrite .rack v) s (fun t => t.pow.hold = v.toNat ∧ Quiet s t)) ∧
      (2 < v.toNat → Denied (.rackOrderWrite .rack v) s 0x05 [] ∧ Denied (.hostOrderWrite .host v) s 0x05 []) ∧
      (v.toNat ≤ 1 → s.pow.effective ≤ 1 →
        (s.pow.hostOrder ≤ 1 → Written (.rackOrderWrite .rack v) s (fun t => t.pow.rackOrder = v.toNat ∧
          t.pow.effective = Nat.max v.toNat s.pow.hostOrder ∧
          (t.pow.effective = 1 → s.jobLoaded = true → t.pow.parked = 0xFFFF) ∧ Quiet s t)) ∧
        (s.pow.rackOrder ≤ 1 → Written (.hostOrderWrite .host v) s (fun t => t.pow.hostOrder = v.toNat ∧
          t.pow.effective = Nat.max s.pow.rackOrder v.toNat ∧
          (t.pow.effective = 1 → s.jobLoaded = true → t.pow.parked = 0xFFFF) ∧ Quiet s t))) ∧
      (v.toNat = 2 → s.pow.effective ≤ 1 → s.jobLoaded = false →
        (s.pow.hostOrder ≤ 1 → Written (.rackOrderWrite .rack v) s (fun t => t.pow.effective = 2 ∧
          t.org.computeOn = false ∧ t.pow.parked = 0xFFFF)) ∧
        (s.pow.rackOrder ≤ 1 → Written (.hostOrderWrite .host v) s (fun t => t.pow.effective = 2 ∧
          t.org.computeOn = false ∧ t.pow.parked = 0xFFFF)))) ∧
    (∀ v : BitVec 16,
      (v.toNat ≤ 1 → s.jobLoaded = false → Written (.frequencyModeWrite .host false v) s (fun t =>
        t.pow = { s.pow with mode := v.toNat } ∧ Quiet s t)) ∧
      (v.toNat ≤ 1 → s.jobLoaded = true → Written (.frequencyModeWrite .host false v) s (fun t =>
        t.pow = { s.pow with heldMode := some v.toNat } ∧ Quiet s t)) ∧
      (800 ≤ v.toNat → v.toNat ≤ 2000 → v.toNat % 25 = 0 → s.jobLoaded = false →
        Written (.frequencyModeWrite .host true v) s (fun t => t.pow = { s.pow with fixedMhz := v.toNat } ∧ Quiet s t)) ∧
      (800 ≤ v.toNat → v.toNat ≤ 2000 → v.toNat % 25 = 0 → s.jobLoaded = true →
        Written (.frequencyModeWrite .host true v) s (fun t => t.pow = { s.pow with heldMhz := some v.toNat } ∧ Quiet s t)) ∧
      (v.toNat < 800 ∨ 2000 < v.toNat ∨ v.toNat % 25 ≠ 0 → Denied (.frequencyModeWrite .host true v) s 0x05 [])) ∧
    (s.jobLoaded = true → Gives .runtimeEnd s (fun t => t.pow.mode = s.pow.heldMode.getD s.pow.mode ∧
      t.pow.fixedMhz = s.pow.heldMhz.getD s.pow.fixedMhz ∧ t.pow.heldMode = none ∧ t.pow.heldMhz = none ∧ Quiet s t))

/-- The grants of one step add up to no more than what is to be shared; a region without a present core gets none; and
where the demands fit, each is met (R524). -/
def Sys2Proof.Claims.GrantsFitTheBudget : Prop :=
  ∀ (ds : List (Nat × Bool)) (avail : Nat),
    let gs := shareBudget ds avail
    gs.length = ds.length ∧ gs.foldl (fun a g => a + g) 0 ≤ avail ∧
    (∀ (i d : Nat), ds[i]? = some (d, false) → gs[i]? = some 0) ∧
    (ds.foldl (fun n d => if d.2 then n + d.1 else n) 0 ≤ avail →
      ∀ (i d : Nat), ds[i]? = some (d, true) → ∃ g, gs[i]? = some g ∧ d ≤ g)

/-- The Ripener's step, parking slices, unparking, throttled intervals and the window average (R490, R494, R500, R511,
R521 to R532). Which grants stand where those of R524 fall below a region's draw at the lowest operating state is the model's
choice (log entry 120). -/
def Sys2Proof.Claims.RipenerSharesAndParks : Prop :=
  (∀ (e : Telemetry) (s : State), s.rindActive = true →
    let u := s.takeCap
    let shared := shareBudget (u.demandList e) (u.available e)
    let lowest := shareBudget (allRegions.map (fun r => (e.lowest.getD r 0, u.hasCores r))) (u.available e)
    let under := ∃ r ∈ allRegions, u.hasCores r = true ∧ shared.getD r 0 < e.lowest.getD r 0
    let stepped (mode : Nat) (grants : List Nat) (t : State) := t.pow.grants = grants ∧ t.pow.budget = u.budgetNow ∧
      t.pow.floorMode = mode ∧ t.pow.steps = s.pow.steps + 1 ∧ t.pow.capPending = false ∧
      t.pow.grantsDue = some (s.now + 1000, grants) ∧
      (∀ (r g : Nat), grants[r]? = some g → (t.region r).grant = Nat.min g (s.region r).grant) ∧ Quiet s t
    (e.lowestTotal ≤ u.budgetNow → e.parked ≤ u.budgetNow →
      (¬ under → Gives (.ripenerStep e) s (stepped 0 shared)) ∧ (under → Gives (.ripenerStep e) s (stepped 0 lowest))) ∧
    (u.budgetNow < e.lowestTotal → e.parked ≤ u.budgetNow →
      Gives (.ripenerStep e) s (stepped 1 (List.replicate 16 0))) ∧
    (u.budgetNow < e.parked → Gives (.ripenerStep e) s (fun t => stepped 2 (List.replicate 16 0) t ∧ t.pow.parked = 0xFFFF)) ∧
    (s.pow.capPending = true → Gives (.ripenerStep e) s (fun t =>
      t.pow.effCap = Nat.min (Nat.min s.pow.rackCap s.pow.hostCap) 4800))) ∧
  (∀ (energy lowest : Nat) (s : State),
    (s.pow.floorMode = 1 → Gives (.parkSlice energy lowest) s (fun t =>
      (t.pow.parkSlice = true ↔ s.pow.effCap * s.pow.windowUse * 1000000 < energy + 10 * lowest) ∧
      (t.pow.parkSlice = true → t.pow.parked = 0xFFFF) ∧ Quiet s t)) ∧
    (s.pow.floorMode ≠ 1 → Gives (.parkSlice energy lowest) s (fun t =>
      PowIs { s.pow with parkSlice := false } t ∧ t.regions = s.regions ∧ PowerOnly s t))) ∧
  (∀ s : State, s.pow.parkReason = false → (∀ x, s.barriers.lastRelease = some x → x + 250 ≤ s.now) →
    s.pow.unparkAt ≤ s.now →
    let released (r rotation : Nat) (t : State) := t.pow.parked = s.pow.parked &&& ~~~((1 : BitVec 16) <<< r) ∧
      t.pow.unparkAt = s.now + 250 ∧ t.barriers.lastRelease = some s.now ∧ t.barriers.rotation = rotation ∧
      (t.region r).releasedAt = some s.now ∧ Quiet s t
    (s.pow.parked = 0xFFFF → Gives .unpark s (released (s.barriers.rotation % 16) ((s.barriers.rotation + 1) % 16))) ∧
    (∀ i, s.pow.parked ≠ 0xFFFF → i < 16 → s.pow.parked.getLsbD ((s.pow.unparkFrom + i) % 16) = true →
      (∀ j, j < i → s.pow.parked.getLsbD ((s.pow.unparkFrom + j) % 16) = false) →
      Gives .unpark s (released ((s.pow.unparkFrom + i) % 16) s.barriers.rotation))) ∧
  (∀ s : State,
    (s.tickThrottle ≠ 0 → Gives .throttleTick s (fun t =>
      (∃ x, t.pow.throttleOpen = some x ∧ x.finish = s.ftimeWord.toNat ∧ x.causes &&& s.tickThrottle = s.tickThrottle ∧
        x.ceiling ≤ s.pow.tickCeiling ∧ x.mhz ≤ s.pow.tickMhz) ∧
      t.pow.tickCauses = 0 ∧ t.pow.tickCeiling = 8 ∧ t.pow.tickMhz = 2300 ∧ t.pow.intervals = s.pow.intervals ∧ Quiet s t)) ∧
    (∀ x, s.tickThrottle = 0 → s.pow.throttleOpen = some x → Gives .throttleTick s (fun t =>
      t.pow.throttleOpen = none ∧ t.pow.intervals = s.pow.intervals + 1 ∧
      t.pow.throttleLog = pushLast 32 s.pow.throttleLog x ∧ Quiet s t)) ∧
    (s.tickThrottle = 0 → s.pow.throttleOpen = none → Gives .throttleTick s (fun t =>
      t = { s with pow := { s.pow with tickCauses := 0, tickCeiling := 8, tickMhz := 2300 } }))) ∧
  (∀ (avg main aux : Nat) (s : State), Gives (.windowAvgUpdate avg main aux) s (fun t =>
    PowIs { s.pow with windowAvg := avg, energyMain := s.pow.energyMain + main, energyAux := s.pow.energyAux + aux } t ∧
    t.regions = s.regions ∧ PowerOnly s t))

/-- The Ripener shares the budget, parks and unparks. -/
def Obligations.RipenerGrantsAndParks : Prop := GrantsFitTheBudget ∧ RipenerSharesAndParks

/-- The limiter and SUPPLY_ALERT_N: every ceiling of a risen region begins its fall above FAST_LIMIT or 5,300 W, and is let go
once the average has been below 95 % of the limit for 100 us; after 100 us at ceiling 1 every clock falls by 25 MHz in 10 us.
SUPPLY_ALERT_N begins the fall of ceilings and clocks, one level in 512 array cycles and 25 MHz a step, and holds for 10 ms
after the line goes high again. Every Press obeys its ceiling, and nothing else changes (R497 to R499, R515, R516, Table 11.8;
03 R197). -/
def Sys2Proof.Claims.LimiterAndSupplyAlert : Prop :=
  (∀ (us100 ms1 : Nat) (s : State),
    (s.pow.limiter = false → s.pow.fastLimit < us100 ∨ 5300000 < ms1 →
      Gives (.limiterSample us100 ms1) s (fun t =>
        PowIs { s.pow with limiter := true, limiterSince := s.now, limiterClock := s.now, limiterBelow := none,
                           limiterFloor := none, tickCauses := s.pow.tickCauses ||| 2 } t ∧
        (∀ r, (s.region r).risen = true →
          t.region r = { (s.region r).fallCeiling with limitCause := t.causeAll, ceilRise := false }) ∧
        PressesObey s t ∧ PowerOnly { s with cores := t.cores } t)) ∧
    (s.pow.limiter = false → us100 ≤ s.pow.fastLimit → ms1 ≤ 5300000 → Gives (.limiterSample us100 ms1) s (fun t => t = s)) ∧
    (s.pow.limiter = true → us100 * 100 < s.pow.fastLimit * 95 →
      ((∃ x, s.pow.limiterBelow = some x ∧ x + 100000 ≤ s.now) →
        Gives (.limiterSample us100 ms1) s (fun t =>
          PowIs { s.pow with limiter := false, limiterBelow := none, limiterFloor := none } t ∧ t.regions = s.regions ∧
          PowerOnly s t)) ∧
      (s.pow.limiterBelow = none → Gives (.limiterSample us100 ms1) s (fun t => t.pow.limiter = true ∧
        t.pow.limiterBelow = some s.now ∧ (∀ r, (s.region r).risen = true → (t.region r).ceiling = (s.region r).fallCeiling.ceiling) ∧
        Quiet s t))) ∧
    (s.pow.limiter = true → s.pow.fastLimit < us100 →
      (∃ x, s.pow.limiterFloor = some x ∧ x + 100000 ≤ s.now) → s.pow.limiterClock + 10000 ≤ s.now →
      s.regions.all (fun e => !e.2.risen || decide (e.2.ceiling ≤ 1)) = true →
      Gives (.limiterSample us100 ms1) s (fun t => t.pow.limiter = true ∧ t.pow.limiterClock = s.now ∧
        (∀ r, (s.region r).risen = true → (t.region r).current = Nat.max 800 ((s.region r).current - 25) ∧
          (t.region r).ceiling = (s.region r).ceiling) ∧ Quiet s t))) ∧
  (∀ x : Region, x.ceilFall = false → x.clockFall = false →
    (1 < x.ceiling → x.fallLowest.ceiling = x.ceiling - 1 ∧ x.fallCeiling.ceiling = x.ceiling - 1 ∧
      (2 < x.ceiling → x.fallLowest.ceilFall = true ∧ x.fallCeiling.ceilFall = true)) ∧
    (825 ≤ x.current → x.fallLowest.current = x.current - 25 ∧ (825 < x.current → x.fallLowest.clockFall = true)) ∧
    x.fallCeiling.current = x.current) ∧
  (∀ x : Region,
    (x.ceilFall = true → x.ceilStep + 512000 ≤ x.cycles → 1 < x.ceiling → x.falls.ceiling = x.ceiling - 1) ∧
    (x.ceilFall = true → x.cycles < x.ceilStep + 512000 → x.falls.ceiling = x.ceiling) ∧
    (x.clockFall = true → x.clockWait ≤ 1 → x.ceilFall = false → 825 ≤ x.current →
      x.falls.current = x.current - 25 ∧ x.falls.clockWait = 200) ∧
    (x.clockFall = true → 1 < x.clockWait → x.ceilFall = false → x.falls = { x with clockWait := x.clockWait - 1 })) ∧
  (∀ s : State, Gives .supplyAlertAssert s (fun t =>
    t.tray = { s.tray with supplyAlert := true, supplyTray := true } ∧
    PowIs { s.pow with alertHeld := true, alertUntil := none, tickCauses := s.pow.tickCauses ||| 4 } t ∧
    (∀ r, (s.region r).risen = true →
      t.region r = { (s.region r).fallLowest with limitCause := t.causeAll, ceilRise := false }) ∧
    PowerOnly { s with tray := t.tray } t)) ∧
  (∀ s : State, s.tray.supplyAlert = true →
    (s.tray.supplyReg = false → Gives .supplyAlertDeassert s (fun t =>
      t = { s with tray := { s.tray with supplyAlert := false, supplyTray := false }, pow := { s.pow with alertUntil := some (s.now + 10000000) } })) ∧
    (s.tray.supplyReg = true → Gives .supplyAlertDeassert s (fun t =>
      t = { s with tray := { s.tray with supplyTray := false } }))) ∧
  (∀ (x : Nat) (s : State), s.pow.alertUntil = some x →
    (s.tray.supplyAlert = false → x ≤ s.now → Gives .supplyAlertHoldEnd s (fun t =>
      PowIs { s.pow with alertHeld := false, alertUntil := none } t ∧ t.regions = s.regions ∧ PowerOnly s t)) ∧
    (s.tray.supplyAlert = true ∨ s.now < x → Gives .supplyAlertHoldEnd s (fun t => t = s)))

/-- Droop stretches one region for at least 32 cycles and its recovery counts the cycles stretched; a rise ends 3,584 array cycles
after it began, and a region that waits enters its own; NEXT is cleared 100 ms after NEXT_DUE; PHASE sets CURRENT or NEXT of its
own region where PHASE_EN is set. Nothing else changes (R514, R517, R518, R520; 02 R145, R146). -/
def Sys2Proof.Claims.DroopRisesAndPhases : Prop :=
  (∀ (r : BitVec 4) (s : State),
    let x := s.region r.toNat
    let p := { s.pow with tickCauses := s.pow.tickCauses ||| 0x10 }
    let stretched := BitVec.ofNat 64 ((x.cycles - x.stretchFrom) / 1000)
    (x.risen = true → x.stretching = false → Gives (.droopDetect r) s (fun t =>
      t.region r.toNat = { x with stretching := true, stretchFrom := x.cycles, stretchEvents := x.stretchEvents + 1 } ∧
      RegionOnly r.toNat p s t)) ∧
    (x.stretching = true → x.stretchFrom + 32000 ≤ x.cycles → Gives (.droopRecover r) s (fun t =>
      t.region r.toNat = { x with stretching := false, stretchCycles := x.stretchCycles + stretched } ∧
      RegionOnly r.toNat p s t)) ∧
    (x.stretching = true → x.cycles < x.stretchFrom + 32000 → Gives (.droopRecover r) s (fun t => t = s)) ∧
    (x.rising = true → x.riseStart + 3584000 ≤ x.cycles →
      (s.pow.riseWait = [] → Gives (.riseEnd r) s (fun t => t.region r.toNat = { x with rising := false } ∧
        RegionOnly r.toNat s.pow s t)) ∧
      (∀ w, s.pow.riseWait = [w] → w ≠ r.toNat → s.mayRise w = true → s.risingCount ≤ 6 →
        Gives (.riseEnd r) s (fun t => t.region r.toNat = { x with rising := false } ∧
          t.region w = (s.region w).enterRise ∧ t.pow = { s.pow with riseWait := [] } ∧
          (∀ q, q ≠ r.toNat → q ≠ w → t.region q = s.region q) ∧ PowerOnly s t)) ∧
      (∀ w, s.pow.riseWait = [w] → w ≠ r.toNat → s.mayRise w = false → Gives (.riseEnd r) s (fun t =>
        t.region r.toNat = { x with rising := false } ∧ RegionOnly r.toNat { s.pow with riseWait := [] } s t))) ∧
    (x.rising = true → x.cycles < x.riseStart + 3584000 → Gives (.riseEnd r) s (fun t => t = s)) ∧
    (x.nextPhase ≠ 0 → 100000000 ≤ s.pastDue x → Gives (.nextExpire r) s (fun t =>
      t.region r.toNat = { x with nextPhase := 0 } ∧ RegionOnly r.toNat s.pow s t)) ∧
    (s.pastDue x < 100000000 → Gives (.nextExpire r) s (fun t => t = s))) ∧
  (∀ x : Region, x.enterRise.ceiling = Nat.min 8 (x.ceiling + 1) ∧ x.enterRise.rising = true ∧ x.enterRise.riseStart = x.cycles ∧
    x.enterRise.current = x.current) ∧
  (∀ (c : CoreId) (rs1 : Reg) (s : State), s.canIssue c [.g rs1] = true →
    let v := (s.core c).getG rs1 &&& 0xFFFFFFFF
    let n := coreRegion c
    let x := s.region n
    ((s.core c).phaseEn = false → Gives (.phase c rs1) s (ToPc c ((s.core c).pc + 4) s)) ∧
    ((s.core c).phaseEn = true → phaseAhead v = 0 → Gives (.phase c rs1) s (ToPc c ((s.core c).pc + 4) (s.setRegion n
      { x with currentPhase := v, nextPhase := if phaseId x.nextPhase = phaseId v then 0 else x.nextPhase }))) ∧
    ((s.core c).phaseEn = true → phaseAhead v ≠ 0 → Gives (.phase c rs1) s (ToPc c ((s.core c).pc + 4) (s.setRegion n
      { x with nextPhase := v, nextDue :=
          (s.ftimeWord + BitVec.ofNat 64 (phaseAhead v * 10000000)) &&& 0x0000FFFFFFFFFFFF }))))

/-- A region governor's step: the lowest point that a source above the grant demands; over its grant a step of 25 MHz, and at
800 MHz a ceiling level; below 97 % of it the ceiling rises, waits for a place, or goes on, and at ceiling 8 the clock rises by
25 MHz once its rail has settled; between, it stays, and shows what keeps it there. Every Press obeys its ceiling, and no other
region changes (R499, R501, R506 to R508, R510, R517, R518; 03 R197). -/
def Sys2Proof.Claims.GovernorsFollowTheirGrants : Prop :=
  ∀ (r : BitVec 4) (power : Nat) (settled : Bool) (s : State),
    (s.region r.toNat).risen = true → (s.region r.toNat).inReset = false → s.pow.grantsDue = none →
    let x := s.region r.toNat
    let stepped (current ceiling cause : Nat) (t : State) := (t.region r.toNat).current = current ∧
      (t.region r.toNat).ceiling = ceiling ∧ (t.region r.toNat).limitCause = cause ∧ (t.region r.toNat).power = power ∧
      (t.region r.toNat).grant = x.grant ∧ (∀ q, q ≠ r.toNat → t.region q = s.region q) ∧ PressesObey s t ∧
      PowerOnly { s with cores := t.cores, start := { s.start with ran := s.runtimeRuns } } t
    (s.thermalForced = true ∨ s.pow.alertHeld = true →
      Gives (.governorStep r ⟨power, settled⟩) s (stepped x.fallLowest.current x.fallLowest.ceiling s.causeAll)) ∧
    (s.lowestForced = false →
      (s.pow.limiter = true → s.pow.parked.getLsbD r.toNat = false → power ≤ x.grant → x.current ≤ s.topMhz →
        Gives (.governorStep r ⟨power, settled⟩) s (stepped x.current x.fallCeiling.ceiling 2)) ∧
      (s.pow.limiter = false → s.pow.parked.getLsbD r.toNat = true ∨ s.pow.effective = 2 →
        Gives (.governorStep r ⟨power, settled⟩) s (stepped 800 x.ceiling 16)) ∧
      (s.pow.limiter = false → s.pow.parked.getLsbD r.toNat = false → s.pow.effective ≠ 2 →
        (s.pow.mode = 0 → x.grant < power → 800 < x.current →
          Gives (.governorStep r ⟨power, settled⟩) s (stepped (Nat.min (x.current - 25) (s.topFor r.toNat)) x.ceiling 1)) ∧
        (s.pow.mode = 0 → x.grant < power → x.current ≤ 800 →
          Gives (.governorStep r ⟨power, settled⟩) s (stepped x.current (Nat.max 1 (x.ceiling - 1)) 1)) ∧
        (s.pow.mode = 1 → x.grant < power → x.current = s.topFor r.toNat →
          Gives (.governorStep r ⟨power, settled⟩) s (stepped x.current (Nat.max 1 (x.ceiling - 1)) 1)) ∧
        (power ≤ x.grant → s.rindActive = false → Gives (.governorStep r ⟨power, settled⟩) s
          (fun t => stepped x.current x.ceiling x.limitCause t ∧ (t.region r.toNat).target = x.target)) ∧
        (power ≤ x.grant → x.grant * 97 ≤ power * 100 → s.rindActive = true → x.current = s.topFor r.toNat →
          Gives (.governorStep r ⟨power, settled⟩) s (stepped x.current x.ceiling (s.grantCause x))) ∧
        (power * 100 < x.grant * 97 → s.rindActive = true → s.pow.mode = 0 → x.current ≤ s.topFor r.toNat →
          (x.ceiling < 8 → x.rising = true → Gives (.governorStep r ⟨power, settled⟩) s (stepped x.current
            (if x.ceilRise = true ∨ x.cycles < x.ceilStep + 512000 then x.ceiling else x.ceiling + 1) 0)) ∧
          (x.ceiling < 8 → x.rising = false → s.risingCount < 6 → s.pow.riseWait = [] →
            Gives (.governorStep r ⟨power, settled⟩) s (fun t => stepped x.current (x.ceiling + 1) 0 t ∧
              (t.region r.toNat).rising = true ∧ (t.region r.toNat).riseStart = x.cycles)) ∧
          (x.ceiling < 8 → x.rising = false → 8 ≤ s.risingCount →
            Gives (.governorStep r ⟨power, settled⟩) s (fun t => stepped x.current x.ceiling 128 t ∧
              r.toNat ∈ t.pow.riseWait)) ∧
          (x.ceiling = 8 → x.current + 25 ≤ s.topFor r.toNat →
            (x.target = x.current + 25 → settled = true → x.raisedAt.all (fun at' => decide (at' + 10000 ≤ s.now)) = true →
              Gives (.governorStep r ⟨power, settled⟩) s (fun t => (t.region r.toNat).raisedAt = some s.now ∧
                stepped (x.current + 25) 8 (if x.current + 25 = s.topMhz then s.grantCause { x with current := x.current + 25 }
                  else 0) t)) ∧
            (x.target ≠ x.current + 25 ∨ settled = false → x.current ≠ s.topMhz →
              Gives (.governorStep r ⟨power, settled⟩) s (fun t => (t.region r.toNat).target = x.current + 25 ∧
                stepped x.current 8 0 t))))))

/-- GATE_LO closes a core's gate only where the core is free, and otherwise counts the refusal; a core whose gate closes is
HALTED, its Press without a level (R541, R542). -/
def Sys2Proof.Claims.GatesCloseOnlyWhenFree : Prop :=
  ∀ (w : Writer) (r : BitVec 4) (pos : Nat) (s : State), s.mayControl w = true → pos < 64 →
    let x := s.region r.toNat
    let others : Word := (x.gate.setWidth 64) &&& ~~~((1 : Word) <<< pos)
    let these : Word := (x.gate.setWidth 64) ||| ((1 : Word) <<< pos)
    (x.gate.getLsbD pos = true → s.gateFree r.toNat pos = true → Gives (.gateWrite w r false others) s (fun t =>
      (t.region r.toNat).gate = x.gate &&& ~~~((1 : BitVec 68) <<< pos) ∧
      (t.region r.toNat).on = x.on &&& ~~~((1 : BitVec 68) <<< pos) ∧
      ∀ c, s.org.coreAt r.toNat pos = some c → (t.core c).halted = true ∧ (t.core c).run = false ∧
        (t.core c).pressLevel = 0)) ∧
    (x.gate.getLsbD pos = false → s.gateFree r.toNat pos = true → Gives (.gateWrite w r false these) s (fun t =>
      (t.region r.toNat).gate = x.gate ||| ((1 : BitVec 68) <<< pos) ∧
      (t.region r.toNat).on = x.on ||| ((1 : BitVec 68) <<< pos))) ∧
    (x.gate.getLsbD pos = true → s.gateFree r.toNat pos = false → x.gateRefused.toNat < 0xFFFF →
      Gives (.gateWrite w r false others) s (fun t =>
        t.region r.toNat = { x with gateRefused := x.gateRefused + 1 } ∧ RegionOnly r.toNat s.pow s t))

/-- Regions follow their limits. -/
def Obligations.RegionsFollowTheirLimits : Prop := LimiterAndSupplyAlert ∧ DroopRisesAndPhases ∧ GovernorsFollowTheirGrants ∧ GatesCloseOnlyWhenFree
/-! ## HBM -/

namespace Sys2Proof.Claims

/-- A layout in which no channel occurs twice: neither in the tail, nor in the interleave, nor in both. -/
def Layout (h : HbmSt) : Prop :=
  h.tail.Nodup ∧ (h.inter.map (fun e => e.1)).Nodup ∧ (∀ e ∈ h.inter, e.2.Nodup) ∧
    ∀ e ∈ h.inter, ∀ ch ∈ e.2, (e.1, ch) ∉ h.tail

end Sys2Proof.Claims

/-- In every layout without a channel twice, the place of an offset leads back to that offset, so that no two offsets share a
place; and every layout chosen after a training is one (R330 to R334). -/
def Obligations.OffsetsHaveOnePlace : Prop :=
  (∀ (h : HbmSt) (off stack ch addr : Nat), Layout h → h.loc off = some (stack, ch, addr) →
    h.offsetOf stack ch addr = some off) ∧
  (∀ (h : HbmSt) (x y : Nat), Layout h → (h.loc x).isSome = true → h.loc x = h.loc y → x = y) ∧
  ∀ s : State, Layout s.chooseLayout.hbm

/-- Stacks power up one by one and train together; training leaves a layout, fails the stacks that did not pass, and clears
the reserved areas (R330, R335, R350 to R352, R355, R356). -/
def Sys2Proof.Claims.HbmPowersAndTrains : Prop :=
  (∀ (n : Nat) (s : State), s.org.transitOn = true → s.hbmRising = true → s.hbm.trainingSince = none →
    (∀ x, s.hbm.lastPowered = some x → x + 10000000 ≤ s.now) →
    s.org.fitted.find? (fun n => !s.org.memoryOn.getLsbD n) = some n →
    Gives .hbmStackPower s (fun t => t.org.memoryOn = s.org.memoryOn ||| (1 <<< n) ∧
      t.stack n = { s.stack n with state := 2 } ∧ (∀ m, m ≠ n → t.stack m = s.stack m) ∧
      t.hbm.lastPowered = some s.now ∧ Quiet s t)) ∧
  (∀ (x : Nat) (s : State), s.hbm.lastPowered = some x → x + 10000000 ≤ s.now → s.hbm.trainingSince = none →
    (∀ n ∈ s.org.fitted, s.org.memoryOn.getLsbD n = true) →
    Gives .hbmTraining s (fun t => t.hbm.trainingSince = some s.now ∧ t.hbm.inter = s.hbm.inter ∧
      t.hbm.tail = s.hbm.tail ∧ t.hbm.limit = s.hbm.limit ∧
      (∀ n ∈ s.org.fitted, t.stack n = { s.stack n with state := 3 }) ∧ Quiet s t)) ∧
  (∀ (ts : List StackTraining) (x : Nat) (s : State), s.hbm.trainingSince = some x → s.hbm.trainingRecovery = false →
    Gives (.hbmTrainingDone ts) s (fun t => t.hbm.trainingSince = none ∧ t.hbm.epoch = s.hbm.epoch + 1 ∧ Layout t.hbm ∧
      (∀ n ∈ s.org.fitted, (t.stack n).retirePending = 0 ∧ (t.stack n).failed = 0 ∧
        (∀ r, ts[n]? = some r → r.pass = false →
          (t.stack n).state = 6 ∧ (t.stack n).healthy = 0 ∧ t.org.memoryOn.getLsbD n = false) ∧
        (∀ r, ts[n]? = some r → r.pass = true → ∀ c, c < 32 → ((t.stack n).retired.getLsbD c = true ↔
          ((s.stack n).retired ||| (s.stack n).retirePending ||| (s.stack n).retireRequest ||| (s.stack n).failed |||
            r.failedChannels).getLsbD c = true ∨ ∃ m ∈ (s.stack n).marked.drop r.rowsRepaired, m.1 = c))) ∧
      (∀ a, t.hbm.runtimeBase ≤ a → a < 0x8000000000 → Memory.byte t.mem a = 0) ∧
      (∀ a, 0x8000000000 ≤ a → t.hbm.limit ≤ 0x8000000000 → Memory.byte t.mem a = Memory.byte s.mem a) ∧
      t.cores = s.cores))

/-- Scrubbing, a channel that fails, and the temperatures (R345 to R349, R353, R354). -/
def Sys2Proof.Claims.HbmErrorsAndTemperature : Prop :=
  (∀ (n : BitVec 3) (off p st ch addr : Nat) (s : State), (s.stack n.toNat).state = 4 ∨ (s.stack n.toNat).state = 5 →
    s.hbm.nextScrub n.toNat (s.stack n.toNat).healthy (s.stack n.toNat).scrub = (some off, p) →
    s.hbm.loc off = some (st, ch, addr) → Tab.get false s.uncorrectable (off / 32) = false →
    let left := Tab.get 0 s.symbolErrs (off / 32)
    (s.selfRefresh = true → ∀ e, Gives (.hbmScrub n e) s (fun t => t = s)) ∧
    (s.selfRefresh = false →
      (left = 0 → Gives (.hbmScrub n 0) s (fun t => t.stack n.toNat = { s.stack n.toNat with scrub := p } ∧ Quiet s t)) ∧
      (∀ e, e + left = 1 → st = n.toNat → Gives (.hbmScrub n e) s (fun t => (t.stack st).scrub = p ∧
        (t.stack st).corrected = (s.stack st).corrected + 1 ∧ Tab.get 0 t.symbolErrs (off / 32) = 0 ∧
        (t.stack st).uncorrectable = (s.stack st).uncorrectable ∧ Quiet s t)) ∧
      (∀ e, 2 ≤ e + left → st = n.toNat → Gives (.hbmScrub n e) s (fun t => (t.stack st).scrub = p ∧
        (t.stack st).uncorrectable = (s.stack st).uncorrectable + 1 ∧
        Tab.get false t.uncorrectable (off / 32) = true ∧ t.faults.healthTotal ≠ s.faults.healthTotal ∧
        (∀ a, a / 32 ≠ off / 32 → Memory.byte t.mem a = Memory.byte s.mem a) ∧ t.cores = s.cores)))) ∧
  (∀ (n : BitVec 3) (ch : BitVec 5) (s : State), (s.stack n.toNat).healthy.getLsbD ch.toNat = true →
    (s.stack n.toNat).failed.getLsbD ch.toNat = false →
    Gives (.channelTimeout n ch) s (fun t => (t.stack n.toNat).failed.getLsbD ch.toNat = true ∧
      (t.stack n.toNat).retirePending.getLsbD ch.toNat = true ∧ t.mem = s.mem ∧
      (∀ m, m ≠ n.toNat → t.stack m = s.stack m))) ∧
  (∀ (n : BitVec 3) (dev : Option Int) (pkg : Int) (s : State), s.org.record.hbmFitted.getLsbD n.toNat = false →
    Gives (.hbmTempRead n dev pkg) s (fun t => t.stack n.toNat = { s.stack n.toNat with packageTemp := pkg } ∧ Quiet s t)) ∧
  (∀ (n : BitVec 3) (pkg : Int) (s : State), s.org.record.hbmFitted.getLsbD n.toNat = true →
    let x := s.stack n.toNat
    Gives (.hbmTempRead n none pkg) s (fun t => t.stack n.toNat = { x with packageTemp := pkg } ∧ Quiet s t) ∧
    (∀ d : Int, 85 * 16 < d → Gives (.hbmTempRead n (some d) pkg) s (fun t =>
      t.stack n.toNat = { x with packageTemp := pkg, temperature := d, lastValid := s.now, doubled := true, refresh := 1 } ∧ Quiet s t)) ∧
    (∀ d : Int, d < 82 * 16 → Gives (.hbmTempRead n (some d) pkg) s (fun t =>
      t.stack n.toNat = { x with packageTemp := pkg, temperature := d, lastValid := s.now, doubled := false, refresh := 0 } ∧ Quiet s t)) ∧
    (∀ d : Int, 82 * 16 ≤ d → d ≤ 85 * 16 → Gives (.hbmTempRead n (some d) pkg) s (fun t =>
      t.stack n.toNat = { x with packageTemp := pkg, temperature := d, lastValid := s.now,
                                 refresh := if x.doubled then 1 else 0 } ∧ Quiet s t)) ∧
    (x.lastValid + 100000000 ≤ s.now → Gives (.hbmTempLost n) s (fun t =>
      t.stack n.toNat = { x with refresh := 2 } ∧ Quiet s t)))

/-- HBM powers up, trains, meets errors and temperatures. -/
def Obligations.HbmServes : Prop := HbmPowersAndTrains ∧ HbmErrorsAndTemperature

/-! ## Start-up, main power, tray -/

/-- The AUX reset keeps what lies in flash; the Starters elect a controller; the start goes from step to step as each ends
(R592, R614 to R619; 15 R627 to R629). -/
def Obligations.StartRunsItsSteps : Prop :=
  (∀ (byPin : Bool) (s : State), Gives (.auxReset byPin) s (fun t => (∀ c, t.core c = Core.reset) ∧ (∀ r, (t.region r).risen = false) ∧
    (.value 0x2001 1 ∉ s.tray.flash → t.pow.rackCap = s.pow.rackCap) ∧
    (.value 0x2001 1 ∈ s.tray.flash → t.pow.rackCap = s.flashed.rackCap) ∧
    (.value 0x2020 1 ∉ s.tray.flash → t.pow.rackOrder = s.pow.rackOrder) ∧
    (.value 0x4020 1 ∉ s.tray.flash → t.fab.chip = s.fab.chip) ∧
    (s.start.failed = false → t.org.record = s.org.record) ∧
    t.org.copyA.entries = s.org.copyA.entries ∧ t.org.copyB.entries = s.org.copyB.entries ∧ t.org.defects = [] ∧
    t.start.byPin = byPin ∧ t.start.step = 1 ∧
    t.tray.holdsMain = false ∧ t.rind.a = .starter ∧ t.rind.b = .starter ∧ (s.tray.holdsMain = false → t.mem = s.mem))) ∧
  (∀ (straps : BitVec 2) (a b : StarterResult) (s : State), s.start.step = 1 → s.rind.a = .starter → s.rind.b = .starter →
    (starterPasses a b = true → Gives (.auxPowerUp straps a b) s (fun t => t.rind.a = .active ∧ t.rind.ownA = true ∧
      t.org.auxOn = true ∧ t.tray.slot = straps.toNat ∧ (s.tray.refSys = true → s.tray.refFab = true → Quiet s t) ∧
      ((s.tray.refSys = false ∨ s.tray.refFab = false) → t.start.step = 0x0B ∧ t.start.cause = 8 ∧
        t.faults.tierLost = true ∧ t.mem = s.mem))) ∧
    (starterPasses a b = false → starterPasses b a = true → Gives (.auxPowerUp straps a b) s (fun t =>
      t.rind.a = .starter ∧ t.rind.ownA = false ∧ t.rind.b = .standby ∧ t.org.auxOn = false ∧ Quiet s t))) ∧
  (∀ s : State, s.start.step = 1 → s.rind.b = .standby → s.rind.ownA = false → 3000000000 ≤ s.now →
    Gives .ownBClaim s (fun t => t.rind.b = .active ∧ t.rind.ownB = true ∧ t.org.auxOn = true ∧
      (s.tray.refSys = true → s.tray.refFab = true → Quiet s t) ∧
      ((s.tray.refSys = false ∨ s.tray.refFab = false) → t.start.step = 0x0B ∧ t.start.cause = 8))) ∧
  (∀ s : State,
    (s.start.step = 1 → s.rindActive = true → Gives (.startStepBegin .ok) s (fun t => t.start.step = 2 ∧
      t.start.begun = s.now ∧ Quiet s t)) ∧
    (s.start.step = 2 → s.rindActive = true → Gives (.startStepBegin .failed) s (fun t => t.start.step = 0x0B ∧
      t.start.cause = 5 ∧ t.tray.mainReq = s.tray.mainReq ∧ Quiet s t)) ∧
    (s.start.step = 2 → s.rindActive = true → s.org.anyBody = true → Gives (.startStepBegin .ok) s (fun t =>
      (t.start.step = 3 ∧ (t.tray.mainReq = 1 ∨ t.start.cause = 3)) ∨ (t.start.step = 0x0B ∧ t.start.cause = 4))) ∧
    (s.start.step = 3 → s.tray.mainPg = true → s.tray.holdsMain = true →
      Gives (.startStepBegin .ok) s (fun t => t.start.step = 4 ∧ Quiet s t)) ∧
    (s.start.step = 4 → Gives (.startStepBegin .failed) s (fun t => t.start.step = 0x0B ∧ t.start.cause = 0 ∧ Quiet s t)) ∧
    (s.start.step = 4 → Gives (.startStepBegin .ok) s (fun t => t.start.step = 5 ∧ t.org.transitOn = true ∧
      (t.org.computeOn = true → s.org.computeOn = true ∨ (t.start.rising = true ∧ t.start.rises = 0)) ∧ Quiet s t)) ∧
    (s.start.step = 5 → s.allRisen = true ∨ s.org.computeOn = false → Gives (.startStepBegin .ok) s (fun t =>
      t.start.step = 6 ∧ Quiet s t)) ∧
    (s.start.step = 5 → Gives (.startStepBegin .failed) s (fun t => t.start.step = 6 ∧ t.start.cause = 6 ∧
      t.start.rising = false ∧ t.faults.tierLost = true ∧ Quiet s t)) ∧
    (s.start.step = 6 → s.trainingEnded = true → s.computeReady = false → Gives (.startStepBegin .ok) s (fun t =>
      t.start.step = 7 ∧ (s.hbmServes = false → t.start.cause = 7 ∧ t.faults.tierLost = true) ∧ Quiet s t)) ∧
    (s.start.step = 7 → Gives (.startStepBegin .ok) s (fun t => t.start.step = 8 ∧ t.start.groups = 0 ∧ Quiet s t)) ∧
    (s.start.step = 7 → ∀ p : Nat, p < 48 → Gives (.startStepBegin (.lanes [p])) s (fun t => t.start.step = 8 ∧
      t.port p = { s.port p with laneFailed := true } ∧ t.faults.reasons.getLsbD 13 = true ∧ Quiet s t)) ∧
    (s.start.step = 8 → s.portsDecided = true → Gives (.startStepBegin .ok) s (fun t => t.start.step = 9 ∧ Quiet s t)) ∧
    (s.start.step = 9 → s.tablesEnded = true → Gives (.startStepBegin .ok) s (fun t => t.start.step = 0x0A ∧
      t.start.endTier = s.faults.tier ∧ Quiet s t))) ∧
  (∀ (defects : List Nat) (s : State), s.start.rising = true → s.org.computeOn = true → s.start.rises < 16 →
    (∀ x, s.start.lastRise = some x → x + 2000000 ≤ s.now) →
    Gives (.regionRise true []) s (fun t => (t.region s.start.rises).risen = true ∧
      (t.region s.start.rises).current = 800 ∧ (t.region s.start.rises).gate = t.org.recordGates s.start.rises ∧
      t.start.rises = s.start.rises + 1 ∧ t.start.lastRise = some s.now ∧
      (∀ r, r ≠ s.start.rises → t.region r = s.region r) ∧ Quiet s t) ∧
    Gives (.regionRise false defects) s (fun t => t.start.rising = false ∧ t.faults.tierLost = true ∧
      t.faults.seq = s.faults.seq + 1 ∧ t.mem = s.mem ∧
      (s.org.fieldFree ≤ s.org.unwritten ∨ t.org.regionNoted s.start.rises = true))) ∧
  (∀ (ok : Bool) (defects : List Nat) (s : State), s.org.computeOn = false →
    Gives (.regionRise ok defects) s (fun t => t = s)) ∧
  (∀ s : State, s.start.step = 8 → s.start.groups < 6 → s.start.lastGroup = none →
    Gives .trainingGroupStart s (fun t => t.start.groups = s.start.groups + 1 ∧ t.start.lastGroup = some s.now ∧
      Quiet s t))

/-- Main power: asked for, granted, lost and retried; the reference clocks (R589, R593 to R595, R616; Table 13.8). -/
def Sys2Proof.Claims.MainPowerComesAndGoes : Prop :=
  (∀ s : State,
    (s.tray.mainReq = 1 → s.therm.heatTrip = false → Gives .mainPgAssert s (fun t => t.tray.mainPg = true ∧
      t.tray.holdsMain = true ∧ Quiet s t)) ∧
    (s.tray.mainReq ≠ 1 → Gives .mainPgAssert s (fun t => t.tray.mainPg = true ∧
      t.tray.holdsMain = s.tray.holdsMain ∧ Quiet s t)) ∧
    Gives .mainPgLoss s (fun t => t.tray.mainPg = false ∧ t.tray.holdsMain = false ∧ t.org.computeOn = false ∧
      t.org.transitOn = false ∧ t.org.memoryOn = 0 ∧ (s.tray.holdsMain = true → t.tray.mainReq = 0)) ∧
    Gives (.mainEntryFault .low) s (fun t => t.pow.alertHeld = true ∧ t.tray.supplyAlert = true ∧
      t.tray.supplyReg = true ∧ Quiet s t) ∧
    Gives (.mainEntryFault .high) s (fun t => t.faults.healthTotal = s.faults.healthTotal + 1 ∧ t.pow = s.pow ∧ Quiet s t) ∧
    Gives (.mainEntryFault .back) s (fun t => t.tray.supplyReg = false ∧
      t.tray.supplyAlert = (s.tray.supplyAlert && s.tray.supplyTray) ∧ Quiet s t) ∧
    (s.tray.holdsMain = true ∨ s.mainFed = true → Gives (.mainEntryFault .off) s (fun t => t.tray.holdsMain = false ∧
      t.org.computeOn = false ∧ t.org.transitOn = false ∧ t.org.memoryOn = 0)) ∧
    (s.tray.holdsMain = false → s.mainFed = false → Gives (.mainEntryFault .off) s (fun t => t = s))) ∧
  (∀ s : State, s.rindActive = true → s.carries .owner = true →
    (s.tray.holdsMain = false → s.tray.mainReq ≠ 1 → 3 ≤ s.start.step → s.mainAllowed = true →
      Written (.mainRetry .owner 1) s (fun t => t.tray.mainReq = 1 ∧ t.start.step = 3 ∧ Quiet s t)) ∧
    (s.tray.holdsMain = false → s.tray.mainReq ≠ 1 → 3 ≤ s.start.step → s.mainAllowed = false → s.start.cause = 3 →
      Written (.mainRetry .owner 1) s (fun t => t.tray.mainReq = s.tray.mainReq ∧ t.start.step = 3 ∧ t.start.cause = 3 ∧ Quiet s t)) ∧
    (s.start.step < 3 → Written (.mainRetry .owner 1) s (fun t => t.start = s.start ∧ t.tray = s.tray ∧ Quiet s t)) ∧
    (s.tray.holdsMain = true → Written (.mainRetry .owner 1) s (fun t => t.tray = s.tray ∧ Quiet s t)) ∧
    (∀ v : BitVec 8, v ≠ 1 → Denied (.mainRetry .owner v) s 0x05 [])) ∧
  (∀ s : State, s.tray.refSys = true → Gives (.refclkLoss .sys) s (fun t => t.tray.refSys = false ∧
    (s.tray.holdsMain = true → t.tray.mainReq = 2 ∧ t.tray.holdsMain = false) ∧ t.faults.tierLost = true ∧ t.mem = s.mem)) ∧
  (∀ s : State, s.tray.refFab = true → Gives (.refclkLoss .fab) s (fun t => t.tray.refFab = false ∧
    t.oap.portA.up = false ∧ t.oap.portB.up = false ∧ t.mem = s.mem)) ∧
  (∀ s : State, Gives (.refclkRestore .sys) s (fun t => t.tray = { s.tray with refSys := true } ∧ Quiet s t) ∧
    Gives (.refclkRestore .fab) s (fun t => t.tray = { s.tray with refFab := true } ∧ Quiet s t))

/-- The lines to the tray, the flash writes that wait, the sideband's readings and LOCATE (R597 to R605, R612). -/
def Sys2Proof.Claims.TrayLinesAndSideband : Prop :=
  (∀ s : State, Gives .ejectAssert s (fun t => t.tray.eject = true ∧ Quiet s t) ∧
    Gives .ejectDeassert s (fun t => t.tray.eject = false ∧ Quiet s t)) ∧
  (∀ (high : Bool) (s : State), Gives (.holdupOkChange high) s (fun t => t.tray.holdup = high ∧ Quiet s t)) ∧
  (∀ (e : AppEntry) (es : List AppEntry) (rest : List FlashItem) (s : State), s.rindActive = true → s.tray.holdup = true →
    s.tray.eject = false → s.tray.flash = .appendix :: rest → s.org.pendingEntries = e :: es →
    (s.org.behindB = false → Gives .flashProgram s (fun t => t.org.pendingEntries = e :: es ∧
      t.org.fieldSequence = s.org.fieldSequence + 1 ∧ .appendix ∈ t.tray.flash ∧
      t.org.copyA = RecordCopy.append s.org.copyA { e with seq := (s.org.fieldSequence + 1).toNat } (decide (s.rind.a = .active)) ∧
      t.org.copyA.entries = (if s.org.copyA.valid then s.org.copyA.entries else []) ++
        [{ e with seq := (s.org.fieldSequence + 1).toNat }] ∧ t.org.copyB = s.org.copyB ∧ Quiet s t)) ∧
    (s.org.behindB = true → Gives .flashProgram s (fun t => t.org.pendingEntries = es ∧
      t.org.fieldSequence = s.org.fieldSequence ∧
      t.org.copyB.entries = (if s.org.copyB.valid then s.org.copyB.entries else []) ++
        [{ e with seq := s.org.fieldSequence.toNat }] ∧ t.org.copyA = s.org.copyA ∧ Quiet s t))) ∧
  (∀ (x : RecordCopy) (rest : List FlashItem) (s : State), s.rindActive = true → s.tray.holdup = true →
    s.tray.eject = false → s.tray.flash = .record :: rest → s.org.governing = some x →
    Gives .flashProgram s (fun t => t.org.copyA = x ∧ t.org.copyB = x ∧ t.tray.flash = rest ∧ Quiet s t)) ∧
  (∀ (rest : List FlashItem) (s : State), s.rindActive = true → s.tray.holdup = true → s.tray.eject = false →
    s.tray.flash = .value 0x2001 1 :: rest →
    Gives .flashProgram s (fun t => t.flashed.rackCap = s.pow.rackCap ∧ t.tray.flash = rest ∧ Quiet s t)) ∧
  (∀ s : State, s.tray.eject = true ∨ s.tray.holdup = false ∨ s.rindActive = false →
    Gives .flashProgram s (fun t => t = s)) ∧
  (∀ (e : TrayRegs) (power : Nat) (s : State), s.rindActive = true →
    (e.formatMajor ≠ 1 → Gives (.sidebandPoll e power) s (fun t => t.tray.address = 0x08 ∧
      t.tray.format = e.formatMajor * 256 + e.formatMinor ∧
      t.tray.busErrors = s.tray.busErrors + BitVec.ofNat 32 e.busErrors ∧ t.tray.noticeAck = s.tray.noticeAck ∧
      (t.sitePort 44).moduleState = 5 ∧ (t.sitePort 45).moduleState = 5 ∧ (t.sitePort 46).moduleState = 5 ∧
      (t.sitePort 47).moduleState = 5)) ∧
    (e.formatMajor = 1 → s.tray.format ≠ 0 → s.rind.switching = none → s.tray.lastSeq = some e.seq →
      Gives (.sidebandPoll e power) s (fun t => t.tray.format = 256 + e.formatMinor ∧ t.tray.modules = e.modules ∧
        t.tray.noticeAck = BitVec.ofNat 8 e.noticeAck ∧ t.tray.reqSeq = s.tray.reqSeq + 1 ∧ t.tray.address = 0x08 ∧
        t.tray.pieceStatus = e.pieceStatus ∧ t.tray.pieceEcho = e.pieceEcho ∧ Quiet s t)) ∧
    (e.formatMajor = 1 → Gives (.inBandInterrupt 8 e) s (fun t =>
      t.tray = { s.tray with stageId := BitVec.ofNat 32 e.stageId, stageState := e.stageState } ∧ Quiet s t))) ∧
  (∀ (role : Role) (s : State), role ≠ .observer → s.rindActive = true → s.carries role = true →
    Written (.locateWrite role 1) s (fun t => t.tray.locateUntil = some (s.now + 1800000000000) ∧ Quiet s t) ∧
    Written (.locateWrite role 0) s (fun t => t.tray.locateUntil = none ∧ Quiet s t) ∧
    ∀ v : BitVec 8, 1 < v.toNat → Denied (.locateWrite role v) s 0x05 []) ∧
  (∀ (x : Nat) (s : State), s.tray.locateUntil = some x → x ≤ s.now →
    Gives .locateTimeout s (fun t => t.tray.locateUntil = none ∧ Quiet s t))

/-- Main power, the lines to the tray, the sideband. -/
def Obligations.MainPowerAndTray : Prop := MainPowerComesAndGoes ∧ TrayLinesAndSideband

/-! ## The Rind pair -/

namespace Sys2Proof.Claims

/-- Not both controllers are active. -/
def AtMostOneActive (s : State) : Prop := ¬(s.rind.a = .active ∧ s.rind.b = .active)

end Sys2Proof.Claims

/-- Releases, claims, restarts, tests, mirroring, takeback and the handover and confirmation of an update (R629 to R641; 17
R752 to R754); where at most one controller is active before one of these commands, at most one is active after it. -/
def Obligations.RindPairKeepsOneActive : Prop :=
  (∀ s : State, AtMostOneActive s →
    (∀ f : RindFault, Gives (.rindRelease f) s AtMostOneActive) ∧ Gives .rindWatchdog s AtMostOneActive ∧
    (∀ main aux bound : Nat, Gives (.rindClaim main aux bound) s AtMostOneActive) ∧
    (∀ (x : Rind) (r : StarterResult), Gives (.rindRestart x r) s AtMostOneActive) ∧
    (∀ e : StandbyTests, Gives (.standbyTest e) s AtMostOneActive) ∧ Gives .mirrorCopy s AtMostOneActive ∧
    Gives .takeback s AtMostOneActive ∧ Gives .rindUpdateHandover s AtMostOneActive ∧
    Gives .rindImageConfirmed s AtMostOneActive ∧ Gives .rindConfirmTimeout s AtMostOneActive) ∧
  (∀ (f : RindFault) (x : Rind) (s : State), s.rind.active = some x →
    (s.rind.releases x < 2 → Gives (.rindRelease f) s (fun t => t.rind.role x = .starter ∧
      t.rind.releases x = s.rind.releases x + 1 ∧ t.rind.lowFor x (s.now + 1000000) = true ∧ Quiet s t)) ∧
    (2 ≤ s.rind.releases x → Gives (.rindRelease f) s (fun t => t.rind.role x = .halted ∧
      t.rind.lowFor x (s.now + 1000000) = true ∧ Quiet s t)) ∧
    Gives .rindWatchdog s (fun t => t.rind.role x = .starter ∧ t.rind.releases x = s.rind.releases x ∧
      t.rind.nextCause = 3 ∧ Quiet s t)) ∧
  (∀ (main aux bound : Nat) (x : Rind) (s : State), s.rind.standby = some x → s.rindActive = false →
    s.standbyHealthy = true → s.rind.lowFor x.other s.now = true →
    Gives (.rindClaim main aux bound) s (fun t => t.rind.role x = .active ∧ t.rindActive = true ∧
      t.rind.takeovers = s.rind.takeovers + 1 ∧ t.rind.lastCause = s.rind.nextCause ∧
      t.pow.energyMain = Nat.max s.pow.energyMain (s.rind.mirror.main + (102 * main + 99) / 100) ∧
      t.pow.gaps = s.pow.gaps + 1 ∧ t.oap.sessions = s.oap.sessions.map Session.takenOver ∧
      Quiet s t)) ∧
  (∀ (x : Rind) (r : StarterResult) (s : State), s.rind.role x = .starter → s.beingWritten x = false →
    s.rind.releases x < 3 → r.selfTest = true → r.keysMatch = true → r.starterOk = true →
    (s.flashOpen = true ∨ (r.rindOk = true ∧ (s.rindImage x).state ≠ 1)) →
    Gives (.rindRestart x r) s (fun t => t.rind.role x = .standby ∧ t.rind.healthy = false ∧ Quiet s t)) ∧
  (∀ (e : StandbyTests) (x : Rind) (s : State), s.rind.standby = some x →
    (e.memoryErrors = 0 → e.lockstepDetected = true → e.loopbackOk = true → e.mirrorLag ≤ 100 →
      Gives (.standbyTest e) s (fun t => t.rind.healthy = true ∧ t.rind.healthySince = some (s.rind.healthySince.getD s.now) ∧
        t.faults.healthTotal = s.faults.healthTotal ∧ Quiet s t)) ∧
    (100 < e.mirrorLag → Gives (.standbyTest e) s (fun t => t.rind.healthy = false ∧ t.rind.healthySince = none ∧
      Quiet s t))) ∧
  (∀ (x : Rind) (s : State), s.rindActive = true → s.rind.standby = some x → s.rind.mirror.energyAt + 100000000 ≤ s.now →
    Gives .mirrorCopy s (fun t => t.rind.mirror.main = s.pow.energyMain ∧ t.rind.mirror.aux = s.pow.energyAux ∧
      t.pow = s.pow ∧ Quiet s t)) ∧
  (∀ s : State, s.rind.b = .active → s.rind.a = .standby → s.healthyFor 60000000000 = true → s.handoverHeld = false →
    s.fw.update.isOpen = false →
    Gives .takeback s (fun t => t.rind.b = .starter ∧ t.rind.a = .standby ∧ t.rind.ownB = false ∧ t.rind.nextCause = 4 ∧
      Quiet s t)) ∧
  (∀ (x y : Rind) (s : State), s.fw.update.type = 2 → s.fw.update.state = 4 →
    (s.rind.active = some x → s.rind.standby = some y → s.fw.update.firstDone = false → (s.rindImage y).state = 4 →
      s.healthyFor 30000000000 = true → s.handoverHeld = false →
      Gives .rindUpdateHandover s (fun t => t.rind.role x = .starter ∧ t.rind.role y = .standby ∧ t.rind.nextCause = 5 ∧
        Quiet s t)) ∧
    (s.rind.active = some x → s.fw.update.firstDone = false → (s.rindImage x).state = 4 →
      heldFor s.fw.update.holdFrom 30000000000 s.now = true →
      Gives .rindImageConfirmed s (fun t => (t.rindImage x).state = 5 ∧ t.fw.update.firstDone = true ∧
        t.rind.role x.other = .starter ∧ Quiet s t)) ∧
    (s.rind.standby = some y → s.fw.update.firstDone = true → (s.rindImage y).state = 4 →
      s.healthyFor 30000000000 = true →
      Gives .rindImageConfirmed s (fun t => (t.rindImage y).state = 5 ∧ t.fw.update.state = 6 ∧
        (t.image 2).floor = securityVersion (s.rindImage y).desc ∧ Quiet s t)) ∧
    (heldFor s.fw.update.bootAt 120000000000 s.now = true → s.handoverHeld = false → (s.rindImage .a).state = 4 →
      s.flashOpen = true →
      Gives .rindConfirmTimeout s (fun t => t.rindImage .a = { s.rindImage .b with state := 5 } ∧ t.fw.update.state = 7 ∧
        t.fw.update.status = 0x11 ∧ t.rind.a = .starter ∧ Quiet s t)))

/-! ## Ports, plans and routes -/

/-- Identity frames: sent at their period, a bad one only counted, a good one seen, with a link or without; another neighbour
quarantines the port, and a quarantined port whose frame meets the plan enters service. Frames lost for 350 ms, a lane without
lock, and the loss of a site line end the link: the packets of a port in service are held for failover, and its limit counts from
now. A trained port is judged by the neighbour's frame and the plan; one without a link tries once a second, and is DOWN after its
limit (R378 to R380, R386 to R392, R398, R817; 09 R405; 10 R460, R465, R480). -/
def Obligations.PortsMeetTheirNeighbours : Prop :=
  (∀ (p : BitVec 6) (s : State), p.toNat < 48 → s.org.transitOn = true → s.tray.refFab = true →
    (s.port p.toNat).sendsFrames = true →
    (∀ x, (s.port p.toNat).frameSent = some x → x + (s.port p.toNat).framePeriod ≤ s.now) →
    Gives (.identityFrameSend p) s (fun t => (t.port p.toNat).sentFrame = some (s.ownFrame p.toNat) ∧
      (t.port p.toNat).frameSent = some s.now ∧ (∀ q, q ≠ p.toNat → t.port q = s.port q) ∧ Quiet s t)) ∧
  (∀ (p : BitVec 6) (f : IdFrame) (s : State), p.toNat < 48 →
    let x := s.port p.toNat
    (f.crcOk = false ∨ f.frameType ≠ 1 → Gives (.identityFrame p f) s (fun t =>
      t.port p.toNat = { x with badFrames := x.badFrames + 1 } ∧ (∀ q, q ≠ p.toNat → t.port q = s.port q) ∧ Quiet s t)) ∧
    (f.crcOk = true → f.frameType = 1 → s.org.transitOn = true →
      (x.trained = false → Gives (.identityFrame p f) s (fun t => t.port p.toNat = x.saw f s.now ∧
        (∀ q, q ≠ p.toNat → t.port q = s.port q) ∧ Quiet s t)) ∧
      (x.trained = true → x.state = stService → x.changedBy f = false →
        Gives (.identityFrame p f) s (fun t => t.port p.toNat = x.saw f s.now ∧
          (∀ q, q ≠ p.toNat → t.port q = s.port q) ∧ Quiet s t)) ∧
      (x.trained = true → x.state = stService → x.changedBy f = true →
        Gives (.identityFrame p f) s (fun t => (t.port p.toNat).state = stQuarantine ∧ (t.port p.toNat).cause = 0x0B ∧
          (x.asm = [] → (t.port p.toNat).failHeld = x.failHeld ++ x.holding) ∧ Quiet s t)) ∧
      (∀ e : PlanEntry, x.trained = true → x.state = stQuarantine → s.isSite p.toNat = false →
        s.planEntry p.toNat = some e → e.use ≠ 0 → e.meets f = true → x.flightNs ≤ flightLimit e.use + 10 →
        f.planId = s.fab.planId → f.planId ≠ 0 → f.serial ≠ s.ownSerial → f.protoMajor = 1 → f.protoMinor = 2 →
        Gives (.identityFrame p f) s (fun t => (t.port p.toNat).state = stService ∧ (t.port p.toNat).cause = 0 ∧
          (t.port p.toNat).nbSerial = f.serial ∧ (t.port p.toNat).nbPort = f.port ∧ Quiet s t)))) ∧
  (∀ (p : BitVec 6) (s : State), (s.port p.toNat).state ≠ stService → (s.port p.toNat).trained = true →
    Gives (.laneLockLoss p) s (fun t => (t.port p.toNat).state = s.linklessState p.toNat ∧
      (t.port p.toNat).trained = false ∧ (t.port p.toNat).limitFrom = some s.now ∧ Quiet s t)) ∧
  (∀ (p : BitVec 6) (s : State), (s.port p.toNat).state = stService →
    let y := (s.dropArriving p.toNat).port p.toNat
    let lost (t : State) := (t.port p.toNat).state = stTraining ∧ (t.port p.toNat).trained = false ∧
      (t.port p.toNat).failHeld = y.failHeld ++ y.holding ∧ (t.port p.toNat).out = [] ∧
      (t.port p.toNat).limitFrom = some s.now ∧ Quiet s t
    ((s.port p.toNat).lastFrame + 350000000 ≤ s.now → Gives (.identityTimeout p) s lost) ∧
    (s.now < (s.port p.toNat).lastFrame + 350000000 → Gives (.identityTimeout p) s (fun t => t = s)) ∧
    Gives (.laneLockLoss p) s lost ∧
    (∀ fault : Bool, s.isSite p.toNat = true → (s.port p.toNat).trained = true → Gives (.siteLineLost p fault) s (fun t => lost t ∧
      (t.sitePort p.toNat).state = 4 ∧ (t.sitePort p.toNat).cause = (if fault then 0x03 else 0x05)))) ∧
  (∀ (p : BitVec 6) (s : State), s.isSite p.toNat = true → (s.port p.toNat).trained = false →
    (s.port p.toNat).state ≠ stService →
    Gives (.siteLineLost p true) s (fun t => (t.sitePort p.toNat).state = 4 ∧ (t.sitePort p.toNat).cause = 0x03 ∧
      (t.sitePort p.toNat).moduleState = 4 ∧ t.port p.toNat = s.port p.toNat ∧ Quiet s t)) ∧
  (∀ (p : BitVec 6) (f : IdFrame) (flight : Nat) (trips : List Nat) (s : State), p.toNat < 48 → s.org.transitOn = true →
    s.tray.refFab = true → (s.port p.toNat).trained = false → f.crcOk = true → f.frameType = 1 →
    let trained := Gives (.linkTrained p f ⟨flight, trips⟩) s
    (∀ why, s.isSite p.toNat = true → s.siteRefusal p.toNat = some why → trained (fun t =>
      (t.sitePort p.toNat).state = (if why = 0x03 then 4 else 5) ∧ (t.sitePort p.toNat).cause = why ∧
      t.port p.toNat = s.port p.toNat ∧ Quiet s t)) ∧
    (s.isSite p.toNat = true → s.siteRefusal p.toNat = none → trips.length ≠ 16 → trained (fun t => t = s)) ∧
    (s.isSite p.toNat = true → s.siteRefusal p.toNat = none → trips.length = 16 → f.protoMajor ≠ 1 → trained (fun t =>
      (t.port p.toNat).state = stQuarantine ∧ (t.port p.toNat).cause = 0x01 ∧ (t.port p.toNat).trained = true ∧
      (t.sitePort p.toNat).linkNs = trips.foldl (· + ·) 0 / 32 ∧
      (t.port p.toNat).flightNs = trips.foldl (· + ·) 0 / 32 - (t.sitePort p.toNat).moduleNs ∧ Quiet s t)) ∧
    (s.isSite p.toNat = false → f.protoMajor = 1 → f.serial ≠ s.ownSerial →
      (s.planEntry p.toNat = none → trained (fun t => (t.port p.toNat).state = stQuarantine ∧
        (t.port p.toNat).cause = 0x03 ∧ (t.port p.toNat).trained = true ∧ (t.port p.toNat).flightNs = flight ∧ Quiet s t)) ∧
      (∀ e : PlanEntry, s.planEntry p.toNat = some e → e.use ≠ 0 → e.meets f = true → flight ≤ flightLimit e.use + 10 →
        f.planId = s.fab.planId → f.planId ≠ 0 → f.protoMinor = 2 →
        trained (fun t => (t.port p.toNat).state = stService ∧ (t.port p.toNat).cause = 0 ∧
          (t.port p.toNat).trained = true ∧ (t.port p.toNat).flightNs = flight ∧ (t.port p.toNat).txSeq = 0 ∧
          (t.port p.toNat).rxSeq = 0 ∧ Quiet s t)))) ∧
  (∀ (p : BitVec 6) (s : State), p.toNat < 48 → s.org.transitOn = true → (s.port p.toNat).trained = false →
    (s.port p.toNat).lastTry + 1000000000 ≤ s.now →
    Gives (.trainingRetry p) s (fun t => t.port p.toNat = { s.port p.toNat with lastTry := s.now } ∧ Quiet s t ∧
      ∀ why, s.isSite p.toNat = true → s.siteRefusal p.toNat = some why →
        (t.sitePort p.toNat).state = (if why = 0x03 then 4 else 5) ∧ (t.sitePort p.toNat).cause = why)) ∧
  (∀ (p : BitVec 6) (x : Nat) (s : State), p.toNat < 48 → (s.port p.toNat).limitFrom = some x →
    s.planUses p.toNat = true → (s.port p.toNat).trained = false → (s.port p.toNat).state = stTraining →
    x + s.trainLimit p.toNat ≤ s.now →
    Gives (.portMissing p) s (fun t => (t.port p.toNat).state = stDown ∧ (t.port p.toNat).cause = 0x0A ∧ Quiet s t))

/-- Plans, their signer, accepted swaps, the shadow bank and its commit (R370 to R377, R381 to R385, R390). -/
def Obligations.PlansAndRoutesAreChecked : Prop :=
  ∀ s : State, s.rindActive = true → s.carries .owner = true →
    (∀ v : List Byte, v.length < 0x1000000 →
      (s.planCauseOf v s.fab.signer = 0 → Written (.planWrite .owner v) s (fun t =>
        t.fab.plan = some (planOf v s.fab.signer) ∧ t.fab.planId = (planOf v s.fab.signer).id ∧ t.fab.planCause = 0 ∧
        t.fab.chip = BitVec.ofNat 16 (planOf v s.fab.signer).chip ∧ t.fab.planEpoch = s.fab.planEpoch + 1 ∧
        t.fab.swaps = [] ∧ Quiet s t)) ∧
      (s.planCauseOf v s.fab.signer ≠ 0 → Gives (.planWrite .owner v) s (fun t =>
        t.fab = { s.fab with planCause := s.planCauseOf v s.fab.signer } ∧ t.oap.lastAnswers = replied 0x05 [] ∧
        Quiet s t)) ∧
      Written (.signerWrite .owner v) s (fun t => t.fab = { s.fab with signer := v } ∧ Quiet s t)) ∧
    (∀ a b : Nat, a < 48 → b < 48 → a ≠ b →
      (s.swapOk a b = true → Written (.acceptSwap .owner (BitVec.ofNat 16 (256 * a + b))) s (fun t =>
        (t.port a).logical = s.logicalOf b ∧ (t.port b).logical = s.logicalOf a ∧
        t.fab.swaps = s.fab.swaps ++ [(a, b)] ∧ t.fab.planEpoch = s.fab.planEpoch + 1 ∧ t.fab.routes = s.fab.routes ∧ Quiet s t)) ∧
      (s.swapOk a b = false → Denied (.acceptSwap .owner (BitVec.ofNat 16 (256 * a + b))) s 0x05 [])) ∧
    (∀ (b : BitVec 6) (v : List Byte), v.length = 2048 →
      ((∀ i, i < 256 → blockEntry v i &&& 0x000100000000000F = 0) → Written (.routeBlockWrite .owner b v) s (fun t =>
        (∀ i, i < 256 → Tab.get routeDefault t.fab.shadow (256 * b.toNat + i) = blockEntry v i) ∧
        (∀ n, n / 256 ≠ b.toNat → Tab.get routeDefault t.fab.shadow n = Tab.get routeDefault s.fab.shadow n) ∧
        t.fab.routes = s.fab.routes ∧ Quiet s t)) ∧
      (∀ i, i < 256 → blockEntry v i &&& 0x000100000000000F ≠ 0 → Denied (.routeBlockWrite .owner b v) s 0x05 [])) ∧
    (s.commitCause = 0 → Written (.routeCommit .owner 1) s (fun t => t.fab.routes = s.fab.shadow ∧
      t.fab.shadow = s.fab.shadow ∧ t.fab.activePlan = s.fab.shadowPlan ∧ t.fab.routeCause = 0 ∧
      t.fab.routeEpoch = s.fab.routeEpoch + 1 ∧ Quiet s t)) ∧
    (s.commitCause ≠ 0 → Gives (.routeCommit .owner 1) s (fun t =>
      t.fab = { s.fab with routeCause := s.commitCause } ∧ t.oap.lastAnswers = replied 0x0B (leBytes 2 s.commitCause) ∧
      Quiet s t)) ∧
    (∀ v : BitVec 8, v ≠ 1 → Denied (.routeCommit .owner v) s 0x05 [])

/-! ## Links -/

/-- Flits in sequence make packets, a bad one asks for a replay, and a link-control flit acknowledges, pauses and asks for
resending (R401 to R404, R446, R447); a failover gives its packets back to the die (R455). -/
def Obligations.LinksCarryFlitsInOrder : Prop :=
  (∀ (p : BitVec 6) (f : Flit) (s : State), (s.port p.toNat).state = stService → s.isSite p.toNat = false →
    (Flit.header f = true ∨ Flit.isData f = true) → Flit.vl f < 10 → (s.port p.toNat).nakSent = none →
    let x := s.port p.toNat
    let a := AsmPkt.begin f x.rxSeq
    let fits := 64 * (x.occTotal + 1) ≤ s.depth p.toNat
    let stays (t : State) := t.fab.west = s.fab.west ∧ t.fab.east = s.fab.east
    (Flit.bad f = true → Tab.get none x.asm (Flit.vl f) = none → Gives (.flitReceive p f) s (fun t =>
      (t.port p.toNat).nakSent = some x.rxSeq ∧ (t.port p.toNat).rxSeq = x.rxSeq ∧ (t.port p.toNat).stopAll = true ∧
      stays t ∧ Quiet s t)) ∧
    (∀ y, Flit.bad f = true → Flit.header f = false → Tab.get none x.asm (Flit.vl f) = some y → y.early = false →
      Gives (.flitReceive p f) s (fun t => (t.port p.toNat).nakSent = some y.start ∧ (t.port p.toNat).rxSeq = y.start ∧
        Tab.get none (t.port p.toNat).asm (Flit.vl f) = none ∧ stays t ∧ Quiet s t)) ∧
    (Flit.bad f = false → ¬fits → Gives (.flitReceive p f) s (fun t => (t.port p.toNat).state = stTraining ∧ Quiet s t)) ∧
    (Flit.bad f = false → fits → Flit.header f = true →
      (Flit.isEnd f = false → Gives (.flitReceive p f) s (fun t =>
        Tab.get none (t.port p.toNat).asm (Flit.vl f) = some { a with early := s.cutThrough a } ∧
        (t.port p.toNat).rxSeq = seqAdd x.seqMod x.rxSeq 1 ∧ (t.port p.toNat).redo = x.redo - 1 ∧
        (t.port p.toNat).stopAll = (x.stopAll && decide (1 < x.redo)) ∧
        (t.port p.toNat).occ (Flit.vl f) = x.occ (Flit.vl f) + 1 ∧ (s.cutThrough a = false → stays t) ∧
        (s.cutThrough a = true → ∃ r, (t.die (portDie p.toNat)).toRoute = (s.die (portDie p.toNat)).toRoute ++ [r] ∧
          r.pkt = a.ahead ∧ r.input = p.toNat ∧ r.arriving = some (p.toNat, Flit.vl f)) ∧ Quiet s t)) ∧
      (Flit.isEnd f = true → a.crcOk f = false → Gives (.flitReceive p f) s (fun t =>
        (t.port p.toNat).nakSent = some x.rxSeq ∧ (t.port p.toNat).rxSeq = x.rxSeq ∧ Quiet s t)) ∧
      (Flit.isEnd f = true → a.crcOk f = true →
        (Flit.stomp f = true → Gives (.flitReceive p f) s (fun t => (t.port p.toNat).stomped = x.stomped + 1 ∧
          (t.port p.toNat).rxSeq = seqAdd x.seqMod x.rxSeq 1 ∧ stays t ∧ Quiet s t)) ∧
        (Flit.stomp f = false → PKind.allows a.whole.kind a.whole.cls = true → a.whole.kind ≠ .beacon →
          Gives (.flitReceive p f) s (fun t => (∃ r, (t.die (portDie p.toNat)).toRoute =
              (s.die (portDie p.toNat)).toRoute ++ [r] ∧ r.pkt = a.whole ∧ r.input = p.toNat ∧ r.arriving = none) ∧
            (t.port p.toNat).rxSeq = seqAdd x.seqMod x.rxSeq 1 ∧ Quiet s t)) ∧
        (Flit.stomp f = false → PKind.allows a.whole.kind a.whole.cls = false → Gives (.flitReceive p f) s (fun t =>
          (t.die (portDie p.toNat)).discKind = (s.die (portDie p.toNat)).discKind + 1 ∧
          (t.die (portDie p.toNat)).toRoute = (s.die (portDie p.toNat)).toRoute ∧ Quiet s t)))) ∧
    (∀ y, Flit.bad f = false → fits → Flit.header f = false → Flit.isEnd f = true → Flit.stomp f = false →
      Tab.get none x.asm (Flit.vl f) = some y → y.early = false → (y.add f).crcOk f = true →
      PKind.allows y.hdr.kind y.hdr.cls = true → y.hdr.kind ≠ .beacon → Gives (.flitReceive p f) s (fun t =>
        (∃ r, (t.die (portDie p.toNat)).toRoute = (s.die (portDie p.toNat)).toRoute ++ [r] ∧ r.pkt = (y.add f).whole) ∧
        Tab.get none (t.port p.toNat).asm (Flit.vl f) = none ∧ Quiet s t))) ∧
  (∀ (p : BitVec 6) (f : Flit) (s : State), (s.port p.toNat).state = stService →
    let x := s.port p.toNat
    let stays (y : Port) (t : State) := t.port p.toNat = y ∧ t.fab.west = s.fab.west ∧ t.fab.east = s.fab.east ∧ Quiet s t
    (∀ n, x.nakSent = some n → (Flit.header f = true ∨ Flit.isData f = true) → (Flit.header f && f.resend) = false →
      Gives (.flitReceive p f) s (stays { x with redo := x.redo + 1, stopAll := x.stopAll || Flit.bad f })) ∧
    (Flit.header f = false → Flit.isData f = false →
      (Flit.bad f = true → Gives (.flitReceive p f) s (stays { x with stopAll := true })) ∧
      (Flit.bad f = false → x.nakSent = none → Gives (.flitReceive p f) s (stays { x with redo := 0, stopAll := false })))) ∧
  (∀ (p : BitVec 6) (l : LinkCtl) (s : State), (s.port p.toNat).state = stService → s.isSite p.toNat = false →
    let x := s.port p.toNat
    (l.nak = none → Gives (.linkControl p l) s (fun t => (t.port p.toNat).replay = (x.acked l.ackSeq).replay ∧
      (∀ e, x.replay = [e] → l.ackSeq = e.last →
        seqSpan x.seqMod e.first e.last < seqSpan x.seqMod e.first x.txSeq → (t.port p.toNat).replay = []) ∧
      (s.windowMode p.toNat = false → (t.port p.toNat).xoffRecv = pausedBy l) ∧
      (t.port p.toNat).txSeq = x.txSeq ∧ (t.port p.toNat).out = x.out ∧ Quiet s t)) ∧
    (∀ seq, l.nak = some seq → x.resendSeq ≠ some seq → Gives (.linkControl p l) s (fun t =>
      (t.port p.toNat).resendSeq = some seq ∧ (t.port p.toNat).resends = 1 ∧ (t.port p.toNat).replays = x.replays + 1 ∧
      (x.sending = none → (t.port p.toNat).txOut = (t.port p.toNat).flitsFrom seq) ∧
      (t.port p.toNat).state = stService ∧ Quiet s t)) ∧
    (∀ seq, l.nak = some seq → x.resendSeq = some seq → x.resends = 7 → (x.acked l.ackSeq).replay = x.replay →
      Gives (.linkControl p l) s (fun t => (t.port p.toNat).state = stTraining ∧ (t.port p.toNat).trained = false ∧
        Quiet s t))) ∧
  (∀ (p : BitVec 6) (s : State), (s.port p.toNat).state = stService →
    let x := s.port p.toNat
    Gives (.linkAckSend p) s (fun t => t.port p.toNat =
      { x with ackSent := some s.now, ctlOut := some (x.control false), nakTold := x.nakSent.isSome } ∧ Quiet s t) ∧
    (s.windowMode p.toNat = true → (∀ y, x.creditSent = some y → y + s.creditPeriod p.toNat ≤ s.now) →
      Gives (.creditReturn p) s (fun t => (t.port p.toNat).creditSent = some s.now ∧
        (t.port p.toNat).ctlOut = some (x.control true) ∧ (t.port p.toNat).owedLane = [] ∧ (t.port p.toNat).owedPool = 0 ∧
        (∀ l, l < 10 → Tab.get 0 (t.port p.toNat).heldLane l = Tab.get 0 x.heldLane l - Tab.get 0 x.owedLane l) ∧
        (t.port p.toNat).rxOcc = x.rxOcc ∧ Quiet s t)) ∧
    (s.portUp p.toNat = true → s.windowMode p.toNat = true → (∀ y, x.creditChecked = some y → y + 100000 ≤ s.now) →
      (x.creditsWrong (s.isSite p.toNat) = true → Gives (.longLinkCheck p) s (fun t =>
        (t.port p.toNat).state = stTraining ∧ Quiet s t)) ∧
      (x.creditsWrong (s.isSite p.toNat) = false → Gives (.longLinkCheck p) s (fun t =>
        t = s.setPort p.toNat { x with creditChecked := some s.now }))) ∧
    (∀ y, x.creditChecked = some y → s.now < y + 100000 → Gives (.longLinkCheck p) s (fun t => t = s))) ∧
  (∀ (p : BitVec 6) (s : State), Gives (.failoverResend p) s (fun t => (t.port p.toNat).failHeld = [] ∧
    (t.die (portDie p.toNat)).toRoute = ((s.port p.toNat).failHeld.filter (fun e => decide (e.pkt.kind ≠ .beacon))).map
      (fun e => e.toRoutePkt) ++ (s.die (portDie p.toNat)).toRoute ∧ Quiet s t))

/-- The next packet of a port leaves into the replay buffer, and each port's congestion record is taken (R403, R414, R438,
R452, R453). -/
def Sys2Proof.Claims.PacketsDepart : Prop :=
  (∀ (p : BitVec 6) (e : PortPkt) (s : State), s.portUp p.toNat = true → s.windowMode p.toNat = false →
    (s.port p.toNat).sending = none → (s.port p.toNat).busyUntil ≤ 100 * s.now →
    (s.port p.toNat).out = [e] → (s.port p.toNat).held = [] → e.pkt.cls = .signal → e.pkt.kind ≠ .beacon → 8 ≤ e.lane → e.lane < 10 →
    (s.port p.toNat).xoffRecv.getLsbD e.lane = false → (s.port p.toNat).seqRoom (Packet.flits e.pkt) = true →
    (s.port p.toNat).replayUsed + 64 * Packet.flits e.pkt ≤ (s.port p.toNat).replayAlloc →
    Gives (.packetDepart p) s (fun t => (t.port p.toNat).out = [] ∧
      (∃ y, (t.port p.toNat).replay = (s.port p.toNat).replay ++ [y] ∧ y.entry = { e with buf := if e.arriving.isSome then e.buf else none } ∧
        y.first = (s.port p.toNat).txSeq % (s.port p.toNat).seqMod) ∧
      (t.port p.toNat).txSeq = seqAdd (s.port p.toNat).seqMod (s.port p.toNat).txSeq (Packet.flits e.pkt) ∧
      (e.arriving = none → (t.port p.toNat).txOut = e.flits) ∧ Quiet s t)) ∧
  (∀ (p : BitVec 6) (e : PortPkt) (s : State), s.portUp p.toNat = true → (s.port p.toNat).held = [] →
    (s.port p.toNat).out = [e] → (s.port p.toNat).xoffRecv.getLsbD e.lane = true →
    Gives (.packetDepart p) s (fun t => (t.port p.toNat).replay = (s.port p.toNat).replay ∧
      (t.port p.toNat).txSeq = (s.port p.toNat).txSeq ∧ (t.port p.toNat).out.length = 1 ∧ Quiet s t)) ∧
  (∀ (p : BitVec 6) (e : PortPkt) (r : Nat) (s : State), s.portUp p.toNat = true → s.isSite p.toNat = false →
    s.sched.active = true → (s.ftime - s.sched.activeStart) % 2048 = 0 → (s.port p.toNat).free s.now = true →
    s.chooseIf p.toNat (fun _ => true) [1] = some (e, r) →
    Gives (.scheduleSlotStart p) s (fun t => (t.port p.toNat).out = (s.port p.toNat).out.erase e ∧
      (∃ y, (t.port p.toNat).replay = (s.port p.toNat).replay ++ [y] ∧ y.entry = { e with buf := if e.arriving.isSome then e.buf else none } ∧
        y.first = (s.port p.toNat).txSeq % (s.port p.toNat).seqMod) ∧
      (t.port p.toNat).txSeq = seqAdd (s.port p.toNat).seqMod (s.port p.toNat).txSeq (Packet.flits e.pkt) ∧
      e.pkt.cls = .scheduled ∧ s.inSlot p.toNat e.pkt = true ∧ Quiet s t)) ∧
  (∀ (p : BitVec 6) (s : State), p.toNat < 48 → s.org.transitOn = true → s.cong.enable = 1 →
    (∀ x, (s.port p.toNat).congTime = some x → x + 10000 ≤ s.now) →
    let since := (s.port p.toNat).congTime.getD (s.now - 10000)
    Gives (.congestionSample p) s (fun t =>
      (t.port p.toNat).ring = pushLast 256 (s.port p.toNat).ring (s.congRecord p.toNat since) ∧
      (t.port p.toNat).congSeq = (s.port p.toNat).congSeq + 1 ∧ (t.port p.toNat).misses = 0 ∧
      (t.port p.toNat).flits = [] ∧ (t.port p.toNat).queuedMax = (s.port p.toNat).queuedNow ∧ (p ≠ 0 → t.cong = s.cong) ∧ (p = 0 → t.cong.samples = s.cong.samples + 1) ∧ Quiet s t))

/-! ## Flows -/

/-- A packet is routed by its class and the active table, one for this chip has arrived, and one past five hops is counted
(R371, R372, R410, R413). -/
def Sys2Proof.Claims.PacketsAreRouted : Prop :=
  ∀ (d : Die) (e : RoutePkt) (rest : List RoutePkt) (s : State), (s.die d).toRoute = e :: rest →
    (e.pkt.dstChip = s.fab.chip → Gives (.packetRoute d) s (fun t => t.fab.arrived = s.fab.arrived ++ [e] ∧
      (t.die d).toRoute = rest ∧ t.fab.ports = s.fab.ports ∧ Quiet s t)) ∧
    (e.pkt.dstChip ≠ s.fab.chip → 5 ≤ e.pkt.hops → PKind.refusable e.pkt.kind = false →
      Gives (.packetRoute d) s (fun t => (t.die d).discHops = (s.die d).discHops + 1 ∧ (t.die d).toRoute = rest ∧
        t.fab.arrived = s.fab.arrived ∧ (e.buf = none → t.fab.ports = s.fab.ports) ∧ Quiet s t)) ∧
    (e.pkt.dstChip ≠ s.fab.chip → 5 ≤ e.pkt.hops → PKind.refusable e.pkt.kind = true → e.origin ≠ ownInput →
      Gives (.packetRoute d) s (fun t => (t.die d).discHops = (s.die d).discHops + 1 ∧
        (∃ r, (t.die d).toRoute = rest ++ [r] ∧ r.pkt.kind = .nak ∧ r.pkt.dstChip = e.pkt.srcChip ∧
          r.pkt.flow = e.pkt.flow) ∧ (e.buf = none → t.fab.ports = s.fab.ports) ∧ Quiet s t)) ∧
    (e.pkt.dstChip ≠ s.fab.chip → e.pkt.hops < 5 → routeValid (s.route e.pkt.dstChip) = false →
      PKind.refusable e.pkt.kind = false → Gives (.packetRoute d) s (fun t =>
        (t.die d).discUnreachable = (s.die d).discUnreachable + 1 ∧ (t.die d).toRoute = rest ∧
        (e.buf = none → t.fab.ports = s.fab.ports) ∧ Quiet s t)) ∧
    (∀ (p : Nat) (det : Bool), e.pkt.dstChip ≠ s.fab.chip → e.pkt.hops < 5 →
      routeValid (s.route e.pkt.dstChip) = true → e.pkt.cls = .service →
      s.detPort (s.route e.pkt.dstChip) = some (p, det) → (s.port p).held = [] →
      Gives (.packetRoute d) s (fun t => (t.die d).toRoute = rest ∧
        (∃ x : PortPkt, (t.port p).out = (s.port p).out ++ [x] ∧ x.pkt = e.pkt ∧
          x.input = (if portDie p = d then e.input else inputX) ∧ x.lane < 2) ∧
        (∀ q, q ≠ p → t.port q = s.port q) ∧ Quiet s t))

/-- Packets depart and are routed. -/
def Obligations.PacketsDepartAndAreRouted : Prop := PacketsDepart ∧ PacketsAreRouted

namespace Sys2Proof.Claims

/-- A packet has reached this chip on an open sink flow, with the lowest sequence not yet accepted and nothing held. -/
def NextOnFlow (s : State) (k : Packet) : Prop :=
  k.dstChip = s.fab.chip ∧ s.org.transitOn = true ∧ s.hears k = true ∧ s.packetWaits k = false ∧
    (∀ x ∈ s.fab.early, x.pkt ≠ k) ∧ s.symbolErrs = [] ∧ (s.flow k.flow.toNat).valid = true ∧
    (s.flow k.flow.toNat).sink = true ∧ (s.flow k.flow.toNat).err = 0 ∧ (s.flow k.flow.toNat).epoch = k.epoch ∧
    (s.flow k.flow.toNat).peerChip = k.srcChip ∧ k.seq = (s.flow k.flow.toNat).seq ∧
    (s.flow k.flow.toNat).rxMap = 0 ∧ (s.flow k.flow.toNat).held = []

/-- An answer that names an open source flow of this chip. -/
def ForSource (s : State) (k : Packet) : Prop :=
  k.dstChip = s.fab.chip ∧ s.org.transitOn = true ∧ s.hears k = true ∧ s.packetWaits k = false ∧
    (∀ x ∈ s.fab.early, x.pkt ≠ k) ∧ s.symbolErrs = [] ∧ s.sourceOf k = some k.flow.toNat

/-- The home of a write takes it: a Vat of a core that serves in a region out of reset, or HBM channels that answer. -/
def HomeTakes (s : State) (off len : Nat) : Prop :=
  (∃ o, vatOwner off = some o ∧ (s.region (coreRegion o)).inReset = false ∧ s.coreServes o = true) ∨
    (vatOwner off = none ∧ ∀ a, off ≤ a → a < off + len → s.channelFailed a = false)

/-- No Cave or receive-store traffic waits at a die, and its hold queue holds nothing of a flow. -/
def DieClear (s : State) (i : Nat) : Prop :=
  (s.die (flowDie i)).moves = [] ∧ ∀ h ∈ (s.die (flowDie i)).holds, h.flow ≠ i

/-- The payload of a packet lies at its address, and every other byte is as before. -/
def TookPayload (k : Packet) (s t : State) : Prop :=
  (∀ j b, k.data[j]? = some b → Memory.byte t.mem (Packet.off k + j) = b) ∧
    ∀ a, a < Packet.off k ∨ Packet.off k + k.data.length ≤ a → Memory.byte t.mem a = Memory.byte s.mem a

end Sys2Proof.Claims

/-- What the packets of a flow do at their sink: bytes written, reads answered, tallies added or held, each sequence accepted
once; a line of a packet that has arrived may be performed before the rest, and its flow then waits for the whole packet (R409,
R420 to R423, R427, R429, R430; 06 R303 to R305; 05 R258, R259). -/
def Sys2Proof.Claims.FlowsDeliverOnce : Prop :=
  (∀ (k : Packet) (s : State), NextOnFlow s k → DieClear s k.flow.toNat →
    let i := k.flow.toNat
    let next (t : State) := (t.flow i).seq = k.seq + 1 ∧ (t.flow i).err = 0
    (k.kind = .write → s.inboundError (flowDie i) (Packet.off k) k.data.length true = none →
      HomeTakes s (Packet.off k) k.data.length →
      Gives (.writePacket k) s (fun t => next t ∧ (t.flow i).count = (s.flow i).count + 1 ∧ TookPayload k s t ∧
        t.cores = s.cores)) ∧
    (k.kind = .readReq → 0 < (Packet.arg k 1).toNat →
      s.inboundError (flowDie i) (Packet.off k) (Packet.arg k 1).toNat false = none → s.homeAsleep (Packet.off k) = none →
      Gives (.readReq k) s (fun t => next t ∧ (∃ e ∈ (t.die (flowDie i)).toRoute, e.pkt.kind = .readResp ∧
        e.pkt.dstChip = k.srcChip ∧ e.pkt.seq = k.seq ∧ e.pkt.flow = (s.flow i).peerFlow) ∧ Quiet s t)) ∧
    (k.kind = .tallyWrite → s.org.computeOn = true → s.coreServes (tallyCore k) = true →
      (s.region (coreRegion (tallyCore k))).inReset = false → s.coreAlive (tallyCore k) = true → expectWrong k = false →
      (s.tallyMet i k = true → Gives (.tallyWrite k) s (fun t => next t ∧
        (t.core (tallyCore k)).tally (tallyId k) =
          (s.core (tallyCore k)).tally (tallyId k) + BitVec.ofNat 32 (tallyAmount k) ∧
        (∀ o : CoreId, o ≠ tallyCore k → t.core o = s.core o) ∧ SameMem s t)) ∧
      (s.tallyMet i k = false → s.holdRoom i = true → Gives (.tallyWrite k) s (fun t => next t ∧
        (t.die (flowDie i)).holds = (s.die (flowDie i)).holds ++ [HeldTally.mk i k s.now] ∧ Quiet s t)) ∧
      (s.tallyMet i k = false → s.holdRoom i = false → Gives (.tallyWrite k) s (fun t => t.flow i = s.flow i ∧
        (t.die (flowDie i)).holds = (s.die (flowDie i)).holds ∧
        (t.die (flowDie i)).toRoute.length = (s.die (flowDie i)).toRoute.length + 1 ∧ Quiet s t)))) ∧
  (∀ (n line : Nat) (mask : BitVec 64) (e : RoutePkt) (s : State), s.fab.arrived[n]? = some e → s.packetGoes e.pkt = true →
    (s.die (flowDie e.pkt.flow.toNat)).moves = [] → (∀ x ∈ s.fab.early, x.pkt ≠ e.pkt) → s.symbolErrs = [] →
    let k := e.pkt
    let off := Packet.off k
    let waits (t : State) := t.fab.flows = s.fab.flows ∧ t.fab.arrived = s.fab.arrived ∧ t.cores = s.cores
    ((k.kind = .write ∧ s.flowTakes k k.data.length true = true) ∨
        (k.kind = .readResp ∧ s.respRefused k = none ∧ s.sourceOf k = some k.flow.toNat) →
      Gives (.homeAccess (.packetWrite n line mask) 0 0) s (fun t => waits t ∧
        (∀ j b, k.data[j]? = some b → (off + j) / 64 = line →
          (Memory.byte t.mem (off + j) = b ∨ Memory.byte t.mem (off + j) = Memory.byte s.mem (off + j)) ∧
          (mask = BitVec.allOnes 64 → s.channelFailed (64 * line) = false → Memory.byte t.mem (off + j) = b)) ∧
        (∀ a, a / 64 ≠ line ∨ a < off ∨ off + k.data.length ≤ a → Memory.byte t.mem a = Memory.byte s.mem a))) ∧
    (k.kind = .readReq → s.flowTakes k (Packet.arg k 1).toNat false = true → off / 64 ≤ line →
      64 * line < off + (Packet.arg k 1).toNat →
      Gives (.homeAccess (.packetRead n line) 0 0) s (fun t => waits t ∧ SameMem s t ∧
        (Tab.get [] (t.earlyOf k).read line).map (fun b => b.1) = Memory.read s.mem (64 * line) 64))) ∧
  (∀ (k : Packet) (s : State), k.dstChip = s.fab.chip → s.org.transitOn = true → s.hears k = true → s.packetWaits k = false →
    (s.flow k.flow.toNat).valid = true → (s.flow k.flow.toNat).fresh k.seq = false →
    let dropped (t : State) := t.flow k.flow.toNat =
      { s.flow k.flow.toNat with discards := satAdd 0xFFFF (s.flow k.flow.toNat).discards 1 } ∧ Quiet s t
    (k.kind = .write → Gives (.writePacket k) s dropped) ∧ (k.kind = .readReq → Gives (.readReq k) s dropped) ∧
    (k.kind = .tallyWrite → Gives (.tallyWrite k) s dropped))

/-- At the source of a flow: responses, acknowledgements and refusals, what a refused tally write does, and how a flow ends
(R423, R424, R427, R428; 06 R305, R306). -/
def Sys2Proof.Claims.FlowsAcknowledgeAndEnd : Prop :=
  (∀ (k : Packet) (s : State), ForSource s k →
    let i := k.flow.toNat
    (k.kind = .readResp → s.respRefused k = none → (s.die (flowDie i)).moves = [] →
      HomeTakes s (Packet.off k) k.data.length →
      (k.last = true → Gives (.readResp k) s (fun t => TookPayload k s t ∧
        (∀ x ∈ (t.core (s.flow i).owner).ladleTxs, x.path = .read i k.seq → x.acked = true) ∧
        (∀ e ∈ (t.flow i).sentAt, e.1 ≠ k.seq) ∧
        ((∀ e ∈ (s.flow i).sentAt, e.1 ≠ k.seq → s.readOpen i e.1 = false) → (t.flow i).ackSeq = (s.flow i).peerAck))) ∧
      (k.last = false → Gives (.readResp k) s (fun t => TookPayload k s t ∧ t.fab.flows = s.fab.flows ∧ t.cores = s.cores))) ∧
    (k.kind = .ack → k.flow ≠ noFlow → Packet.arg k 2 ≠ 0 → (s.flow i).offSched = false → Gives (.ack k) s (fun t =>
      (t.flow i).offSched = true ∧ (t.core (s.flow i).owner).intPending.getLsbD 5 = true ∧ SameMem s t)) ∧
    (k.kind = .ack → k.flow ≠ noFlow → Packet.arg k 2 = 0 →
      below (s.flow i).peerAck ((Packet.arg k 0).setWidth 32) = true → Gives (.ack k) s (fun t =>
        ((∀ e ∈ (s.flow i).sentAt, s.readOpen i e.1 = false) → (t.flow i).ackSeq = (Packet.arg k 0).setWidth 32) ∧
        (∀ q x, (s.flow i).sentAt = [(q, x)] → s.readOpen i q = true →
          below q ((Packet.arg k 0).setWidth 32) = true → (t.flow i).ackSeq = q) ∧
        ((s.flow i).returned.toNat ≤ (Packet.arg k 1).toNat → (t.flow i).returned = Packet.arg k 1) ∧
        (t.flow i).seq = (s.flow i).seq ∧ SameMem s t))) ∧
  (∀ (k : Packet) (s : State), k.kind = .ack → k.flow = noFlow → k.dstChip = s.fab.chip → s.org.transitOn = true → s.hears k = true → s.packetWaits k = false →
    Gives (.ack k) s (fun t => (∀ u ∈ (t.die k.srcDie).store,
      ¬(u.pkt.dstChip = k.srcChip ∧ u.pkt.seq = (Packet.arg k 0).setWidth 32)) ∧ Quiet s t)) ∧
  (∀ (k : Packet) (s : State), k.kind = .nak → k.flow ≠ noFlow → k.dstChip = s.fab.chip → s.org.transitOn = true → s.hears k = true → s.packetWaits k = false →
    Packet.arg k 2 = 0 → (s.flow k.flow.toNat).valid = true → (s.flow k.flow.toNat).err = 0 →
    (s.flow k.flow.toNat).epoch = k.epoch → (s.flow k.flow.toNat).peerChip = k.srcChip →
    ((Packet.arg k 1).toNat ≠ holdFull → Gives (.nak k) s (fun t =>
      (t.flow k.flow.toNat).err = (Packet.arg k 1).setWidth 8 ∧ t.mem = s.mem)) ∧
    ((Packet.arg k 1).toNat = holdFull → Gives (.nak k) s (fun t => t.flow k.flow.toNat =
      { s.flow k.flow.toNat with refusals := satAdd 0xFFFF (s.flow k.flow.toNat).refusals 1 } ∧ Quiet s t))) ∧
  (∀ (n : Nat) (x : SentTally) (y : Nat) (s : State), s.fab.sentTallies[n]? = some x → x.refusedAt = some y →
    y + 2000 ≤ s.now →
    Gives (.tallyWriteResend n) s (fun t => t.fab.sentTallies[n]? = some { x with refusedAt := none } ∧
      (t.die (flowDie x.flow)).toRoute.length = (s.die (flowDie x.flow)).toRoute.length + 1 ∧ Quiet s t)) ∧
  (∀ (n : Nat) (x : SentTally) (s : State), s.fab.sentTallies[n]? = some x →
    x.firstSent + 10000000 ≤ s.now → (s.flow x.flow).valid = true → (s.flow x.flow).err = 0 →
    Gives (.tallyTimeout (flowDie x.flow) false n) s (fun t => (t.flow x.flow).err = 0x07 ∧
      (t.core x.pkt.srcCore).intPending.getLsbD 7 = true ∧ t.mem = s.mem)) ∧
  (∀ (n : Nat) (d : Die) (x : HeldTally) (s : State), (s.die d).holds[n]? = some x → x.since + 10000000 < s.now →
    (s.flow x.flow).valid = true → (s.flow x.flow).err = 0 →
    Gives (.tallyTimeout d true n) s (fun t => (t.flow x.flow).err = 0x07 ∧ t.mem = s.mem)) ∧
  (∀ (flow : BitVec 14) (s : State),
    let f := s.flow flow.toNat
    f.valid = true → f.err = 0 →
    (∀ x, f.gapSince = some x → f.sink = true → x + (if f.site then 5000000 else 100000) ≤ s.now →
      Gives (.gapTimeout flow) s (fun t => (t.flow flow.toNat).err = 0x03 ∧ (t.flow flow.toNat).held = [] ∧ t.mem = s.mem)) ∧
    (∀ q x l, f.sentAt = (q, x) :: l → f.sink = false → x + (if f.site then 25000000 else 10000000) ≤ s.now →
      Gives (.ackTimeout flow) s (fun t => (t.flow flow.toNat).err = 0x04 ∧ t.mem = s.mem)) ∧
    (f.sink = true → f.ackPending = true → f.ackAt + 1000 ≤ s.now → Gives (.ackCoalesce flow) s (fun t =>
      (t.flow flow.toNat).ackPending = false ∧ (t.flow flow.toNat).ackSeq = s.ackPoint flow.toNat ∧
      (t.die (flowDie flow.toNat)).toRoute.length = (s.die (flowDie flow.toNat)).toRoute.length + 1 ∧ Quiet s t)) ∧
    (f.sink = false → f.winEn = true → f.auditAt + s.auditPeriod ≤ s.now →
      (f.inFlight ≤ f.window.toNat → Gives (.auditSend flow) s (fun t => t.flow flow.toNat = { f with auditAt := s.now } ∧
        (t.die (flowDie flow.toNat)).toRoute.length = (s.die (flowDie flow.toNat)).toRoute.length + 1 ∧ Quiet s t)) ∧
      (f.window.toNat < f.inFlight → Gives (.auditSend flow) s (fun t => (t.flow flow.toNat).err = 0x05 ∧ t.mem = s.mem)))) ∧
  (∀ (k : Packet) (s : State), k.kind = .audit → k.dstChip = s.fab.chip → s.org.transitOn = true → s.hears k = true → s.packetWaits k = false →
    let f := s.flow k.flow.toNat
    f.valid = true → f.sink = true → f.err = 0 → f.epoch = k.epoch → f.peerChip = k.srcChip →
    ((Packet.arg k 0).toNat < f.bytes.toNat → Gives (.audit k) s (fun t => (t.flow k.flow.toNat).err = 0x05 ∧
      t.mem = s.mem)) ∧
    (f.bytes.toNat ≤ (Packet.arg k 0).toNat → f.returned.toNat ≤ f.bytes.toNat → (Packet.arg k 1).toNat ≤ f.returned.toNat →
      ((Packet.arg k 2).setWidth 32 - f.count).msb = false → Gives (.audit k) s (fun t => t.flow k.flow.toNat = f ∧ Quiet s t)))

/-- Flows deliver once, are acknowledged, and end. -/
def Obligations.FlowsDeliverAndEnd : Prop := FlowsDeliverOnce ∧ FlowsAcknowledgeAndEnd

/-- Packets of a stream in sequence take effect once: tally increments, messages, barrier arrivals and releases, aborts; one
not acknowledged is sent again, each time after twice the wait (R425, R426; 06 R315, R812, R813; 16 R700). -/
def Obligations.StreamsAcceptInOrder : Prop :=
  (∀ (k : Packet) (r : RxStream) (s : State), k.dstChip = s.fab.chip → s.org.transitOn = true → s.hears k = true → s.packetWaits k = false →
    r = s.rxStream k.srcDie k.srcChip → r.held = [] → r.map = 0 → k.seq = r.low →
    (∀ o n, k.kind = .tinc → s.org.computeOn = true → tallyOf (Packet.off k) = some (o, n) → s.coreServes o = true →
      (s.region (coreRegion o)).inReset = false → s.coreAlive o = true →
      Gives (.tincPacket k) s (fun t => (t.core o).tally n = (s.core o).tally n + (Packet.arg k 0).setWidth 32 ∧
        (∀ x : CoreId, x ≠ o → t.core x = s.core x) ∧ (t.rxStream k.srcDie k.srcChip).low = r.low + 1 ∧ SameMem s t)) ∧
    (∀ o q, k.kind = .message → s.org.computeOn = true → doorbellOf (Packet.off k) = some (o, q) → s.coreServes o = true →
      s.queueAsleep (Packet.off k) = none →
      Gives (.messagePacket k) s (fun t => (∃ m : OutMsg, t.dieMsgs = s.dieMsgs ++ [(k.srcDie, m)] ∧
        m.id = k.seq.toNat ∧ m.srcChip = k.srcChip ∧ m.words.length = (Packet.arg k 0).toNat) ∧ Quiet s t)) ∧
    (let n := (Packet.arg k 0).toNat % 256
     let b := s.ctx n
     let gen : BitVec 32 := (Packet.arg k 1).setWidth 32
     s.org.computeOn = true → b.valid = true → b.frozen = false → b.cross = true →
      (k.kind = .barrierArrive → b.leader = true → b.memberChips.contains k.srcChip = true →
        (gen = b.gen + 1 → Gives (.barrierArrive k) s (fun t => t.ctx n = { b with nMembers := b.nMembers + 1 } ∧ Quiet s t)) ∧
        (gen = b.gen → b.arrived.toNat < b.localCount.toNat → Gives (.barrierArrive k) s (fun t =>
          t.ctx n = { b with membersIn := b.membersIn + 1 } ∧ Quiet s t))) ∧
      (k.kind = .barrierRelease → b.leader = false → b.leaderChip = k.srcChip → gen = b.gen → b.state = 1 →
        (s.arrivalSent n = true → Gives (.barrierRelease k) s (fun t => (t.ctx n).gen = b.gen + 1 ∧ Quiet s t)) ∧
        (s.arrivalSent n = false → Gives (.barrierRelease k) s (fun t => (t.ctx n).gen = b.gen ∧
          (t.ctx n).genSkew = true ∧ (t.ctx n).state = 3 ∧ SameMem s t)))) ∧
    (k.kind = .abort →
      (s.faults.abortWest.jobId ≠ Packet.arg k 0 → Gives (.abortPacket k) s (fun t =>
        t.faults.abortWest.stale = s.faults.abortWest.stale + 1 ∧ t.faults.inAbort = s.faults.inAbort ∧ Quiet s t)) ∧
      (s.faults.abortWest.jobId = Packet.arg k 0 → s.faults.abortWest.aborted = false →
        Gives (.abortPacket k) s (fun t => t.faults.inAbort = true ∧ t.faults.abortWest.aborted = true ∧
          t.faults.dumpDue = true ∧ t.faults.seq = s.faults.seq + 1 ∧ t.mem = s.mem)))) ∧
  (∀ (d : Die) (n : Nat) (u : Unflowed) (s : State), (s.die d).store[n]? = some u → u.sent = true →
    u.sentTime + u.wait ≤ s.now →
    Gives (.unflowedResend d n) s (fun t =>
      (t.die d).store[n]? = some { u with sentTime := s.now, wait := Nat.min 12800000 (2 * u.wait) } ∧
      (t.die d).toRoute.length = (s.die d).toRoute.length + 1 ∧ Quiet s t))

/-! ## Fabric time and schedules -/

/-- Fabric time follows beacons by steps of at most 1 ns per us, its bound grows without a parent, a backup primary claims,
and schedules are armed and become active at their start (R431 to R434, R442). -/
def Obligations.TimeAndSchedules : Prop :=
  (∀ (p : BitVec 6) (b : BeaconData) (s : State), s.portUp p.toNat = true →
    Gives (.beacon p b) s (fun t => (t.port p.toNat).nbStratum = b.stratum ∧ (t.port p.toNat).nbBound = b.bound ∧
      (t.port p.toNat).nbValid = b.valid ∧ (t.port p.toNat).beaconRecv = s.ftime ∧
      (b.t2 = 0 → (t.port p.toNat).offset = (s.port p.toNat).offset ∧ t.ftime = s.ftime) ∧
      (∀ t1, b.t2 ≠ 0 → (s.port p.toNat).beaconTimes = [t1] → (t.port p.toNat).offset =
        ((b.t2 - t1) - (s.ftime - b.t3) - (if s.isSite p.toNat then (s.sitePort p.toNat).asymmetry else 0)) / 2) ∧
      (2 ≤ s.time.state → (t.ftime - s.ftime).natAbs ≤ (s.now - s.time.slewAt) / 1000) ∧
      (s.time.role = 1 → t.ftime = s.ftime) ∧ Quiet s t)) ∧
  (∀ (p : BitVec 6) (s : State), s.portUp p.toNat = true → (s.port p.toNat).held = [] →
    (∀ y, (s.port p.toNat).beaconSent = some y → y + 10000 ≤ s.now) →
    let tokens := Tab.get 64 (((s.refill p.toNat .west).refill p.toNat .east).port p.toNat).tokens (portDie p.toNat).code
    let beacon (x : PortPkt) := x.pkt.kind = .beacon ∧ x.lane = 8 ∧ x.pkt.args.head? = some s.ftimeWord
    (1 ≤ tokens → Gives (.beaconSend p) s (fun t => (t.port p.toNat).beaconSent = some s.now ∧
      (∃ x : PortPkt, (t.port p.toNat).out = (s.port p.toNat).out ++ [x] ∧ beacon x) ∧ Quiet s t)) ∧
    (tokens = 0 → Gives (.beaconSend p) s (fun t => (t.port p.toNat).beaconSent = some s.now ∧
      (t.port p.toNat).out = (s.port p.toNat).out ∧ (t.port p.toNat).limited = (s.port p.toNat).limited + 1 ∧
      (∃ x : PortPkt, (t.port p.toNat).held = [x] ∧ beacon x) ∧ Quiet s t))) ∧
  (∀ (x : Nat) (s : State), s.time.noParentSince = some x → s.time.role ≠ 1 → s.time.parent = noPort →
    ¬(s.time.role = 2 ∧ s.time.stratum = 0) → x + 1000000 ≤ s.now →
    Gives .timeNoParent s (fun t => t.time.bound = s.time.bound + 10 ∧
      t.time.state = (if s.time.state < 2 ∨ s.time.limit < s.time.bound + 10 then 0 else 3) ∧ t.ftime = s.ftime ∧ Quiet s t)) ∧
  (∀ (x : Nat) (s : State), s.time.noPrimarySince = some x → s.time.role = 2 → s.time.stratum ≠ 0 →
    s.org.transitOn = true → x + 1000000 ≤ s.now →
    Gives .backupPrimaryClaim s (fun t => t.time.stratum = 0 ∧ t.time.state = 2 ∧ t.time.parent = noPort ∧
      t.ftime = s.ftime ∧ Quiet s t)) ∧
  (∀ s : State, Gives .ppsInPulse s (fun t => t.tray = { s.tray with pps := some s.now } ∧
    (s.time.role ≠ 1 ∨ s.org.transitOn = false → t.ftime = s.ftime) ∧
    (s.time.role = 1 → s.org.transitOn = true → s.time.state ≠ 1 →
      (t.ftime - s.ftime).natAbs ≤ (s.now - s.time.slewAt) / 1000 ∧
      (s.ftime % 1000000000 ≤ ((s.now - s.time.slewAt) / 1000 : Nat) → s.ftime % 1000000000 < 500000000 →
        t.ftime = s.ftime - s.ftime % 1000000000)) ∧ Quiet s t)) ∧
  (∀ s : State, s.rindActive = true → s.carries .owner = true →
    (s.ftimeValid = true → s.ftime + 1000000 ≤ (s.sched.start.toNat : Int) → 1 ≤ s.sched.slots → s.sched.slots ≤ 4096 →
      Written (.scheduleCommit .owner 1) s (fun t => t.sched =
        { s.sched with armed := some (s.sched.shadowId, s.sched.slots, s.sched.start) } ∧ Quiet s t)) ∧
    (s.ftimeValid = false ∨ (s.sched.start.toNat : Int) < s.ftime + 1000000 ∨ s.sched.slots < 1 ∨ 4096 < s.sched.slots →
      Denied (.scheduleCommit .owner 1) s 0x05 [])) ∧
  (∀ (id : Word) (slots : Nat) (start : Word) (s : State), s.sched.armed = some (id, slots, start) →
    ((start.toNat : Int) ≤ s.ftime → Gives .scheduleActivate s (fun t => t.sched.active = true ∧ t.sched.activeId = id ∧
      t.sched.activeSlots = slots ∧ t.sched.activeStart = start.toNat ∧ t.sched.armed = none ∧
      (∀ p, p < 48 → (t.port p).schedActive = slotEntries (s.port p).schedShadow slots) ∧ Quiet s t)) ∧
    (s.ftime < (start.toNat : Int) → Gives .scheduleActivate s (fun t => t = s)))

/-! ## Thermal control and cooling -/

namespace Sys2Proof.Claims

/-- Every region that has risen begins to fall to the lowest operating state and shows a thermal cause (11 Table 11.8). -/
def FallsThermal (s t : State) : Prop :=
  ∀ r, (s.region r).risen = true → t.pow.parkCool = s.pow.parkCool →
    t.region r = { (s.region r).fallLowest with limitCause := 8, ceilRise := false }

/-- The package parks for the coolant or the leak loop as soon as it stands in the lowest operating state. -/
def ParksAtLowest (s t : State) : Prop :=
  t.pow.parkCool = (s.pow.parkCool || t.atLowest) ∧
  (s.pow.parkCool = false → t.pow.parkCool = true → t.pow.parked = 0xFFFF)

end Sys2Proof.Claims

/-- Sensors, limits, the hardware trip and its clear, the leak loop, allowances, the coolant line and its fast stop (R545 to
R573). -/
def Obligations.TemperatureLimitsAct : Prop :=
  (∀ (rs : List SensorRead) (s : State), s.rindActive = true → rs.length = 128 →
    Gives (.dieSensorSample rs) s (fun t => (∀ i r, rs[i]? = some r → t.therm.reading i = r.value ∧
        (deg 150 < r.value ∨ r.value < deg (-40) ∨ r.checkOk = false → 3 ≤ t.therm.mark i)) ∧
      (deg 108 ≤ t.therm.junction → t.therm.dieForced = true) ∧ (deg 100 ≤ t.therm.junction → t.therm.dieThrottle = true) ∧
      (deg 100 ≤ t.therm.hbmHottest → t.therm.hbmForced = true) ∧ t.therm.valid = true ∧ Quiet s t)) ∧
  (∀ (x : BitVec 7) (s : State),
    (Tab.get false s.therm.masked x.toNat = false → s.therm.heatTrip = false → Gives (.comparatorTrip x) s (fun t =>
      t.therm.heatTrip = true ∧ t.therm.tripCause = 1 ∧ t.tray.notice.getLsbD 1 = true ∧
      t.tray.mainReq = 0 ∧ FallsThermal s t ∧ Quiet s t)) ∧
    (Tab.get false s.therm.masked x.toNat = true → Gives (.comparatorTrip x) s (fun t => t = s))) ∧
  (∀ s : State, s.therm.heatTrip = true → s.therm.tripAt + 1000000 ≤ s.now → s.tray.holdsMain = true →
    Gives .mainRailsOff s (fun t => t.tray.holdsMain = false ∧ t.org.computeOn = false ∧ t.org.transitOn = false ∧
      t.therm.heatTrip = true)) ∧
  (∀ s : State, s.rindActive = true → s.carries .owner = true →
    (s.tray.mainPg = false → s.tray.mainOff + 60000000000 ≤ s.now → s.tray.coolantFault = false →
      2000000 ≤ s.therm.taken →
      Written (.tripClear .owner 1) s (fun t => t.therm.heatTrip = false ∧ t.therm.tripCause = 0 ∧
        (3 ≤ s.start.step → t.start.step = 3) ∧ (s.start.step < 3 → t.start = s.start) ∧ Quiet s t)) ∧
    (s.tray.mainPg = true ∨ s.tray.coolantFault = true ∨ s.therm.taken < 2000000 → Denied (.tripClear .owner 1) s 0x05 []) ∧
    Written (.clearFaults .owner 1) s (fun t => t.therm.marks = [] ∧ t.therm.masked = [] ∧ t.therm.valid = false ∧
      Quiet s t) ∧
    (∀ v : BitVec 8, v ≠ 1 → Denied (.clearFaults .owner v) s 0x05 [] ∧ Denied (.tripClear .owner v) s 0x05 [])) ∧
  (∀ (ohm : Nat) (s : State), leakClass ohm ≠ s.therm.leak →
    (s.therm.leakSeen = leakClass ohm → s.therm.leakSince + 100000000 ≤ s.now → Gives (.leakSample ohm) s (fun t =>
      t.therm.leak = leakClass ohm ∧ t.therm.leakOhm = ohm ∧
      (ohm < 8000 → t.therm.leakPark = true ∧ t.tray.notice.getLsbD 0 = true ∧ FallsThermal s t ∧ ParksAtLowest s t) ∧
      (12000 < ohm → t.faults.reasons.getLsbD 6 = true) ∧ Quiet s t)) ∧
    (s.therm.leakSeen ≠ leakClass ohm → Gives (.leakSample ohm) s (fun t => t.therm.leakSince = s.now ∧
      t.therm.leakSeen = leakClass ohm ∧ t.therm.leak = s.therm.leak ∧ Quiet s t))) ∧
  (∀ (power : Nat) (s : State), s.rindActive = true → s.org.computeOn = true →
    let t0 := s.therm
    (deg 100 ≤ t0.junction ∨ deg 95 ≤ t0.hbmHottest → Gives (.junctionStep power) s (fun t =>
      t.therm = { t0 with aj := Nat.max 1050 (Nat.min t0.aj power - 240) } ∧ Quiet s t)) ∧
    (t0.junction < deg 100 → t0.hbmHottest < deg 95 → deg 97 ≤ t0.junction ∨ deg 92 ≤ t0.hbmHottest →
      Gives (.junctionStep power) s (fun t => t.therm = t0 ∧ Quiet s t)) ∧
    (t0.junction < deg 97 → t0.hbmHottest < deg 92 → Gives (.junctionStep power) s (fun t =>
      t.therm = { t0 with aj := Nat.min 4800 (t0.aj + 40) } ∧ Quiet s t))) ∧
  (∀ s : State, s.rindActive = true → s.therm.sustained = false →
    (∃ x, s.therm.above95 = some x ∧ x + 60000000000 ≤ s.now) →
    Gives .sustainedLimit s (fun t => t.therm.sustained = true ∧ t.therm.demand = 70 ∧
      t.therm.sustainedEvents = s.therm.sustainedEvents + 1 ∧ t.tray.reqSeq = s.tray.reqSeq + 1 ∧ Quiet s t)) ∧
  (∀ s : State, s.rindActive = true → Gives .allowanceUpdate s (fun t => t.therm.aflow = s.flowAllowance ∧
    t.therm.allowance = Nat.min 4800 (Nat.min s.flowAllowance s.therm.aj) ∧ Quiet s t)) ∧
  (∀ (power : Nat) (dt : Int) (s : State), s.rindActive = true →
    (power < 1000 ∨ dt < 20 → Gives (.flowCheck power dt) s (fun t => t.therm.implied = 0 ∧ t.therm.suspect = s.therm.suspect ∧
      Quiet s t)) ∧
    (1000 ≤ power → 20 ≤ dt → Gives (.flowCheck power dt) s (fun t =>
      t.therm.implied = 4000000 * power / (27 * dt.toNat) ∧ Quiet s t))) ∧
  (∀ s : State, s.rindActive = true → s.therm.dataLost = false → s.tray.lastReport + 2000000000 ≤ s.now →
    Gives .coolantDataLost s (fun t => t.therm.dataLost = true ∧ t.therm.aflow = 1050 ∧ Quiet s t)) ∧
  (∀ s : State, Gives .coolantFaultAssert s (fun t => t.tray.coolantFault = true ∧ t.therm.fastStop = true ∧
      t.therm.fastLine = true ∧ (s.therm.fastStop = false → FallsThermal s t ∧ ParksAtLowest s t ∧
        (s.rindActive = true → t.therm.demand = 70 ∧ t.tray.reqSeq = s.tray.reqSeq + 1)) ∧ Quiet s t) ∧
    Gives .coolantFaultDeassert s (fun t => t.tray.coolantFault = false ∧ t.therm.fastLine = false ∧
      t.therm.fastStop = s.therm.fastStop ∧ Quiet s t)) ∧
  (∀ (x : Nat) (s : State), s.therm.stopFrom = some x → 5000000000 ≤ s.therm.stopTimer + (s.now - x) →
    Gives .coolantStopTimeout s (fun t => t.therm.heatTrip = true ∧
      (s.therm.heatTrip = false → t.therm.tripCause = 2) ∧ Quiet s t)) ∧
  (∀ (x : Nat) (s : State), s.therm.fastStop = true → s.therm.restoreFrom = some x → x + 1000000000 ≤ s.now →
    Gives .flowRestored s (fun t => t.therm.fastStop = false ∧ t.therm.stopTimer = 0 ∧ t.therm.stopFrom = none ∧
      (s.therm.leakPark = false → t.pow.parkCool = false) ∧ Quiet s t))

namespace Sys2Proof.Claims

/-- Half cycles counted so far, and reversal points still waiting. -/
def points (x : ThermSt) : Nat := x.bins.foldl (fun n e => n + e.2) 0 + x.residue.length

end Sys2Proof.Claims

/-- Each reversal point is counted exactly once: it adds one to the half cycles in the bins and the points in the residue
together, however many cycles it closes (R575, R576). -/
def Sys2Proof.Claims.ReversalsAreCountedOnce : Prop :=
  ∀ (x : ThermSt) (j : Int), Tab.wf 0 x.bins = true →
    points (x.reversal j) = points x + 1 ∧ Tab.wf 0 (x.reversal j).bins = true ∧
      (x.residue.length < 256 → (x.reversal j).residue.length < 256)

/-- Cycle samples follow the junction, the bins are saved, and life is evaluated (R574, R577, R578). -/
def Sys2Proof.Claims.CyclesAndLife : Prop :=
  ∀ s : State, s.rindActive = true →
    let j := s.therm.junction
    (s.therm.extreme = none → Gives .cycleSample s (fun t => t.therm = { s.therm with extreme := some j } ∧ Quiet s t)) ∧
    (∀ e, s.therm.extreme = some e → s.therm.rising = some true → e < j → Gives .cycleSample s (fun t =>
      t.therm = { s.therm with extreme := some j } ∧ Quiet s t)) ∧
    (∀ e, s.therm.extreme = some e → s.therm.rising = some true → deg 1 ≤ e - j → Tab.wf 0 s.therm.bins = true →
      Gives .cycleSample s (fun t => points t.therm = points s.therm + 1 ∧ t.therm.extreme = some j ∧
        t.therm.rising = some false ∧ Quiet s t)) ∧
    Gives .cycleSave s (fun t => FlashItem.cycles ∈ t.tray.flash ∧ t.therm = s.therm ∧ Quiet s t) ∧
    Gives .lifeEvaluate s (fun t => t.therm.lifeUsed = lifeUsed s.org.record s.therm.bins ∧ t.therm.bins = s.therm.bins ∧
      (s.therm.lifeUsed ≤ 1000000 → 1000000 < t.therm.lifeUsed → t.faults.reasons.getLsbD 8 = true) ∧ Quiet s t)

/-- Reversals are counted once; cycles and life. -/
def Obligations.CyclesAreCounted : Prop := ReversalsAreCountedOnce ∧ CyclesAndLife


/-! ## Jobs, RDMA, management ports -/

/-- START is refused in each case that the rule names, with the code of a case that holds (R672, R673). -/
def Obligations.StartIsRefused : Prop :=
  ∀ s : State, s.rindActive = true → s.carries .host = true →
    let notReady := s.start.step ≠ 0x0A ∨ s.faults.tier < 3
    let busy := s.faults.dumpState = 1 ∨ s.faults.ladder.step ≠ 0
    let loaded := s.jobLoaded = true ∨ s.job.jobId = 0
    (notReady ∨ busy ∨ s.pow.hold = 1 ∨ s.pow.effective = 2 ∨ loaded) →
    ∃ (status : Nat) (body : List Byte), Denied (.jobStart .host) s status body ∧
      ((notReady ∧ status = 0x09 ∧ body = []) ∨ (busy ∧ status = 0x07 ∧ body = leBytes 2 100) ∨
        (s.pow.hold = 1 ∧ status = 0x08 ∧ body = []) ∨ (s.pow.effective = 2 ∧ status = 0x0B ∧ body = leBytes 2 1) ∨
        (loaded ∧ status = 0x05 ∧ body = []))

/-- START that is not refused, STOP, ABORT and the end of a job (R672, R674, R675; 16 R695, R698). -/
def Obligations.JobsStartAndEnd : Prop :=
  ∀ s : State,
    (s.rindActive = true → s.carries .host = true →
      let ready := s.start.step = 0x0A ∧ 3 ≤ s.faults.tier
      let free := s.faults.dumpState ≠ 1 ∧ s.faults.ladder.step = 0
      (ready → free → s.pow.hold ≠ 1 → s.pow.effective ≠ 2 → s.jobLoaded = false → s.job.jobId ≠ 0 →
        Written (.jobStart .host) s (fun t =>
          t.job.state = (if s.pow.parkOrder || s.pow.effective = 1 || s.pow.parkFloor || s.pow.parkCool || s.pow.parkOff then 2 else 1) ∧
          t.job.jobId = s.job.jobId ∧ t.job.endCause = 0 ∧ t.job.startNs = s.stamp ∧ t.job.stopSignalled = false ∧
          (∀ c : CoreId, s.org.present c = true → (t.core c).jobId = s.job.jobId ∧ (t.core c).run = true ∧
            (t.core c).halted = false ∧ (t.core c).intPending.getLsbD 4 = true ∧ (t.core c).g = (s.core c).g) ∧
          (∀ c : CoreId, s.org.present c = false → t.core c = s.core c) ∧ t.mem = s.mem)) ∧
      (s.jobLoaded = true → Written (.jobStop .host) s (fun t =>
        t.job = { s.job with stopSignalled := true } ∧ Quiet s t)) ∧
      (s.jobLoaded = false → Denied (.jobStop .host) s 0x05 [] ∧ Denied (.jobAbort .host) s 0x05 []) ∧
      (s.jobLoaded = true → s.faults.inAbort = false → Written (.jobAbort .host) s (fun t => t.job.state = 4 ∧
        t.job.endCause = 3 ∧ t.faults.inAbort = true ∧ t.faults.seq = s.faults.seq + 1 ∧ t.mem = s.mem ∧
        ∀ c : CoreId, s.org.present c = true → s.coreAlive c = true → (s.core c).run = true → (s.core c).halted = false →
          (t.core c).mode = .runtime ∧ (t.core c).trapCause = 0x3F ∧ (t.core c).trapPc = (s.core c).pc ∧
          (t.core c).pc = (s.core c).tvec ∧ (t.core c).g = (s.core c).g))) ∧
    (s.jobLoaded = true → Gives .runtimeEnd s (fun t => t.job.state = 3 ∧
      t.job.endCause = (if s.job.stopSignalled then 2 else 1) ∧ t.oap.keys = [] ∧ t.oap.qps = [] ∧
      t.pow.mode = s.pow.heldMode.getD s.pow.mode ∧ Quiet s t))

/-- Queue pairs, the key table, the three RDMA operations, and the rate (R668 to R670). The MTU codes are the model's
(PRESUMED, log 36). -/
def Obligations.RdmaFollowsItsKeys : Prop :=
  (∀ (v : List Byte) (s : State), s.rindActive = true → s.carries .host = true →
    let num (o n : Nat) : Nat := leValue ((v.drop o).take n)
    (v.length ≠ 48 → Denied (.rdmaConnect .host v) s 0x06 []) ∧
    (v.length = 48 → num 0 1 ≤ 1 → 3 ≤ num 1 1 → num 1 1 ≤ 5 → num 2 2 = 0 → num 32 16 = 0 → s.oap.qps.length = 512 →
      Denied (.rdmaConnect .host v) s 0x0E []) ∧
    (v.length = 48 → num 0 1 ≤ 1 → 3 ≤ num 1 1 → num 1 1 ≤ 5 → num 2 2 = 0 → num 32 16 = 0 → s.oap.qps.length < 512 →
      Gives (.rdmaConnect .host v) s (fun t => ∃ q, t.oap.qps = s.oap.qps ++ [q] ∧
        t.oap.lastAnswers = replied 0 (leBytes 4 q.qpn) ∧ q.qpn < 2 ^ 24 ∧ (∀ x ∈ s.oap.qps, x.qpn ≠ q.qpn) ∧
        q.port = (if num 0 1 = 0 then .a else .b) ∧ q.peerQpn.toNat = num 4 4 ∧ q.psn.toNat = num 8 4 ∧
        q.peerPsn.toNat = num 12 4 ∧ q.gid = (v.drop 16).take 16 ∧ q.rate = 1000 ∧ Quiet s t)) ∧
    (∀ n : BitVec 32, s.oap.qps.any (fun q => decide (q.qpn = n.toNat)) = true →
      Written (.rdmaClose .host n) s (fun t => t.oap.qps = s.oap.qps.filter (fun q => decide (q.qpn ≠ n.toNat)) ∧
        Quiet s t)) ∧
    (∀ n : BitVec 32, s.oap.qps.any (fun q => decide (q.qpn = n.toNat)) = false →
      Denied (.rdmaClose .host n) s 0x05 []) ∧
    (v.length = 32 → num 4 1 = 0 → num 5 3 = 0 → num 24 8 = 0 → Written (.keyWrite .host v) s (fun t =>
      Tab.get none t.oap.keys (num 0 4 / 2 ^ 22) = none ∧
      (∀ i, i ≠ num 0 4 / 2 ^ 22 → Tab.get none t.oap.keys i = Tab.get none s.oap.keys i) ∧ Quiet s t)) ∧
    (v.length = 32 → 1 ≤ num 4 1 → num 4 1 ≤ 3 → num 5 3 = 0 → num 24 8 = 0 → s.keyRangeOk (num 8 8) (num 16 8) = true →
      Written (.keyWrite .host v) s (fun t =>
        Tab.get none t.oap.keys (num 0 4 / 2 ^ 22) = some {
          key := BitVec.ofNat 32 (num 0 4), access := BitVec.ofNat 8 (num 4 1),
          base := BitVec.ofNat 64 (num 8 8), len := BitVec.ofNat 64 (num 16 8) } ∧
        (∀ i, i ≠ num 0 4 / 2 ^ 22 → Tab.get none t.oap.keys i = Tab.get none s.oap.keys i) ∧ Quiet s t)) ∧
    (v.length = 32 → 1 ≤ num 4 1 → s.keyRangeOk (num 8 8) (num 16 8) = false → Denied (.keyWrite .host v) s 0x05 [])) ∧
  (∀ (n : Nat) (q : QueuePair) (key : BitVec 32) (off : BitVec 48) (len : BitVec 32) (bytes : List Byte) (s : State),
    s.livePair n = some q →
    let wrote (t : State) := t.oap.rdmaReply = some (n, .ack) ∧
      (∀ (i : Nat) (b : Byte), bytes[i]? = some b → Memory.byte t.mem (off.toNat + i) = b) ∧
      (∀ a, a < off.toNat ∨ off.toNat + bytes.length ≤ a → Memory.byte t.mem a = Memory.byte s.mem a) ∧ t.cores = s.cores
    let denied (t : State) := t.oap.rdmaReply = some (n, .accessError) ∧
      t.oap.keyRefused = satAdd 0xFFFFFFFFFFFFFFFF s.oap.keyRefused 1 ∧ Quiet s t
    (s.rdmaOk q key off.toNat bytes.length true = true → s.rdmaWaits q off.toNat false = true →
      Gives (.rdmaWrite n key off false bytes) s (fun t => t = s) ∧ Gives (.rdmaSend n key off false bytes) s (fun t => t = s)) ∧
    (s.rdmaOk q key off.toNat bytes.length true = true → s.rdmaWaits q off.toNat false = false →
      HomeTakes s off.toNat bytes.length →
      Gives (.rdmaWrite n key off false bytes) s wrote ∧ Gives (.rdmaSend n key off false bytes) s wrote) ∧
    (s.rdmaOk q key off.toNat bytes.length true = false →
      Gives (.rdmaWrite n key off false bytes) s denied ∧ Gives (.rdmaSend n key off false bytes) s denied) ∧
    (s.rdmaOk q key off.toNat len.toNat false = true → s.rdmaWaits q off.toNat true = true →
      Gives (.rdmaRead n key off len false) s (fun t => t = s)) ∧
    (s.rdmaOk q key off.toNat len.toNat false = true → s.rdmaWaits q off.toNat true = false →
      s.homeAsleep off.toNat = none → s.symbolErrs = [] →
      (∀ a, off.toNat ≤ a → a < off.toNat + len.toNat → s.channelFailed a = false) →
      Gives (.rdmaRead n key off len false) s (fun t => t.oap.rdmaReply =
        some (n, .data ((List.range len.toNat).map (fun i => Memory.byte s.mem (off.toNat + i)))) ∧ Quiet s t)) ∧
    (s.rdmaOk q key off.toNat len.toNat false = false → Gives (.rdmaRead n key off len false) s denied)) ∧
  (∀ (n : Nat) (q : QueuePair) (s : State), s.livePair n = some q →
    ((∀ x, q.lastCut = some x → x + 50000 ≤ s.now) → Gives (.congestionNotification n) s (fun t =>
      t.queuePair n = some { q with rate := q.rate - q.rate / 8, lastCut := some s.now, lastRaise := s.now } ∧ Quiet s t)) ∧
    (∀ x, q.lastCut = some x → s.now < x + 50000 → Gives (.congestionNotification n) s (fun t =>
      t.queuePair n = some { q with lastRaise := s.now } ∧ Quiet s t)) ∧
    (q.lastRaise + 55000 ≤ s.now → Gives (.rateRaise n) s (fun t =>
      t.queuePair n = some { q with rate := Nat.min 1000 (q.rate + 50), lastRaise := s.now } ∧ Quiet s t)))

/-- MGMT ports up and down, their traffic, and the ordinary clock (R652, R665 to R667; 16 R722). -/
def Obligations.ManagementPortsServe : Prop :=
  ∀ (p : MgmtPort) (s : State),
    Gives (.mgmtPortDown p) s (fun t => (t.mgmtPort p).up = false ∧ t.mgmtPort (otherPort p) = s.mgmtPort (otherPort p) ∧
      t.oap.sessions = s.oap.sessions ∧ Quiet s t) ∧
    (s.tray.refFab = true → Gives (.mgmtPortUp p) s (fun t => (t.mgmtPort p).up = true ∧
      (t.mgmtPort p).mediaRun = s.oap.media.getLsbD (portBit p) ∧
      t.mgmtPort (otherPort p) = s.mgmtPort (otherPort p) ∧ Quiet s t)) ∧
    ((s.mgmtPort p).up = false → (s.mgmtPort (otherPort p)).up = true →
      (s.mgmtPort p).downSince + 600000000000 ≤ s.now →
      Gives (.mgmtPortOutage p) s (fun t => t.faults.reasons.getLsbD 12 = true ∧ Quiet s t)) ∧
    ((s.mgmtPort p).up = true →
      Gives (.mgmtFrame p .other) s (fun t => t = { s with oap := { s.oap with dropped := s.oap.dropped + 1 } }) ∧
      (∀ f : MgmtFrame, f ≠ .other → Gives (.mgmtFrame p f) s (fun t => t = s)) ∧
      (∀ ns : Int, Gives (.ptpMessage p (.offset ns)) s (fun t => t.oap.ptpOffset = ns ∧ t.oap.ptpState = 2 + portBit p ∧
        (s.time.role ≠ 1 ∨ s.org.transitOn = false → t.time = s.time) ∧
        (s.time.role = 1 → s.org.transitOn = true → s.time.state = 1 → t.ftime = s.ftime - ns) ∧ Quiet s t)) ∧
      Gives (.ptpMessage p .lost) s (fun t => t.oap.ptpState = 0 ∧ t.oap.ptpOffset = s.oap.ptpOffset ∧ Quiet s t))

/-! ## Faults, aborts, dumps, the reset ladder -/

/-- The hang windows and the records that software writes (16 R686, R688 to R694, R719). -/
def Obligations.HangWindowsAndRecords : Prop :=
  (∀ s : State, s.faults.windowStart + s.faults.windowMs * 1000000 ≤ s.now →
    Gives .hangCheck s (fun t => t.faults.windowStart = s.now ∧ t.faults.windowRun = s.runNow ∧
      t.faults.windowMs = s.faults.windowNext.getD s.faults.windowMs ∧ t.faults.windowNext = none ∧
      ((s.hangUnits.filter s.isHung = [] ∨ s.runNow - s.faults.windowRun ≠ s.now - s.faults.windowStart) →
        t.faults.seq = s.faults.seq ∧ t.faults.hungCount = s.faults.hungCount ∧ t.mem = s.mem) ∧
      (∀ u, s.runNow - s.faults.windowRun = s.now - s.faults.windowStart → s.faults.windowNext = none →
        s.faults.inAbort = false → s.faults.ladder.step = 0 → s.hangUnits.filter s.isHung = [u] →
        t.faults.hungCount = s.faults.hungCount + 1 ∧
        (∀ c, u = .core c → (t.core c).hung.getLsbD 0 = true ∧ t.faults.inAbort = true ∧
          t.faults.seq = s.faults.seq + 1 ∧ t.mem = s.mem) ∧
        (∀ c, u = .press c → (t.core c).hung.getLsbD 1 = true ∧ t.faults.inAbort = true) ∧
        (∀ c, u = .ladle c → (t.core c).hung.getLsbD 2 = true ∧ t.faults.inAbort = true) ∧
        (∀ n, u = .hbm n → t.faults.inAbort = true) ∧
        (∀ p, u = .port p → t.faults.inAbort = false)))) ∧
  (∀ (v : BitVec 32) (s : State), s.rindActive = true → s.carries .owner = true → s.carries .host = true →
    (1 ≤ v.toNat → v.toNat ≤ 10000 → Written (.windowMsWrite .owner v) s (fun t =>
      t.faults = { s.faults with windowNext := some v.toNat } ∧ Quiet s t)) ∧
    (v.toNat = 0 ∨ 10000 < v.toNat → Denied (.windowMsWrite .host v) s 0x05 [])) ∧
  (∀ (w : Writer) (d : Die) (v : Word) (s : State), s.mayControl w = true → s.org.transitOn = true →
    Gives (.faultRecordWrite w d v) s (fun t => t.faults.seq = s.faults.seq + 1 ∧
      (∃ r, Tab.get FaultRec.zero t.faults.ring ((s.faults.seq + 1).toNat % 1024) = r ∧
        (r.w0 >>> 24) &&& 0xF = 1 ∧ r.w0 &&& 0xFFFFFFFFF0FFFFFF = (s.faults.stage d).w0 &&& 0xFFFFFFFFF0FFFFFF ∧
        r.w1 = (s.faults.stage d).w1 ∧ r.w2 = (s.faults.stage d).w2 ∧ (r.w4 >>> 32) = (s.faults.seq + 1).setWidth 64) ∧
      (∀ i, i ≠ (s.faults.seq + 1).toNat % 1024 →
        Tab.get FaultRec.zero t.faults.ring i = Tab.get FaultRec.zero s.faults.ring i) ∧
      t.faults.healthTotal = s.faults.healthTotal + 1 ∧ t.faults.inAbort = s.faults.inAbort ∧ Quiet s t))

/-- ABORT_NOW performs the abort here and sends it to the chips that the context lists, one every 2 ns; a new ABORT_JOB
clears what the context has seen (16 R695 to R699). -/
def Obligations.AbortsReachEveryChip : Prop :=
  (∀ (w : Writer) (d : Die) (s : State), s.mayControl w = true → s.org.transitOn = true → s.faults.inAbort = false →
    Gives (.abortNow w d) s (fun t => t.faults.inAbort = true ∧ t.faults.dumpDue = true ∧
      t.faults.seq = s.faults.seq + 1 ∧ t.faults.dumpTrigger = s.faults.seq + 1 ∧ t.mem = s.mem ∧
      (s.jobLoaded = true → t.job.state = 4 ∧ t.job.endCause = 3) ∧
      t.faults.abortSends = s.faults.abortSends ++ abortPackets s.faults.abortWest.jobId
        (BitVec.ofNat 64 (s.fab.chip.toNat * 2 ^ 48 + (s.faults.seq + 1).toNat))
        (if !s.faults.abortWest.valid then []
         else if s.faults.abortWest.leader then s.faults.abortWest.leaderChips ++ s.faults.abortWest.memberChips
         else [s.faults.abortWest.leaderChip]) ∧
      (∀ (n : Nat) (x : Barrier), (n, x) ∈ t.barriers.ctxs → x.valid = true → x.frozen = true) ∧
      ∀ c : CoreId, s.org.present c = true →
        (t.core c).pressHeld = true ∧ (t.core c).ladleHeld = true ∧ (t.core c).abortClosed = true ∧
        (t.core c).g = (s.core c).g ∧
        (s.coreAlive c = true → (s.core c).run = true → (s.core c).halted = false →
          (t.core c).mode = .runtime ∧ (t.core c).trapCause = 0x3F ∧ (t.core c).trapPc = (s.core c).pc ∧
          (t.core c).trapAddr.toNat = (s.faults.seq + 1).toNat % 1024))) ∧
  (∀ (e : EngineSend) (rest : List EngineSend) (s : State), s.faults.abortSends = e :: rest →
    (∀ x, s.faults.abortLastSend = some x → x + 2 ≤ s.now) → s.storeRoom .west = true → s.faults.inAbort = true →
    Gives .abortSend s (fun t => t.faults.abortSends = rest ∧ t.faults.abortLastSend = some s.now ∧
      (∃ u ∈ (t.die .west).store, u.pkt.kind = e.kind ∧ u.pkt.dstChip = e.dstChip ∧ u.pkt.args = e.args) ∧ Quiet s t)) ∧
  (∀ (w : Writer) (d : Die) (v : Word) (s : State), s.mayControl w = true → s.org.transitOn = true →
    Gives (.abortJobIdWrite w d v) s (fun t =>
      t.faults.abortCtx d = { s.faults.abortCtx d with jobId := v, aborted := false, abortsIn := 0, stale := 0 } ∧
      (∀ x, x ≠ d → t.faults.abortCtx x = s.faults.abortCtx x) ∧ Quiet s t))

/-- A dump is collected section by section, ends with its header, and is held until it is released (16 R703 to R706). -/
def Obligations.DumpsAreCollected : Prop :=
  (∀ s : State, s.faults.dumpDue = true → s.org.transitOn = true → s.rindSteps = true →
    (s.faults.dumpState = 2 → Gives .dumpStart s (fun t =>
      t.faults = { s.faults with dumpDue := false, dumpSkipped := s.faults.dumpSkipped + 1 } ∧ Quiet s t)) ∧
    (s.faults.dumpState ≠ 1 → s.faults.dumpState ≠ 2 → Gives .dumpStart s (fun t => t.faults.dumpState = 1 ∧
      t.faults.dumpDue = false ∧ t.faults.dumpStart = s.now ∧
      t.faults.dumpSections.map (fun d => (d.kind, d.unit)) = s.dumpPlan ∧
      (∀ d ∈ t.faults.dumpSections, d.flags = 0 ∧ d.body = []) ∧ t.mem = s.mem ∧
      t.cores = Tab.mapVals Core.reset (fun k => { k with hung := k.hung &&& 0x7F }) s.cores))) ∧
  (∀ (i : Nat) (d : DumpSection) (s : State), s.faults.dumpState = 1 → s.faults.dumpSections[i]? = some d →
    d.sidePath = true → d.flags = 0 →
    Gives (.dumpReadTimeout i) s (fun t =>
      (∃ x, t.faults.dumpSections[i]? = some x ∧ x.kind = d.kind ∧ x.unit = d.unit ∧
        (d.kind = 7 → x.flags = 1 ∧ x.body = d.body) ∧
        (d.kind ≠ 7 → x.flags = 3 ∧ x.body = (s.core (BitVec.ofNat 10 d.unit)).shadowBytes)) ∧
      (∀ (j : Nat) (e : DumpSection), s.faults.dumpSections[j]? = some e → j < i ∨ e.unit ≠ d.unit ∨ e.sidePath = false →
        t.faults.dumpSections[j]? = some e) ∧
      (d.kind ≠ 7 → (t.core (BitVec.ofNat 10 d.unit)).hung.getLsbD 7 = true) ∧ t.mem = s.mem)) ∧
  (∀ (n : Nat) (s : State), s.faults.dumpState = 1 →
    s.faults.dumpSections.length ≤ n ∨ s.faults.dumpStart + 100000000 ≤ s.now →
    Gives (.dumpEnd n) s (fun t => t.faults.dumpState = 2 ∧ t.faults.dumpEnd = s.now ∧ t.faults.dumpHead.length = 96 ∧
      t.faults.dumpSections.length = s.faults.dumpSections.length ∧
      (∀ (i : Nat) (d : DumpSection), s.faults.dumpSections[i]? = some d →
        (d.flags ≠ 0 → t.faults.dumpSections[i]? = some d) ∧
        (d.flags = 0 → n ≤ i → t.faults.dumpSections[i]? = some { d with flags := 4 }) ∧
        (d.flags = 0 → i < n → ∃ x, t.faults.dumpSections[i]? = some x ∧ x.flags = 0 ∧ x.kind = d.kind ∧ x.unit = d.unit ∧
          x.time = s.ftimeWord.toNat)) ∧ Quiet s t)) ∧
  (∀ s : State, s.rindActive = true → s.carries .owner = true → s.carries .host = true →
    (s.faults.dumpState = 2 → Written (.dumpRelease .owner 1) s (fun t => t.faults.dumpState = 3 ∧
      t.faults.dumpSections = [] ∧ Quiet s t)) ∧
    (s.faults.dumpState ≠ 2 → Written (.dumpRelease .host 1) s (fun t => t.faults = s.faults ∧ Quiet s t)) ∧
    (∀ v : BitVec 8, v ≠ 1 → Denied (.dumpRelease .owner v) s 0x05 [])) ∧
  (∀ s : State, s.faults.dumpState = 2 → s.faults.dumpEnd + 600000000000 ≤ s.now →
    Gives .dumpExpire s (fun t => t.faults.dumpState = 3 ∧ t.faults.dumpSections = [] ∧ Quiet s t))

/-- The ladder's steps, ends, timeouts and requests; regulator phases; replacement reasons (16 R680, R707 to R714, R723,
R724). -/
def Obligations.LadderStepsFollow : Prop :=
  (∀ s : State, Canonical s → s.faults.inAbort = true → s.faults.dumpDue = false → s.faults.dumpState ≠ 1 →
    s.faults.ladder.step = 0 → s.rindSteps = true → s.org.transitOn = true → s.faults.ladder.want ≤ 1 →
    Gives .ladderStart s (fun t => t.faults.ladder.step = 1 ∧ t.faults.ladder.startedAt = s.now ∧
      t.faults.ladder.every = true ∧ t.faults.inAbort = true ∧
      ∀ c : CoreId, s.org.present c = true → (s.core c).engineInReset = false → (s.core c).coreInReset = false →
        (s.region (coreRegion c)).risen = true →
        (s.region (coreRegion c)).inReset = false →
        (t.core c).pressQ = [] ∧ (t.core c).ladleQ = [] ∧ (t.core c).queues = [] ∧ (t.core c).g = (s.core c).g)) ∧
  (∀ s : State, s.faults.ladder.step ≠ 0 → s.stepEnded = true → s.rindSteps = true →
    s.faults.ladder.want ≤ s.faults.ladder.step →
    Gives .ladderStepEnd s (fun t => t.faults.ladder.step = 0 ∧ t.faults.inAbort = false ∧
      t.faults.ladder.lastEnd = some s.now ∧ t.faults.tierLost = false ∧
      ∃ h, t.faults.ladder.history.getLast? = some h ∧ h.step = s.faults.ladder.step ∧ h.outcome = 0)) ∧
  (∀ s : State, s.stepEnded = false →
    (s.faults.ladder.step = 1 → s.faults.ladder.startedAt + 1000000 ≤ s.now → s.faults.ladder.want ≤ 2 →
      Gives .ladderStepTimeout s (fun t => t.faults.ladder.step = 2 ∧ t.faults.ladder.startedAt = s.now ∧
        ∃ h, t.faults.ladder.history.getLast? = some h ∧ h.step = 1 ∧ h.outcome = 1)) ∧
    (s.faults.ladder.step = 5 → s.faults.ladder.startedAt + 2000000000 ≤ s.now →
      Gives .ladderStepTimeout s (fun t => t.faults.ladder.step = 0 ∧ t.faults.tier ≤ 1 ∧ t.faults.tierLost = true ∧
        t.faults.reasons.getLsbD 14 = true ∧ t.mem = s.mem))) ∧
  (∀ (v : BitVec 32) (s : State), s.rindActive = true → s.carries .owner = true → s.carries .host = true →
    let free := s.faults.dumpState ≠ 1 ∧ s.faults.ladder.step = 0 ∧ s.faults.inAbort = false ∧ s.rindSteps = true
    (requestOk v.toNat = false → Denied (.ladderRequest .owner v) s 0x05 []) ∧
    (requestOk v.toNat = true → ¬ free → Denied (.ladderRequest .owner v) s 0x07 (leBytes 2 100)) ∧
    (requestOk v.toNat = true → free → s.pow.hold = 1 → Denied (.ladderRequest .host v) s 0x08 []) ∧
    (requestOk v.toNat = true → free → s.jobLoaded = true → Denied (.ladderRequest .owner v) s 0x0B (leBytes 2 2)) ∧
    (requestOk v.toNat = true → free → s.jobLoaded = false → v.toNat % 256 ≤ 4 →
      Written (.ladderRequest .owner v) s (fun t => t.faults.ladder.step = v.toNat % 256 ∧
        t.faults.ladder.startedAt = s.now))) ∧
  (∀ (x : Nat) (s : State), s.faults.ladder.offSince = some x → s.faults.ladder.step = 5 → x + 100000000 ≤ s.now →
    s.tray.mainReq ≠ 1 → s.mainAllowed = true →
    Gives .packageStepRequest s (fun t => t.tray.mainReq = 1 ∧ t.start.step = 3 ∧ t.tray.reqSeq = s.tray.reqSeq + 1 ∧
      Quiet s t)) ∧
  (∀ (rail : BitVec 8) (d : RailDomain) (s : State),
    (Tab.get 0 s.faults.phasesLost rail.toNat = 0 → Gives (.regulatorPhaseLoss rail d) s (fun t =>
      Tab.get 0 t.faults.phasesLost rail.toNat = 1 ∧ t.faults.reasons.getLsbD 11 = true ∧ t.faults.seq = s.faults.seq ∧
      t.faults.healthTotal = s.faults.healthTotal + 1 ∧ t.org = s.org ∧ Quiet s t)) ∧
    (Tab.get 0 s.faults.phasesLost rail.toNat = 1 →
      Gives (.regulatorPhaseLoss rail .transit) s (fun t => t.org.transitOn = false ∧ t.org.computeOn = false ∧
        t.faults.tierLost = true) ∧
      Gives (.regulatorPhaseLoss rail .compute) s (fun t => t.org.computeOn = false ∧
        t.org.transitOn = s.org.transitOn ∧ t.faults.tierLost = true) ∧
      (∀ r : BitVec 4, Gives (.regulatorPhaseLoss rail (.region r)) s (fun t => (t.region r.toNat).risen = false ∧
        t.org.transitOn = s.org.transitOn ∧ t.faults.tierLost = true)) ∧
      (∀ n : BitVec 3, Gives (.regulatorPhaseLoss rail (.stack n)) s (fun t =>
        t.org.memoryOn.getLsbD n.toNat = false ∧ (t.stack n.toNat).healthy = 0 ∧ t.faults.tierLost = true ∧
        Quiet s t)))) ∧
  (∀ (v : BitVec 32) (s : State), s.rindActive = true → s.carries .owner = true → s.carries .host = true →
    (v.toNat ≤ 0x7FFF → Written (.replacementClear .owner v) s (fun t =>
      t.faults.reasons = s.faults.reasons &&& ~~~v ∧ Quiet s t)) ∧
    (0x7FFF < v.toNat → Denied (.replacementClear .owner v) s 0x05 []))

/-! ## Domains -/

/-- ENGINE, CORE and REGION resets leave what each domain does not hold; a core found defective is failed and held in reset
(01 R29, R45, R46, R51 to R57; 02 R77; 03 R199, R200). -/
def Obligations.DomainResetsReachTheirDomain : Prop :=
  (∀ (r : BitVec 4) (hi : Bool) (v : Word) (c : CoreId) (s : State), Canonical s → s.namedCores r.toNat hi v = [c] →
    (s.region (coreRegion c)).risen = true → (s.region (coreRegion c)).inReset = false →
    ((s.core c).engineInReset = true ∨ (s.core c).coreInReset = true → Gives (.engineReset r hi v) s (fun t => t = s)) ∧
    ((s.core c).coreInReset = true → Gives (.coreReset r hi v) s (fun t => t = s)) ∧
    ((s.core c).engineInReset = false → (s.core c).coreInReset = false → Gives (.engineReset r hi v) s (fun t =>
      (t.core c).pressQ = [] ∧ (t.core c).pressRun = [] ∧ (t.core c).ladleQ = [] ∧ (t.core c).ladleRun = [] ∧
      (t.core c).ladleTxs = [] ∧ (t.core c).queues = [] ∧ (t.core c).streams = [] ∧
      (t.core c).g = (s.core c).g ∧ (t.core c).v = (s.core c).v ∧ (t.core c).tallies = (s.core c).tallies ∧
      ((s.core c).pressRun = [] → t.mem = s.mem) ∧
      (∀ l : PressLine, ((s.pressSync c).core c).pressRun.flatMap (fun x => x.lines) = [l] → SameMem s t ∨
        ∀ a, Memory.byte t.mem a =
          (if vatBase c + 64 * l.line ≤ a ∧ a < vatBase c + 64 * l.line + 64 ∧
              l.mask.getLsbD (a - (vatBase c + 64 * l.line)) = true
           then (l.data >>> (8 * (a - (vatBase c + 64 * l.line)))).setWidth 8 else Memory.byte s.mem a)))) ∧
    ((s.core c).coreInReset = false → Gives (.coreReset r hi v) s (fun t =>
      (t.core c).g = Core.reset.g ∧ (t.core c).v = Core.reset.v ∧ (t.core c).run = false ∧ (t.core c).cache = [] ∧
      (t.core c).tallies = [] ∧ (t.core c).rat = [] ∧ (t.core c).coreProgress = (s.core c).coreProgress ∧
      (∀ a, a < vatBase c ∨ vatBase c + vatSize ≤ a → Memory.byte t.mem a = Memory.byte s.mem a)))) ∧
  (∀ (r : BitVec 4) (s : State), (s.region r.toNat).risen = true → (s.region r.toNat).inReset = false →
    Gives (.regionReset r) s (fun t => (t.region r.toNat).inReset = true ∧
      Tab.get none t.org.regionDrainUntil r.toNat = some (s.now + 10000) ∧
      Tab.get 0 t.org.regionResets r.toNat = Tab.get 0 s.org.regionResets r.toNat + 1 ∧
      (∀ q, q ≠ r.toNat → t.region q = s.region q) ∧ Quiet s t)) ∧
  (∀ (r : BitVec 4) (n x : Nat) (s : State), n ≠ 0 → Tab.get none s.org.regionDrainUntil r.toNat = some x → s.now < x →
    Gives (.regionDrainEnd r n) s (fun t => t = s)) ∧
  (∀ (r : BitVec 4) (n x : Nat) (s : State), Canonical s → Tab.get none s.org.regionDrainUntil r.toNat = some x →
    s.org.computeOn = true → n = 0 ∨ x ≤ s.now →
    Gives (.regionDrainEnd r n) s (fun t => (t.region r.toNat).inReset = false ∧ (t.region r.toNat).risen = true ∧
      Tab.get none t.org.regionDrainUntil r.toNat = none ∧
      (∀ c : CoreId, coreRegion c = r.toNat → (t.core c).g = Core.reset.g ∧ (t.core c).run = false ∧
        (t.core c).coreProgress = 0) ∧
      (∀ c : CoreId, coreRegion c ≠ r.toNat → (t.core c).g = (s.core c).g ∧ (t.core c).v = (s.core c).v) ∧
      (∀ a, (∀ c : CoreId, coreRegion c = r.toNat → a < vatBase c ∨ vatBase c + vatSize ≤ a) →
        Memory.byte t.mem a = Memory.byte s.mem a))) ∧
  (∀ (row : BitVec 5) (col : Nat) (s : State), Canonical s → s.org.computeOn = true → col < 34 →
    s.org.defects.contains (34 * row.toNat + col) = false →
    (s.org.coreOf (34 * row.toNat + col) = none → Gives (.coreDefectFound row col) s (fun t =>
      t.org.defects = s.org.defects ++ [34 * row.toNat + col] ∧ t.org.capacity = s.org.capacity ∧
      t.faults.seq = s.faults.seq ∧ Quiet s t)) ∧
    (∀ c, s.org.coreOf (34 * row.toNat + col) = some c → Gives (.coreDefectFound row col) s (fun t =>
      t.org.defects = s.org.defects ++ [34 * row.toNat + col] ∧ t.org.capCode c = 1 ∧ (t.core c).coreInReset = true ∧
      (t.core c).g = Core.reset.g ∧ (t.core c).run = false)))

/-! ## OAP sessions and requests -/

/-- Handshakes, idle sessions, requests that wait for the tick, anchors and nonces (15 R650 to R654, R660, R664; 17 R761). -/
def Obligations.SessionsTakeRequests : Prop :=
  ∀ s : State, s.rindActive = true →
    (∀ (p : MgmtPort) (cid : BitVec 64) (cert : ClientCert) (r : Role) (link : Bool), (s.mgmtPort p).up = true →
      (cert.ed25519Ok = true → cert.mldsaOk = true → s.oap.sessions.length < 32 → cert.role = some r →
        s.oap.anchor r ≠ [] → cert.chainsTo = s.oap.anchor r →
        Gives (.oapHandshake p cid cert link) s (fun t => ∃ x, t.oap.sessions = s.oap.sessions ++ [x] ∧ x.role = r ∧
          x.id = s.oap.nextSession + 1 ∧ x.port = p ∧ x.cid = cid ∧ x.subs = [] ∧ x.replies = [] ∧ Quiet s t)) ∧
      (cert.ed25519Ok = false ∨ cert.mldsaOk = false ∨ s.oap.sessions.length = 32 →
        Gives (.oapHandshake p cid cert link) s (fun t => t = s)) ∧
      (cert.ed25519Ok = true → cert.mldsaOk = true → s.oap.sessions = [] → s.oap.anchorOwner = [] → cert.role = none →
        Gives (.oapHandshake p cid cert true) s (fun t => t.oap.sessions.map Session.role = [.owner] ∧ Quiet s t) ∧
        Gives (.oapHandshake p cid cert false) s (fun t => t = s))) ∧
    (∀ sid : Nat, Gives (.sessionIdleTimeout sid) s (fun t => t.oap.sessions = s.oap.sessions.filter (fun x =>
      decide (x.id ≠ sid) || decide (s.now < x.lastRecord + 60000000000)) ∧ Quiet s t)) ∧
    (∀ (x : Session) (p : MgmtPort) (req : BitVec 32) (index : BitVec 16) (sub : BitVec 8) (n : BitVec 32)
        (body : List Byte) (more : Bool) (items : List ReadItem), s.session x.id = some x → (s.mgmtPort p).up = true →
      let waits (op : OapOp) (t : State) := t.oap.requests = s.oap.requests ++
          [{ session := x.id, port := p, reqId := req, at' := s.now, op := op }] ∧
        t.session x.id = some { x with port := p, lastRecord := s.now } ∧ Quiet s t
      Gives (.oapRead x.id p req index sub n) s (waits (.read index.toNat sub.toNat n.toNat)) ∧
      Gives (.oapWrite x.id p req index sub n body more) s (waits (.write index.toNat sub.toNat n.toNat body more)) ∧
      Gives (.readMulti x.id p req items) s (waits (.readMulti items)) ∧
      Gives (.subscribe x.id p req index sub n) s (waits (.subscribe index.toNat sub.toNat n.toNat)) ∧
      Gives (.subscribeCancel x.id p req n) s (waits (.cancel n.toNat))) ∧
    (∀ (x : Session) (r : Role) (v : List Byte), s.session x.id = some x → x.role = .owner → v.length < 0x1000000 →
      s.oap.portA.up = true ∨ s.oap.portB.up = true →
      Written (.anchorWrite x.id r v) s (fun t => t.oap.anchor r = v ∧
        (v ≠ s.oap.anchor r → t.oap.sessions = s.oap.sessions.filter (fun y => decide (y.role ≠ r) || decide (y.id = x.id))) ∧
        (v = s.oap.anchor r → t.oap.sessions = s.oap.sessions) ∧
        (∀ q, q ≠ r → t.oap.anchor q = s.oap.anchor q) ∧ Quiet s t)) ∧
    (∀ (x : Session) (v : List Byte), s.session x.id = some x → s.oap.portA.up = true ∨ s.oap.portB.up = true →
      v.length = 32 →
      Written (.attestationNonce x.id v) s (fun t =>
        t.session x.id = some { x with nonce := v, report := s.attestation v } ∧ t.fw.reports = s.fw.reports + 1 ∧
        Quiet s t)) ∧
    (∀ (x : Session) (v : List Byte), s.session x.id = some x → s.oap.portA.up = true ∨ s.oap.portB.up = true →
      v.length ≠ 32 →
      Denied (.attestationNonce x.id v) s 0x06 [])

namespace Sys2Proof.Claims

/-- The state in which the tick takes the first of its requests. -/
def taking (s : State) : State := { s with oap := { s.oap with requests := [], lastAnswers := [] } }

end Sys2Proof.Claims

/-- The tick answers what waits: a read gives its value, a kept reply goes out again, and of two writes of one sub-entry the
higher role's is performed and the other superseded (15 R656, R658, R660, R661). -/
def Obligations.TickAnswersWhatWaits : Prop :=
  (∀ (r : OapReq) (x : Session) (s : State), s.rindActive = true → s.oap.requests = [r] → s.session r.session = some x →
    let answers (a : OapAnswer) (t : State) := t.oap.requests = [] ∧ t.oap.lastAnswers = [a] ∧ Quiet s t
    (∀ a, x.replies.find? (fun b => b.reqId == r.reqId) = some a → Gives .mgmtTick s (answers a)) ∧
    (∀ (index sub off : Nat) (e : SubEntry), x.replies.find? (fun b => b.reqId == r.reqId) = none →
      r.op = .read index sub off → (taking s).subEntry x.id index sub = .ok e → e.acc ≠ .wo → e.ty.size = none ∨ off = 0 →
      Gives .mgmtTick s (answers {
        session := x.id, reqId := r.reqId, op := 0x81, status := 0,
        more := decide (off + 1136 < e.val.length), body := (e.val.drop off).take 1136 })) ∧
    (∀ (index sub off c : Nat), x.replies.find? (fun b => b.reqId == r.reqId) = none →
      r.op = .read index sub off → (taking s).subEntry x.id index sub = .error c →
      Gives .mgmtTick s (answers { session := x.id, reqId := r.reqId, op := 0x81, status := c, more := false, body := [] }))) ∧
  (∀ (a b : OapReq) (x y : Session) (v w : BitVec 8) (s : State), s.rindActive = true → s.oap.requests = [a, b] →
    s.session a.session = some x → s.session b.session = some y → a.session ≠ b.session →
    x.replies = [] → y.replies = [] → v.toNat ≤ 1 →
    a.op = .write 0x9001 1 0 [w] false → b.op = .write 0x9001 1 0 [v] false → x.role = .host → y.role = .rack →
    Gives .mgmtTick s (fun t => t.oap.conflicts = s.oap.conflicts + 1 ∧ t.oap.requests = [] ∧
      t.tray.locateUntil.isSome = decide (v = 1) ∧
      t.oap.lastAnswers.map (fun k => (k.session, k.status)) = [(b.session, 0), (a.session, 0x0A)] ∧ Quiet s t))

/-! ## Firmware -/

/-- Update sessions: opening, aborting, blocks that arrive, sources that fail, pieces for neighbours (17 R731 to R741,
R743 to R746). -/
def Obligations.UpdatesTakeTheirBlocks : Prop :=
  (∀ (type source : BitVec 8) (stage : BitVec 32) (s : State), s.rindActive = true → s.carries .owner = true →
    (type = 0 ∨ 6 < type.toNat ∨ source = 0 ∨ 2 < source.toNat → Denied (.updateOpen .owner type source stage) s 0x05 []) ∧
    (1 ≤ type.toNat → type.toNat ≤ 6 → 1 ≤ source.toNat → source.toNat ≤ 2 →
      (∀ c, s.openCode type.toNat stage.toNat = c → c ≠ 0 →
        Denied (.updateOpen .owner type source stage) s 0x0B (leBytes 2 c)) ∧
      (s.openCode type.toNat stage.toNat = 0 → Written (.updateOpen .owner type source stage) s (fun t =>
        t.fw.update.state = 1 ∧ t.fw.update.type = type.toNat ∧ t.fw.update.source = source.toNat ∧
        t.fw.update.stageId = stage ∧ t.fw.update.received = [] ∧
        (source = 1 → s.tray.auxPg = true → s.tray.format / 256 = 1 → t.fw.update.asked = some (0, s.now) ∧
          t.tray.pieceImage = type.toNat ∧ t.tray.pieceBlock = 0) ∧ Quiet s t))) ∧
    (s.fw.update.isOpen = true → Written (.updateAbort .owner) s (fun t => t.fw.update.state = 7 ∧
      t.fw.update.status = 0x13 ∧ t.fw.update.received = s.fw.update.received ∧ Quiet s t)) ∧
    (s.fw.update.isOpen = false → Denied (.updateAbort .owner) s 0x05 [])) ∧
  (∀ (b : ImageBlock) (at' : Nat) (s : State), s.rindActive = true → b.noSuchBlock = false → b.source ≠ .server →
    s.fw.update.asked = some (b.index, at') → s.fw.update.from' = BlockSource.place b.source →
    let u := s.fw.update
    let n := s.targetSlot u.type
    (u.state = 1 → s.descCode u.type b.bytes ≠ 0 → Gives (.imageBlockReceive b) s (fun t => t.fw.update.state = 7 ∧
      t.fw.update.status = s.descCode u.type b.bytes ∧ t.fw.images = s.fw.images ∧ Quiet s t)) ∧
    (u.state = 1 → s.descCode u.type b.bytes = 0 → Gives (.imageBlockReceive b) s (fun t => t.fw.update.state = 2 ∧
      t.fw.update.total = descTotal b.bytes ∧ t.fw.update.imageId = imageIdOf b.bytes ∧
      ((t.image u.type).slot n).state = 1 ∧ Tab.get [] ((t.image u.type).slot n).blocks 0 = b.bytes ∧ Quiet s t)) ∧
    (u.state = 2 → ((s.image u.type).slot n).blockOk b.index b.bytes = true → u.table < b.index → b.index < u.total →
      (u.regime = 2 → ((s.image u.type).slot n).digestOk = true) →
      (∃ i, i < u.total ∧ i ≠ b.index ∧ i ∉ u.received) → Gives (.imageBlockReceive b) s (fun t =>
        t.fw.update.received = u.received ++ [b.index] ∧ t.fw.update.state = 2 ∧
        Tab.get [] ((t.image u.type).slot n).blocks b.index = b.bytes ∧ Quiet s t)) ∧
    (u.state = 2 → u.regime = 2 → u.table < b.index → ((s.image u.type).slot n).digestOk = false →
      Gives (.imageBlockReceive b) s (fun t => t.fw.update.state = 7 ∧ t.fw.update.status = 0x10 ∧
        t.fw.images = s.fw.images ∧ Quiet s t)) ∧
    (u.state = 2 → ((s.image u.type).slot n).blockOk b.index b.bytes = false → u.failures + 1 < 8 →
      (u.regime = 2 → u.table < b.index → ((s.image u.type).slot n).digestOk = true) →
      Gives (.imageBlockReceive b) s (fun t => t.fw.images = s.fw.images ∧ t.fw.update.received = u.received ∧
        t.fw.update.state = 2 ∧ Quiet s t))) ∧
  (∀ (b : ImageBlock) (s : State), s.rindActive = false ∨ (b.source = .server ∧ s.oap.portA.up = false ∧ s.oap.portB.up = false) →
    Gives (.imageBlockReceive b) s (fun t => t = s)) ∧
  (∀ (x : Nat × Nat) (s : State), s.fw.update.asked = some x → x.2 + 100000000 ≤ s.now → s.fw.repairAsked = none →
    s.fw.update.status ≠ 0x0E →
    (s.fw.update.source = 1 → Gives .blockRequestTimeout s (fun t => t.fw.update.asked = none ∧
      t.fw.update.retryAt = s.now + 10000000000 ∧ t.fw.update.state = s.fw.update.state ∧ Quiet s t)) ∧
    (s.fw.update.source = 2 → s.fw.update.from' = 2 → s.fw.update.needs = some x.1 → s.oap.portA.up = true →
      s.fw.server ≠ [] → Gives .blockRequestTimeout s (fun t => t.fw.update.from' = 3 ∧
        t.fw.update.asked = some (x.1, s.now) ∧ Quiet s t))) ∧
  (∀ (i : Nat) (s : State), s.fw.update.asked = none → s.fw.update.retryAt ≤ s.now → s.fw.update.state = 2 →
    s.fw.update.source = 1 → s.fw.update.from' = 0 → s.fw.update.needs = some i → s.tray.auxPg = true →
    s.tray.format / 256 = 1 → s.repairing = none →
    Gives .blockRetry s (fun t => t.fw.update.asked = some (i, s.now) ∧
      t.tray.pieceImage = s.fw.update.type ∧ t.tray.pieceBlock = i ∧ Quiet s t)) ∧
  (∀ (block : Nat) (s : State), Gives (.recoveryResend block) s (fun t =>
    t.fw.recovery = s.fw.recovery.map (fun e =>
      if e.2.1 = block ∧ e.2.2 + 50000000 ≤ s.now then (e.1, block, s.now) else e) ∧
    t.fw.update = s.fw.update ∧ Quiet s t)) ∧
  (∀ (k : Packet) (s : State), k.dstChip = s.fab.chip → s.org.transitOn = true → s.hears k = true →
    (k.kind = .pieceReq → (∀ p ∈ allPorts, s.portUp p = true → (s.port p).nbChip ≠ k.srcChip.toNat) →
      Gives (.pieceReq k) s (fun t => t.fw = { s.fw with discarded := s.fw.discarded + 1 } ∧ Quiet s t)) ∧
    (∀ (p : Nat) (x : Slot), k.kind = .pieceReq →
      allPorts.find? (fun p => s.portUp p && decide ((s.port p).nbChip = k.srcChip.toNat)) = some p →
      let type := (Packet.arg k 0).toNat / 2 ^ 56
      let block := (Packet.arg k 0).toNat / 2 ^ 32 % 2 ^ 24
      s.rindActive = true → type ≠ 6 → s.completeSlot type (pieceId k) = some x → Tab.get [] x.blocks block ≠ [] →
      (s.fw.fabricFetch ≠ 1 → Gives (.pieceReq k) s (fun t =>
        t.fw = { s.fw with discarded := s.fw.discarded + 1 } ∧ Quiet s t)) ∧
      (s.fw.fabricFetch = 1 → (s.port p).piecesOut < 16 → Gives (.pieceReq k) s (fun t =>
        t.fw = { s.fw with served := s.fw.served + 1 } ∧ Quiet s t))) ∧
    (k.kind = .piece → s.rindActive = true → ∃ b, b.source = .neighbours ∧ b.bytes = k.data ∧ b.noSuchBlock = false ∧
      b.index = (Packet.arg k 0).toNat / 2 ^ 32 % 2 ^ 24 ∧
      exec (.piece k) s = exec (.imageBlockReceive b) (s.claim k)))

/-- The owner lock and the token that clears it (17 R763 to R765). -/
def Obligations.LockTakesItsToken : Prop :=
  (∀ s : State, s.rindActive = true → s.carries .owner = true →
    Denied (.ownerLockSet .owner 0) s 0x0B (leBytes 2 3) ∧
    (∀ v : BitVec 8, 1 < v.toNat → Denied (.ownerLockSet .owner v) s 0x05 []) ∧
    (s.fw.locked = false → s.fw.update.type ≠ 2 → Written (.ownerLockSet .owner 1) s (fun t => t.fw.locked = true ∧
      t.fw.lockAnchor = Config.sha384 s.oap.anchorOwner ∧ Quiet s t)) ∧
    (∀ v : List Byte, v.length < 0x1000000 →
      (s.fw.locked = true → s.tokenOk v = true → Written (.clearToken .owner v) s (fun t => t.fw.locked = false ∧
        t.fw.clears = s.fw.clears + 1 ∧ t.fw.lockNonce.length = 32 ∧ Quiet s t)) ∧
      (s.fw.locked = false ∨ s.tokenOk v = false → Gives (.clearToken .owner v) s (fun t => t.fw.locked = s.fw.locked ∧
        t.fw.lockNonce.length = 32 ∧ t.oap.lastAnswers = replied 0x05 [] ∧ Quiet s t))))

/-! ## Registers and counters by address -/

/-- A register word takes what is written to its writable bits and reads it back; read-only registers, registers that
nothing serves and misaligned writes change nothing (00 R20, R21; 01 R67; 02 Tables 2.6, 2.7; 09 Table 9.6); counters of
cycle events overflow, and managers configure port and HBM counters (18 R783 to R787); the release offset (06 R323). -/
def Obligations.RegistersTakeTheirWritableBits : Prop :=
  (∀ (w : Writer) (off : BitVec 48) (v : Word) (s : State), off.toNat % 8 = 0 → s.regServed off.toNat = true →
    s.mayWrite w off.toNat = true →
    (∀ c : CoreId, spaceOf off.toNat = .core c 0x3000 → Gives (.registerWrite w off v (-1)) s (fun t =>
      (t.core c).startPc = v ∧ t.regWord off.toNat = v ∧ (t.core c).g = (s.core c).g ∧ OnlyCore c s t)) ∧
    (∀ (c : CoreId) (i : Nat), i < 16 → spaceOf off.toNat = .core c (0x2000 + 16 * i) →
      Gives (.registerWrite w off v (-1)) s (fun t => t.regWord off.toNat = v &&& ratBaseMask ∧ OnlyCore c s t)) ∧
    (∀ (c : CoreId) (i : Nat), i < 16 → spaceOf off.toNat = .core c (0x2008 + 16 * i) →
      Gives (.registerWrite w off v (-1)) s (fun t => t.regWord off.toNat = v &&& ratLimitMask ∧ OnlyCore c s t)) ∧
    (∀ (d : Die) (n : Nat), n < 0x2000 → spaceOf off.toNat = .ioDie d (0x800000 + 256 * n + 8) →
      Gives (.registerWrite w off v (-1)) s (fun t => t.regWord off.toNat = v &&& 0xFFFF000000000000 ∧ Quiet s t)) ∧
    (∀ (d : Die) (i : Nat), i < 256 → spaceOf off.toNat = .ioDie d (0x2400 + 8 * i) →
      Gives (.registerWrite w off v (-1)) s (fun t => t.regWord off.toNat = v ∧ Quiet s t)) ∧
    (∀ r o : Nat, 0x10000 ≤ o → o < 0x20000 → spaceOf off.toNat = .region r o →
      Gives (.registerWrite w off v (-1)) s (fun t => t = s))) ∧
  (∀ (w : Writer) (off : BitVec 48) (v mask : Word) (s : State), off.toNat % 8 ≠ 0 ∨ s.regServed off.toNat = false →
    Gives (.registerWrite w off v mask) s (fun t => t = s)) ∧
  (∀ (p : BitVec 6) (n : BitVec 3) (left : BitVec 48) (s : State), n.toNat < 4 →
    let w := (s.portCounters p.toNat).ctlOf n.toNat
    w.getLsbD 63 = true → w.getLsbD 61 = false → (w.extractLsb' 0 12).toNat = 0x107 →
    w.getLsbD 29 = true ∨ (w.extractLsb' 24 5).toNat ≤ 9 →
    Gives (.cycleCountOverflow (.port p) n left) s (fun t => (t.portCounters p.toNat).cntOf n.toNat = left ∧
      ((t.portCounters p.toNat).ctlOf n.toNat).getLsbD 60 = true ∧ Quiet s t)) ∧
  (∀ (p : BitVec 6) (n : BitVec 3) (left : BitVec 48) (s : State),
    let w := (s.portCounters p.toNat).ctlOf n.toNat
    w.getLsbD 29 = false → 9 < (w.extractLsb' 24 5).toNat →
    Gives (.cycleCountOverflow (.port p) n left) s (fun t => t.portCounters p.toNat = s.portCounters p.toNat ∧ Quiet s t)) ∧
  (∀ (n : BitVec 3) (left : BitVec 48) (c : CoreId) (s : State),
    ((s.core c).pmu.counts (s.core c).mode n.toNat = false →
      Gives (.cycleCountOverflow (.core c) n left) s (fun t => t.core c = s.core c ∧ OnlyCore c s t))) ∧
  (∀ (v : List Byte) (s : State), s.rindActive = true → s.carries .owner = true → s.carries .host = true →
    (s.counters.controlOwner = 0 → v.length < 0x1000000 → Denied (.unitCountersConfig .host v) s 0x0B (leBytes 2 1)) ∧
    (s.counters.controlOwner ≠ 0 → v.length % 10 ≠ 0 → v.length < 0x1000000 →
      Denied (.unitCountersConfig .owner v) s 0x05 []) ∧
    (∀ (p n : Nat) (w : Word), s.counters.controlOwner ≠ 0 → p < 48 → n < 4 → w &&& unitCtlMask n = w →
      Written (.unitCountersConfig .owner (leBytes 1 p ++ leBytes 1 n ++ leBytes 8 w.toNat)) s (fun t =>
        (t.portCounters p).ctlOf n &&& 0xEFFFFFFFFFFFFFFF = w ∧
        (∀ q, q ≠ p → t.portCounters q = s.portCounters q) ∧ Quiet s t))) ∧
  (∀ (v : BitVec 8) (s : State), s.rindActive = true → s.carries .rack = true →
    (v.toNat ≤ 31 → Written (.releaseOffsetWrite .rack v) s (fun t =>
      t.barriers = { s.barriers with releaseOffset := v.toNat } ∧ Quiet s t)) ∧
    (31 < v.toNat → Denied (.releaseOffsetWrite .rack v) s 0x05 []))

/-! ## The whole machine -/

namespace Sys2Proof.Claims

/-- The writes with a row of their own, each with a value of the right length, and the roles that may make it. -/
def MadeBy (e : Role → Instr) (rs : List Role) : Prop := (e, rs) ∈ ([
   (fun r => .planWrite r [], [.owner]), (fun r => .signerWrite r [], [.owner]), (fun r => .acceptSwap r 0, [.owner]),
   (fun r => .routeBlockWrite r 0 [], [.owner]), (fun r => .routeCommit r 1, [.owner]),
   (fun r => .scheduleCommit r 1, [.owner]), (fun r => .capWrite r 0, [.rack, .host]), (fun r => .capWindowWrite r 1, [.rack]),
   (fun r => .rackOrderWrite r 0, [.rack]), (fun r => .hostOrderWrite r 0, [.host]), (fun r => .holdWrite r 0, [.rack]),
   (fun r => .frequencyModeWrite r true 800, [.host]), (fun r => .frequencyModeWrite r false 0, [.host]),
   (fun r => .releaseOffsetWrite r 0, [.rack]), (fun r => .tripClear r 1, [.owner]), (fun r => .clearFaults r 1, [.owner]),
   (fun r => .locateWrite r 1, [.owner, .rack, .host]), (fun r => .mainRetry r 1, [.owner]), (fun r => .jobStart r, [.host]),
   (fun r => .jobStop r, [.host]), (fun r => .jobAbort r, [.host]), (fun r => .rdmaConnect r [], [.host]),
   (fun r => .rdmaClose r 0, [.host]), (fun r => .keyWrite r [], [.host]), (fun r => .windowMsWrite r 1, [.owner, .host]),
   (fun r => .replacementClear r 0, [.owner]), (fun r => .ladderRequest r 1, [.owner, .host]),
   (fun r => .dumpRelease r 1, [.owner, .host]), (fun r => .updateOpen r 1 1 0, [.owner]), (fun r => .updateAbort r, [.owner]),
   (fun r => .ownerLockSet r 1, [.owner]), (fun r => .clearToken r [], [.owner]),
   (fun r => .unitCountersConfig r [], [.owner, .host])] : List ((Role → Instr) × List Role))

end Sys2Proof.Claims

/-- A role that a sub-entry's table does not name is refused with ROLE and changes nothing; while no controller is active a
standby answers every write with BUSY for 10 ms; without a session of the role or a MGMT port that is up nothing arrives
(00 R1, R6; 15 R633, R646, R650, Table 15.9). -/
def Obligations.RolesLimitWrites : Prop :=
  ∀ (s : State) (e : Role → Instr) (rs : List Role) (r : Role), MadeBy e rs →
    (s.carries r = true → s.rindActive = true → r ∉ rs → Denied (e r) s 0x04 []) ∧
    (s.carries r = true → s.rindActive = false → s.rind.standby.isSome = true → Denied (e r) s 0x07 (leBytes 2 10)) ∧
    (s.carries r = false → exec (e r) s = .next s)

/-- What reset leaves, where the spec gives it: the defaults of the management objects, an idle job and empty anchors, cores
halted in RUNTIME mode, clear abort contexts, nothing waiting (02 R77; 11 Tables 11.3, 11.5 and 11.7; 15 Tables 15.10 and 15.13;
16 Tables 16.7 and 16.17; 17 Table 17.10). That no byte of memory is listed and an unlisted byte reads as 0 is the model's choice
(log 2). -/
def Obligations.ResetLeavesTheSpecsValues : Prop :=
  State.reset.pending = [] ∧ Canonical State.reset ∧ (∀ a, Memory.byte State.reset.mem a = 0) ∧
  (∀ c : CoreId, (State.reset.core c).run = false ∧ (State.reset.core c).halted = true ∧
    (State.reset.core c).mode = .runtime ∧ (State.reset.core c).nest = false ∧ (State.reset.core c).pressLevel = 0) ∧
  (∀ r, (State.reset.region r).risen = false) ∧ State.reset.org.transitOn = false ∧ State.reset.org.computeOn = false ∧
  State.reset.job.state = 0 ∧ State.reset.job.jobId = 0 ∧ State.reset.jobLoaded = false ∧
  State.reset.faults.windowMs = 200 ∧ State.reset.faults.seq = 0 ∧ State.reset.faults.inAbort = false ∧
  (∀ d, (State.reset.faults.abortCtx d).valid = false) ∧ State.reset.faults.ladder.step = 0 ∧
  State.reset.pow.rackCap = 4400 ∧ State.reset.pow.hostCap = 4800 ∧ State.reset.pow.window = 4 ∧
  State.reset.pow.rackOrder = 0 ∧ State.reset.pow.hold = 0 ∧ State.reset.pow.mode = 0 ∧ State.reset.pow.fixedMhz = 2000 ∧
  (∀ r, State.reset.oap.anchor r = []) ∧ State.reset.oap.sessions = [] ∧ State.reset.fw.fabricFetch = 1 ∧
  State.reset.fw.server = [] ∧ State.reset.fw.locked = false ∧ State.reset.counters.controlOwner = 0

/-- Every step leaves memory and the cores in their one canonical form (the model's choice of data; log 2). -/
def Obligations.StepsStayCanonical : Prop := ∀ s t : State, Canonical s → step s = .next t → Canonical t

/-- With no command waiting, 1 ns passes: fabric time and the cycles of the risen regions go on, a region's clock or ceiling that
falls and a ceiling that rises take their next step when it is due, grants whose rise is due land (11 R525), every Press obeys its
region's ceiling, the package parks for the coolant or the leak loop once it stands in the lowest operating state (12 R552, R563),
cells may be upset (07 R340; 16 R678), and the indicator registers follow the state; nothing else changes (the model's choice, logs 25
and 113). -/
def Obligations.EmptyQueueLetsTimePass : Prop :=
  ∀ s : State, s.pending = [] → ∃ t, step s = .next t ∧ t.now = s.now + 1 ∧ t.ftime = s.ftime + 1 ∧
    t.runNow = (if s.pow.parked = 0 then s.runNow + 1 else s.runNow) ∧
    (∀ r, (s.region r).risen = true → (t.region r).cycles = (s.region r).cycles +
      (if (s.region r).stretching then (s.region r).current * 2 / 3 else (s.region r).current)) ∧
    (∀ r, (s.region r).ceilFall = false → (s.region r).ceilRise = false → (t.region r).ceiling = (s.region r).ceiling) ∧
    (∀ r, (s.region r).clockFall = true → (t.region r).current =
      (if (s.region r).clockWait ≤ 1 then Nat.max 800 ((s.region r).current - 25) else (s.region r).current)) ∧
    (s.pow.grantsDue = none → t.pow.grantsDue = none ∧ ∀ r, (t.region r).grant = (s.region r).grant) ∧
    (∀ (x : Nat) (gs : List Nat), s.pow.grantsDue = some (x, gs) →
      (s.now + 1 < x → t.pow.grantsDue = some (x, gs) ∧ ∀ r, (t.region r).grant = (s.region r).grant) ∧
      (x ≤ s.now + 1 → t.pow.grantsDue = none ∧ ∀ r g, gs[r]? = some g → (t.region r).grant = g)) ∧
    (t.pow.parkCool = ((s.therm.fastStop || s.therm.leakPark) && (s.pow.parkCool || t.atLowest))) ∧
    (t.pow.parkCool = s.pow.parkCool → t.pow.parked = s.pow.parked ∧ t.job = s.job ∧
      ∀ r, (s.region r).ceilFall = false → (s.region r).clockFall = false → (s.region r).ceilRise = false →
        { t.region r with cycles := (s.region r).cycles, grant := (s.region r).grant } = s.region r) ∧
    (t.pow.parkCool = true → s.pow.parkCool = false → t.pow.parked = 0xFFFF ∧
      ∀ r, (s.region r).risen = true → (t.region r).limitCause = t.causeAll) ∧
    (∀ c : CoreId, (t.core c).pressLevel = Nat.min (s.core c).pressLevel (t.pressCeiling c) ∧
      { t.core c with pressLevel := (s.core c).pressLevel, pressChanges := (s.core c).pressChanges,
                      pressStepCycle := (s.core c).pressStepCycle, cellErrs := (s.core c).cellErrs } = s.core c) ∧
    { t with now := s.now, ftime := s.ftime, runNow := s.runNow, regions := s.regions, cores := s.cores, pow := s.pow,
             job := s.job, oap := { t.oap with changed := s.oap.changed }, cellErrs := s.cellErrs, symbolErrs := s.symbolErrs,
             tray := { t.tray with leds := s.tray.leds } } = s
end

