-- ==== Sys2Proof/Laws/Table.lean ====
section
/-! SUPPORT. Laws of sparse tables and of memory: a read after a write, and the canonical form, which every write keeps. -/
namespace Sys2Proof.Machine

/-! ## Reading after writing -/

theorem Tab.get_erase_same {α : Type} (d : α) (t : Tab α) (n : Nat) : Tab.get d (Tab.erase t n) n = d := by
  induction t with
  | nil => rfl
  | cons e t ih =>
    obtain ⟨k, v⟩ := e
    by_cases h : k = n
    · simpa [Tab.erase, h] using ih
    · have h' : n ≠ k := fun e => h e.symm
      simpa [Tab.erase, h, h', Tab.get] using ih

theorem Tab.get_erase_ne {α : Type} (d : α) (t : Tab α) {n m : Nat} (h : m ≠ n) :
    Tab.get d (Tab.erase t n) m = Tab.get d t m := by
  induction t with
  | nil => rfl
  | cons e t ih =>
    obtain ⟨k, v⟩ := e
    by_cases hk : k = n
    · subst hk
      simpa [Tab.erase, Tab.get, h] using ih
    · have : Tab.erase ((k, v) :: t) n = (k, v) :: Tab.erase t n := by simp [Tab.erase, hk]
      rw [this]
      by_cases hm : m = k <;> simp [Tab.get, hm, ih]

theorem Tab.get_insert_same {α : Type} (d : α) (t : Tab α) (n : Nat) (x : α) : Tab.get d (Tab.insert t n x) n = x := by
  induction t with
  | nil => simp [Tab.insert, Tab.get]
  | cons e t ih =>
    obtain ⟨k, v⟩ := e
    unfold Tab.insert
    split
    · simp [Tab.get]
    · split
      · simp [Tab.get]
      · rename_i h
        simp [Tab.get, h, ih]

theorem Tab.get_insert_ne {α : Type} (d : α) (t : Tab α) {n m : Nat} (x : α) (h : m ≠ n) :
    Tab.get d (Tab.insert t n x) m = Tab.get d t m := by
  induction t with
  | nil => simp [Tab.insert, Tab.get, h]
  | cons e t ih =>
    obtain ⟨k, v⟩ := e
    unfold Tab.insert
    split
    · simp [Tab.get, h]
    · split
      · rename_i hk
        subst hk
        simp [Tab.get, h]
      · simp only [Tab.get, ih]

/-- A read of the key written gives the value written. -/
@[simp] theorem Tab.get_put_same {α : Type} [DecidableEq α] (d : α) (t : Tab α) (n : Nat) (x : α) :
    Tab.get d (Tab.put d t n x) n = x := by
  unfold Tab.put
  split
  · rename_i h
    rw [h, Tab.get_erase_same]
  · exact Tab.get_insert_same d t n x

/-- A write leaves every other key alone. -/
theorem Tab.get_put_ne {α : Type} [DecidableEq α] (d : α) (t : Tab α) {n m : Nat} (x : α) (h : m ≠ n) :
    Tab.get d (Tab.put d t n x) m = Tab.get d t m := by
  unfold Tab.put
  split
  · exact Tab.get_erase_ne d t h
  · exact Tab.get_insert_ne d t x h

/-! ## The canonical form -/

theorem Tab.wfFrom_some {α : Type} [DecidableEq α] (d : α) (b k : Nat) (v : α) (t : Tab α) :
    Tab.wfFrom d (some b) ((k, v) :: t) = true ↔ b < k ∧ v ≠ d ∧ Tab.wfFrom d (some k) t = true := by
  simp [Tab.wfFrom, and_assoc]

theorem Tab.wfFrom_none {α : Type} [DecidableEq α] (d : α) (k : Nat) (v : α) (t : Tab α) :
    Tab.wfFrom d none ((k, v) :: t) = true ↔ v ≠ d ∧ Tab.wfFrom d (some k) t = true := by
  simp [Tab.wfFrom]

/-- A table well formed above a bound is well formed above any lower one, and without one. -/
theorem Tab.wfFrom_lower {α : Type} [DecidableEq α] (d : α) {b c : Nat} (t : Tab α) (h : c ≤ b)
    (w : Tab.wfFrom d (some b) t = true) : Tab.wfFrom d (some c) t = true := by
  cases t with
  | nil => rfl
  | cons e t =>
    obtain ⟨k, v⟩ := e
    rw [Tab.wfFrom_some] at w ⊢
    exact ⟨Nat.lt_of_le_of_lt h w.1, w.2⟩

theorem Tab.wfFrom_drop {α : Type} [DecidableEq α] (d : α) {b : Nat} (t : Tab α)
    (w : Tab.wfFrom d (some b) t = true) : Tab.wfFrom d none t = true := by
  cases t with
  | nil => rfl
  | cons e t =>
    obtain ⟨k, v⟩ := e
    rw [Tab.wfFrom_some] at w
    rw [Tab.wfFrom_none]
    exact w.2

theorem Tab.wfFrom_erase {α : Type} [DecidableEq α] (d : α) (t : Tab α) (n : Nat) :
    ∀ b, Tab.wfFrom d (some b) t = true → Tab.wfFrom d (some b) (Tab.erase t n) = true := by
  induction t with
  | nil => intro b _; rfl
  | cons e t ih =>
    obtain ⟨k, v⟩ := e
    intro b w
    rw [Tab.wfFrom_some] at w
    by_cases hk : k = n
    · have : Tab.erase ((k, v) :: t) n = Tab.erase t n := by simp [Tab.erase, hk]
      rw [this]
      exact Tab.wfFrom_lower d _ (Nat.le_of_lt w.1) (ih k w.2.2)
    · have : Tab.erase ((k, v) :: t) n = (k, v) :: Tab.erase t n := by simp [Tab.erase, hk]
      rw [this, Tab.wfFrom_some]
      exact ⟨w.1, w.2.1, ih k w.2.2⟩

theorem Tab.wfFrom_insert {α : Type} [DecidableEq α] (d : α) (t : Tab α) (n : Nat) (x : α) (hx : x ≠ d) :
    ∀ b, b < n → Tab.wfFrom d (some b) t = true → Tab.wfFrom d (some b) (Tab.insert t n x) = true := by
  induction t with
  | nil =>
    intro b hb _
    rw [Tab.insert, Tab.wfFrom_some]
    exact ⟨hb, hx, rfl⟩
  | cons e t ih =>
    obtain ⟨k, v⟩ := e
    intro b hb w
    rw [Tab.wfFrom_some] at w
    unfold Tab.insert
    split
    · rename_i h
      rw [Tab.wfFrom_some, Tab.wfFrom_some]
      exact ⟨hb, hx, h, w.2⟩
    · split
      · rename_i h
        subst h
        rw [Tab.wfFrom_some]
        exact ⟨hb, hx, w.2.2⟩
      · rw [Tab.wfFrom_some]
        exact ⟨w.1, w.2.1, ih k (by omega) w.2.2⟩

/-- Every write keeps a table's canonical form. -/
theorem Tab.wf_put {α : Type} [DecidableEq α] (d : α) (t : Tab α) (n : Nat) (x : α) (w : Tab.wf d t = true) :
    Tab.wf d (Tab.put d t n x) = true := by
  unfold Tab.wf at *
  unfold Tab.put
  cases t with
  | nil =>
    split
    · rfl
    · rename_i h
      rw [Tab.insert, Tab.wfFrom_none]
      exact ⟨h, rfl⟩
  | cons e t =>
    obtain ⟨k, v⟩ := e
    rw [Tab.wfFrom_none] at w
    split
    · by_cases hk : k = n
      · have : Tab.erase ((k, v) :: t) n = Tab.erase t n := by simp [Tab.erase, hk]
        rw [this]
        exact Tab.wfFrom_drop d _ (Tab.wfFrom_erase d t n k w.2)
      · have : Tab.erase ((k, v) :: t) n = (k, v) :: Tab.erase t n := by simp [Tab.erase, hk]
        rw [this, Tab.wfFrom_none]
        exact ⟨w.1, Tab.wfFrom_erase d t n k w.2⟩
    · rename_i hx
      unfold Tab.insert
      split
      · rename_i h
        rw [Tab.wfFrom_none, Tab.wfFrom_some]
        exact ⟨hx, h, w⟩
      · split
        · rename_i h
          subst h
          rw [Tab.wfFrom_none]
          exact ⟨hx, w.2⟩
        · rw [Tab.wfFrom_none]
          exact ⟨w.1, Tab.wfFrom_insert d t n x hx k (by omega) w.2⟩

/-- Dropping entries keeps the canonical form above a bound. -/
theorem Tab.wfFrom_filter {α : Type} [DecidableEq α] (d : α) (p : Nat × α → Bool) (t : Tab α) :
    ∀ b, Tab.wfFrom d (some b) t = true → Tab.wfFrom d (some b) (t.filter p) = true := by
  induction t with
  | nil => intro b _; rfl
  | cons e t ih =>
    obtain ⟨k, v⟩ := e
    intro b w
    rw [Tab.wfFrom_some] at w
    by_cases hp : p (k, v) = true
    · rw [List.filter_cons_of_pos hp, Tab.wfFrom_some]
      exact ⟨w.1, w.2.1, ih k w.2.2⟩
    · rw [List.filter_cons_of_neg hp]
      exact Tab.wfFrom_lower d _ (Nat.le_of_lt w.1) (ih k w.2.2)

/-- Dropping keys keeps the canonical form. -/
theorem Tab.wf_filterKeys {α : Type} [DecidableEq α] (d : α) (p : Nat → Bool) (t : Tab α) (w : Tab.wf d t = true) :
    Tab.wf d (Tab.filterKeys p t) = true := by
  unfold Tab.wf Tab.filterKeys at *
  cases t with
  | nil => rfl
  | cons e t =>
    obtain ⟨k, v⟩ := e
    rw [Tab.wfFrom_none] at w
    have r := Tab.wfFrom_filter d (fun e : Nat × α => p e.1) t k w.2
    by_cases hp : p k = true
    · rw [List.filter_cons_of_pos (by simpa using hp), Tab.wfFrom_none]
      exact ⟨w.1, r⟩
    · rw [List.filter_cons_of_neg (by simpa using hp)]
      exact Tab.wfFrom_drop d _ r

theorem Tab.wfFrom_mapVals {α : Type} [DecidableEq α] (d : α) (f : α → α) (t : Tab α) :
    ∀ b, Tab.wfFrom d (some b) t = true → Tab.wfFrom d (some b) (Tab.mapVals d f t) = true := by
  induction t with
  | nil => intro b _; rfl
  | cons e t ih =>
    obtain ⟨k, v⟩ := e
    intro b w
    rw [Tab.wfFrom_some] at w
    have r := ih k w.2.2
    unfold Tab.mapVals at r ⊢
    rw [List.map_cons]
    by_cases hp : f v = d
    · rw [List.filter_cons_of_neg (by simpa using hp)]
      exact Tab.wfFrom_lower d _ (Nat.le_of_lt w.1) r
    · rw [List.filter_cons_of_pos (by simpa using hp), Tab.wfFrom_some]
      exact ⟨w.1, hp, r⟩

/-- Replacing every listed value keeps the canonical form. -/
theorem Tab.wf_mapVals {α : Type} [DecidableEq α] (d : α) (f : α → α) (t : Tab α) (w : Tab.wf d t = true) :
    Tab.wf d (Tab.mapVals d f t) = true := by
  unfold Tab.wf at *
  cases t with
  | nil => rfl
  | cons e t =>
    obtain ⟨k, v⟩ := e
    rw [Tab.wfFrom_none] at w
    have r := Tab.wfFrom_mapVals d f t k w.2
    unfold Tab.mapVals at r ⊢
    rw [List.map_cons]
    by_cases hp : f v = d
    · rw [List.filter_cons_of_neg (by simpa using hp)]
      exact Tab.wfFrom_drop d _ r
    · rw [List.filter_cons_of_pos (by simpa using hp), Tab.wfFrom_none]
      exact ⟨hp, r⟩

/-! ## Memory -/

@[simp] theorem Memory.byte_setByte_same (m : Memory) (a : Nat) (b : Byte) : Memory.byte (Memory.setByte m a b) a = b :=
  Tab.get_put_same _ _ _ _

theorem Memory.byte_setByte_ne (m : Memory) {a x : Nat} (b : Byte) (h : x ≠ a) :
    Memory.byte (Memory.setByte m a b) x = Memory.byte m x := Tab.get_put_ne _ _ _ h

theorem Memory.wf_setByte (m : Memory) (a : Nat) (b : Byte) (w : Memory.wf m = true) :
    Memory.wf (Memory.setByte m a b) = true := Tab.wf_put _ _ _ _ w

theorem Memory.wf_write (bs : List Byte) : ∀ (m : Memory) (a : Nat), Memory.wf m = true →
    Memory.wf (Memory.write m a bs) = true := by
  induction bs with
  | nil => intro m a w; exact w
  | cons b bs ih => intro m a w; exact ih _ _ (Memory.wf_setByte m a b w)

theorem Memory.wf_writeMasked (bs : List (Byte × Bool)) : ∀ (m : Memory) (a : Nat), Memory.wf m = true →
    Memory.wf (Memory.writeMasked m a bs) = true := by
  induction bs with
  | nil => intro m a w; exact w
  | cons b bs ih =>
    obtain ⟨b, on⟩ := b
    intro m a w
    apply ih
    cases on
    · exact w
    · exact Memory.wf_setByte m a b w

theorem Memory.wf_havoc (n : Nat) : ∀ (m : Memory) (a k : Nat), Memory.wf m = true →
    Memory.wf (Memory.havoc m a k n) = true := by
  induction n with
  | zero => intro m a k w; exact w
  | succ n ih => intro m a k w; exact ih _ _ _ (Memory.wf_setByte m a _ w)

/-- A masked write leaves every byte outside its range alone. -/
theorem Memory.byte_writeMasked_outside (bs : List (Byte × Bool)) : ∀ (m : Memory) (a x : Nat),
    (x < a ∨ a + bs.length ≤ x) → Memory.byte (Memory.writeMasked m a bs) x = Memory.byte m x := by
  induction bs with
  | nil => intro m a x _; rfl
  | cons b bs ih =>
    obtain ⟨b, on⟩ := b
    intro m a x h
    simp only [List.length_cons] at h
    simp only [Memory.writeMasked]
    rw [ih _ _ _ (by omega)]
    cases on
    · rfl
    · exact Memory.byte_setByte_ne m b (by omega)

/-- A byte whose mask bit is clear keeps its value. -/
theorem Memory.byte_writeMasked_off (bs : List (Byte × Bool)) : ∀ (m : Memory) (a i : Nat),
    (∀ b, bs[i]? = some b → b.2 = false) → Memory.byte (Memory.writeMasked m a bs) (a + i) = Memory.byte m (a + i) := by
  induction bs with
  | nil => intro m a i _; rfl
  | cons b bs ih =>
    obtain ⟨b, on⟩ := b
    intro m a i h
    simp only [Memory.writeMasked]
    cases i with
    | zero =>
      have : on = false := h (b, on) (by simp)
      subst this
      exact Memory.byte_writeMasked_outside bs _ _ _ (by omega)
    | succ i =>
      have := ih (if on = true then Memory.setByte m a b else m) (a + 1) i (by simpa using h)
      rw [show a + 1 + i = a + (i + 1) by omega] at this
      rw [this]
      cases on
      · rfl
      · exact Memory.byte_setByte_ne m b (by omega)

end Sys2Proof.Machine
end

