-- ==== Sys2Proof/Laws/Core.lean ====
section
/-! SUPPORT. Laws of the operations over cores: what a write of a core, of a register, a count and a retirement change. -/
namespace Sys2Proof.Machine

/-! ## Cores in the state -/

@[simp] theorem State.core_setCore_same (s : State) (c : CoreId) (k : Core) : (s.setCore c k).core c = k :=
  Tab.get_put_same _ _ _ _

theorem State.core_setCore_ne (s : State) {c o : CoreId} (k : Core) (h : o ≠ c) : (s.setCore c k).core o = s.core o :=
  Tab.get_put_ne _ _ _ (fun e => h (BitVec.eq_of_toNat_eq e))

@[simp] theorem State.core_modCore_same (s : State) (c : CoreId) (f : Core → Core) : (s.modCore c f).core c = f (s.core c) :=
  State.core_setCore_same _ _ _

theorem State.core_modCore_ne (s : State) {c o : CoreId} (f : Core → Core) (h : o ≠ c) :
    (s.modCore c f).core o = s.core o := State.core_setCore_ne _ _ h

@[simp] theorem State.mem_setCore (s : State) (c : CoreId) (k : Core) : (s.setCore c k).mem = s.mem := rfl
@[simp] theorem State.mem_modCore (s : State) (c : CoreId) (f : Core → Core) : (s.modCore c f).mem = s.mem := rfl

/-- A write of a core changes the table of cores only. -/
theorem State.setCore_rest (s : State) (c : CoreId) (k : Core) : { s.setCore c k with cores := s.cores } = s := rfl
theorem State.modCore_rest (s : State) (c : CoreId) (f : Core → Core) : { s.modCore c f with cores := s.cores } = s := rfl

/-! ## Registers -/

@[simp] theorem Core.getG_zero (k : Core) : k.getG 0 = 0 := rfl

theorem Core.getG_setG_same (k : Core) (r : Reg) (v : Word) : (k.setG r v).getG r = if r = 0 then 0 else v := by
  by_cases h : r = 0
  · rw [if_pos h, h]
    rfl
  · simp only [Core.getG, Core.setG, if_neg h]
    exact Vector.getElem_set_self _

theorem Core.getG_setG_ne (k : Core) {r x : Reg} (v : Word) (h : x ≠ r) : (k.setG r v).getG x = k.getG x := by
  have ht : r.toNat ≠ x.toNat := fun e => h (BitVec.eq_of_toNat_eq e.symm)
  by_cases hr : r = 0
  · simp only [Core.setG, if_pos hr]
  · by_cases hx : x = 0
    · simp only [Core.getG, if_pos hx]
    · simp only [Core.getG, Core.setG, if_neg hr, if_neg hx]
      exact Vector.getElem_set_ne _ _ ht

theorem Core.getV_setV_same (k : Core) (r : Reg) (v : VWord) : (k.setV r v).getV r = v := by
  simp [Core.getV, Core.setV]

theorem Core.getV_setV_ne (k : Core) {r x : Reg} (v : VWord) (h : x ≠ r) : (k.setV r v).getV x = k.getV x := by
  have : r.toNat ≠ x.toNat := fun e => h (BitVec.eq_of_toNat_eq e.symm)
  simp [Core.getV, Core.setV, Vector.getElem_set_ne, this]

/-- A write of a general register changes the general registers only. -/
theorem Core.setG_rest (k : Core) (r : Reg) (v : Word) : { k.setG r v with g := k.g } = k := by
  unfold Core.setG
  split <;> rfl

theorem Core.setG_eq (k : Core) (r : Reg) (v : Word) : k.setG r v = { k with g := (k.setG r v).g } := by
  unfold Core.setG
  split <;> rfl

@[simp] theorem Core.setG_pc (k : Core) (r : Reg) (v : Word) : (k.setG r v).pc = k.pc := by
  rw [Core.setG_eq]

@[simp] theorem Core.setG_v (k : Core) (r : Reg) (v : Word) : (k.setG r v).v = k.v := by
  rw [Core.setG_eq]

/-! ## Counting and retiring -/

/-- A count changes the counters and the pending interrupts only. -/
theorem Core.count_eq (k : Core) (ev n : Nat) (pc a : Word) :
    k.count ev n pc a = { k with pmu := (k.count ev n pc a).pmu, intPending := (k.count ev n pc a).intPending,
                                 intAddr := (k.count ev n pc a).intAddr } := by
  simp only [Core.count]
  split <;> rfl

theorem Core.retired_eq (k : Core) (pc : Word) :
    k.retired pc = { k with coreProgress := k.coreProgress + 1, pmu := (k.retired pc).pmu,
                            intPending := (k.retired pc).intPending, intAddr := (k.retired pc).intAddr } := by
  simp only [Core.retired]
  rw [Core.count_eq, Core.count_eq]

/-- A retirement moves pc past the instruction, clears the stall and counts the instruction; it changes nothing else. -/
theorem Core.retire_eq (k : Core) :
    k.retire = { k with pc := k.pc + 4, stall := .none, coreProgress := k.coreProgress + 1, pmu := k.retire.pmu,
                        intPending := k.retire.intPending, intAddr := k.retire.intAddr } := by
  simp only [Core.retire]
  rw [Core.retired_eq]

/-! ## Issue -/

/-- Where a core can issue, an instruction has its effect. -/
theorem State.issue_ready (s : State) (c : CoreId) (refs : List RegRef) (f : State → Out) (h : s.canIssue c refs = true) :
    s.issue c refs f = f s := by
  simp only [State.canIssue, State.fetchOk, Option.isNone_iff_eq_none, Bool.and_eq_true, Bool.not_eq_true'] at h
  simp [State.issue, h]

end Sys2Proof.Machine
end

