-- ==== Sys2Proof/Laws/Frames.lean ====
section
/-! SUPPORT. Frames of the shared operations: which of them leave memory as it is, and which the table of cores. -/
namespace Sys2Proof.Machine

set_option Elab.async false

/-- What every step of a fold leaves as it is, the fold leaves as it is. -/
theorem foldl_keep {α β γ : Type} (p : α → γ) (f : α → β → α) (h : ∀ a b, p (f a b) = p a) (l : List β) :
    ∀ a, p (l.foldl f a) = p a := by
  induction l with
  | nil => intro a; rfl
  | cons x l ih => intro a; rw [List.foldl_cons, ih, h]
@[simp] theorem State.mem_ite (c : Prop) [Decidable c] (a b : State) : (if c then a else b).mem = if c then a.mem else b.mem :=
  apply_ite State.mem c a b
@[simp] theorem State.cores_ite (c : Prop) [Decidable c] (a b : State) :
    (if c then a else b).cores = if c then a.cores else b.cores := apply_ite State.cores c a b
@[simp] theorem State.mem_modCores (s : State) (cs : List CoreId) (f : CoreId → Core → Core) : (s.modCores cs f).mem = s.mem := by
  unfold State.modCores
  refine (foldl_keep State.mem _ (fun a b => ?_) _ _).trans ?_ <;> (repeat' split) <;> simp
@[simp] theorem State.mem_setRegion (s : State) (r : Nat) (x : Region) : (s.setRegion r x).mem = s.mem := by
  rfl
@[simp] theorem State.cores_setRegion (s : State) (r : Nat) (x : Region) : (s.setRegion r x).cores = s.cores := by
  rfl
@[simp] theorem State.mem_modRegion (s : State) (r : Nat) (f : Region → Region) : (s.modRegion r f).mem = s.mem := by
  rfl
@[simp] theorem State.cores_modRegion (s : State) (r : Nat) (f : Region → Region) : (s.modRegion r f).cores = s.cores := by
  rfl
@[simp] theorem State.mem_vatRead (s : State) (off len : Nat) : (s.vatRead off len).mem = s.mem := by
  rfl
@[simp] theorem State.cores_vatRead (s : State) (off len : Nat) : (s.vatRead off len).cores = s.cores := by
  rfl
@[simp] theorem State.mem_markGranule (s : State) (off : Nat) (bs : List WByte) (w : Nat) : (s.markGranule off bs w).mem = s.mem := by
  unfold State.markGranule
  dsimp only
  (repeat' split) <;> simp
@[simp] theorem State.cores_markGranule (s : State) (off : Nat) (bs : List WByte) (w : Nat) : (s.markGranule off bs w).cores = s.cores := by
  unfold State.markGranule
  dsimp only
  (repeat' split) <;> simp
@[simp] theorem State.cores_putBytes (s : State) (off : Nat) (bs : List WByte) : (s.putBytes off bs).cores = s.cores := by
  unfold State.putBytes
  refine (foldl_keep State.cores _ (fun a b => ?_) _ _).trans ?_ <;> (repeat' split) <;> simp
@[simp] theorem State.cores_storeBytes (s : State) (off : Nat) (bytes : List (Byte × Bool)) (mark : Bool) : (s.storeBytes off bytes mark).cores = s.cores := by
  unfold State.storeBytes
  refine (foldl_keep State.cores _ (fun a b => ?_) _ _).trans ?_ <;> (repeat' split) <;> simp
@[simp] theorem State.cores_storeAll (s : State) (off : Nat) (bytes : List Byte) (mark : Bool) : (s.storeAll off bytes mark).cores = s.cores := by
  unfold State.storeAll
  simp
@[simp] theorem State.cores_storeMarked (s : State) (off : Nat) (bs : List (Byte × Bool)) : (s.storeMarked off bs).cores = s.cores := by
  unfold State.storeMarked
  refine (foldl_keep State.cores _ (fun a b => ?_) _ _).trans ?_ <;> (repeat' split) <;> simp
@[simp] theorem State.mem_health (s : State) (cls unit cause index object : Nat) (seq : BitVec 32) : (s.health cls unit cause index object seq).mem = s.mem := by
  unfold State.health
  simp
@[simp] theorem State.cores_health (s : State) (cls unit cause index object : Nat) (seq : BitVec 32) : (s.health cls unit cause index object seq).cores = s.cores := by
  unfold State.health
  simp
@[simp] theorem State.mem_notify (s : State) (obj : Nat) : (s.notify obj).mem = s.mem := by
  rfl
@[simp] theorem State.cores_notify (s : State) (obj : Nat) : (s.notify obj).cores = s.cores := by
  rfl
@[simp] theorem State.mem_commitRecord (s : State) (r : FaultRec) : (s.commitRecord r).mem = s.mem := by
  rfl
@[simp] theorem State.cores_commitRecord (s : State) (r : FaultRec) : (s.commitRecord r).cores = s.cores := by
  rfl
@[simp] theorem State.mem_faultRecord (s : State) (i : FaultInfo) : (s.faultRecord i).mem = s.mem := by
  unfold State.faultRecord
  simp
@[simp] theorem State.cores_faultRecord (s : State) (i : FaultInfo) : (s.faultRecord i).cores = s.cores := by
  unfold State.faultRecord
  simp
@[simp] theorem State.mem_closeSlot (s : State) : (s.closeSlot).mem = s.mem := by
  rfl
@[simp] theorem State.cores_closeSlot (s : State) : (s.closeSlot).cores = s.cores := by
  rfl
@[simp] theorem State.mem_jobEnd (s : State) (state cause : Nat) : (s.jobEnd state cause).mem = s.mem := by
  rfl
@[simp] theorem State.cores_jobEnd (s : State) (state cause : Nat) : (s.jobEnd state cause).cores = s.cores := by
  rfl
@[simp] theorem State.mem_abortPerform (s : State) (seq : BitVec 32) : (s.abortPerform seq).mem = s.mem := by
  unfold State.abortPerform
  simp
@[simp] theorem State.mem_abortStart (s : State) (seq : BitVec 32) : (s.abortStart seq).mem = s.mem := by
  unfold State.abortStart
  simp
@[simp] theorem State.mem_obeyCeiling (s : State) (c : CoreId) : (s.obeyCeiling c).mem = s.mem := by
  unfold State.obeyCeiling
  simp
@[simp] theorem State.mem_obeyCeilings (s : State) : (s.obeyCeilings).mem = s.mem := by
  unfold State.obeyCeilings
  refine (foldl_keep State.mem _ (fun a b => ?_) _ _).trans ?_ <;> (repeat' split) <;> simp
@[simp] theorem State.mem_setImage (s : State) (t : Nat) (i : Image) : (s.setImage t i).mem = s.mem := by
  rfl
@[simp] theorem State.cores_setImage (s : State) (t : Nat) (i : Image) : (s.setImage t i).cores = s.cores := by
  rfl
@[simp] theorem State.mem_setPortCounters (s : State) (p : Nat) (u : UnitCounters) : (s.setPortCounters p u).mem = s.mem := by
  rfl
@[simp] theorem State.cores_setPortCounters (s : State) (p : Nat) (u : UnitCounters) : (s.setPortCounters p u).cores = s.cores := by
  rfl
@[simp] theorem State.mem_setHbmCounters (s : State) (n : Nat) (u : UnitCounters) : (s.setHbmCounters n u).mem = s.mem := by
  rfl
@[simp] theorem State.cores_setHbmCounters (s : State) (n : Nat) (u : UnitCounters) : (s.setHbmCounters n u).cores = s.cores := by
  rfl
@[simp] theorem State.mem_countPort (s : State) (p ev : Nat) (lane : Option Nat) (amount : Nat) : (s.countPort p ev lane amount).mem = s.mem := by
  rfl
@[simp] theorem State.cores_countPort (s : State) (p ev : Nat) (lane : Option Nat) (amount : Nat) : (s.countPort p ev lane amount).cores = s.cores := by
  rfl
@[simp] theorem State.mem_countHbm (s : State) (n ev : Nat) (lane : Option Nat) (amount : Nat) : (s.countHbm n ev lane amount).mem = s.mem := by
  rfl
@[simp] theorem State.cores_countHbm (s : State) (n ev : Nat) (lane : Option Nat) (amount : Nat) : (s.countHbm n ev lane amount).cores = s.cores := by
  rfl
@[simp] theorem State.mem_stallAt (s : State) (c : CoreId) (why : Stall) : (s.stallAt c why).mem = s.mem := by
  rfl
@[simp] theorem State.mem_setStack (s : State) (n : Nat) (x : Stack) : (s.setStack n x).mem = s.mem := by
  rfl
@[simp] theorem State.cores_setStack (s : State) (n : Nat) (x : Stack) : (s.setStack n x).cores = s.cores := by
  rfl
@[simp] theorem State.mem_modStack (s : State) (n : Nat) (f : Stack → Stack) : (s.modStack n f).mem = s.mem := by
  rfl
@[simp] theorem State.cores_modStack (s : State) (n : Nat) (f : Stack → Stack) : (s.modStack n f).cores = s.cores := by
  rfl
@[simp] theorem State.mem_hbmDone (s : State) (off ev : Nat) : (s.hbmDone off ev).mem = s.mem := by
  unfold State.hbmDone
  split <;> rfl
@[simp] theorem State.cores_hbmDone (s : State) (off ev : Nat) : (s.hbmDone off ev).cores = s.cores := by
  unfold State.hbmDone
  split <;> rfl
@[simp] theorem State.mem_hbmDiscard (s : State) (off : Nat) : (s.hbmDiscard off).mem = s.mem := by
  unfold State.hbmDiscard
  split <;> rfl
@[simp] theorem State.cores_hbmDiscard (s : State) (off : Nat) : (s.hbmDiscard off).cores = s.cores := by
  unfold State.hbmDiscard
  split <;> rfl
@[simp] theorem State.cores_writeBack (s : State) (n : Nat) (l : CLine) : (s.writeBack n l).cores = s.cores := by
  unfold State.writeBack
  split <;> simp
@[simp] theorem State.mem_writeCnt (s : State) (c : CoreId) (sel : Nat) (v mask : Word) (rt : Bool) : (s.writeCnt c sel v mask rt).mem = s.mem := by
  rfl
@[simp] theorem State.mem_setDie (s : State) (d : Die) (x : DieSt) : (s.setDie d x).mem = s.mem := by
  unfold State.setDie
  split <;> rfl
@[simp] theorem State.cores_setDie (s : State) (d : Die) (x : DieSt) : (s.setDie d x).cores = s.cores := by
  unfold State.setDie
  split <;> rfl
@[simp] theorem State.mem_modDie (s : State) (d : Die) (f : DieSt → DieSt) : (s.modDie d f).mem = s.mem := by
  unfold State.modDie
  simp
@[simp] theorem State.cores_modDie (s : State) (d : Die) (f : DieSt → DieSt) : (s.modDie d f).cores = s.cores := by
  unfold State.modDie
  simp
@[simp] theorem State.mem_setFlow (s : State) (i : Nat) (f : Flow) : (s.setFlow i f).mem = s.mem := by
  rfl
@[simp] theorem State.cores_setFlow (s : State) (i : Nat) (f : Flow) : (s.setFlow i f).cores = s.cores := by
  rfl
@[simp] theorem State.mem_modFlow (s : State) (i : Nat) (f : Flow → Flow) : (s.modFlow i f).mem = s.mem := by
  rfl
@[simp] theorem State.cores_modFlow (s : State) (i : Nat) (f : Flow → Flow) : (s.modFlow i f).cores = s.cores := by
  rfl
@[simp] theorem State.mem_inject (s : State) (d : Die) (p : Packet) : (s.inject d p).mem = s.mem := by
  unfold State.inject
  simp
@[simp] theorem State.cores_inject (s : State) (d : Die) (p : Packet) : (s.inject d p).cores = s.cores := by
  unfold State.inject
  simp
@[simp] theorem State.mem_pumpStream (s : State) (d : Die) (chip : BitVec 16) : (s.pumpStream d chip).mem = s.mem := by
  unfold State.pumpStream
  dsimp only
  (repeat' split) <;> (try simp) <;> (rw [foldl_keep State.mem _ (fun a b => by (repeat' split) <;> simp)]) <;> (try simp)
@[simp] theorem State.cores_pumpStream (s : State) (d : Die) (chip : BitVec 16) : (s.pumpStream d chip).cores = s.cores := by
  unfold State.pumpStream
  dsimp only
  (repeat' split) <;> (try simp) <;> (rw [foldl_keep State.cores _ (fun a b => by (repeat' split) <;> simp)]) <;> (try simp)
@[simp] theorem State.mem_sendUnflowed (s : State) (d : Die) (p : Packet) : (s.sendUnflowed d p).mem = s.mem := by
  unfold State.sendUnflowed
  simp
@[simp] theorem State.cores_sendUnflowed (s : State) (d : Die) (p : Packet) : (s.sendUnflowed d p).cores = s.cores := by
  unfold State.sendUnflowed
  simp
@[simp] theorem State.mem_flowSend (s : State) (i : Nat) (p : Packet) : (s.flowSend i p).mem = s.mem := by
  unfold State.flowSend
  simp
@[simp] theorem State.cores_flowSend (s : State) (i : Nat) (p : Packet) : (s.flowSend i p).cores = s.cores := by
  unfold State.flowSend
  simp
@[simp] theorem State.mem_setCtx (s : State) (n : Nat) (b : Barrier) : (s.setCtx n b).mem = s.mem := by
  rfl
@[simp] theorem State.cores_setCtx (s : State) (n : Nat) (b : Barrier) : (s.setCtx n b).cores = s.cores := by
  rfl
@[simp] theorem State.mem_barrierComplete (s : State) (n : Nat) : (s.barrierComplete n).mem = s.mem := by
  rfl
@[simp] theorem State.cores_barrierComplete (s : State) (n : Nat) : (s.barrierComplete n).cores = s.cores := by
  rfl
@[simp] theorem State.mem_barrierSend (s : State) (kind : PKind) (n : Nat) (gen : BitVec 32) (chips : List (BitVec 16)) : (s.barrierSend kind n gen chips).mem = s.mem := by
  rfl
@[simp] theorem State.cores_barrierSend (s : State) (kind : PKind) (n : Nat) (gen : BitVec 32) (chips : List (BitVec 16)) : (s.barrierSend kind n gen chips).cores = s.cores := by
  rfl
@[simp] theorem State.mem_barrierTurn (s : State) (n : Nat) : (s.barrierTurn n).mem = s.mem := by
  unfold State.barrierTurn
  dsimp only
  (repeat' split) <;> simp
@[simp] theorem State.cores_barrierTurn (s : State) (n : Nat) : (s.barrierTurn n).cores = s.cores := by
  unfold State.barrierTurn
  dsimp only
  (repeat' split) <;> simp
@[simp] theorem State.mem_barrierCheck (s : State) (n : Nat) : (s.barrierCheck n).mem = s.mem := by
  simp [State.barrierCheck]
@[simp] theorem State.cores_barrierCheck (s : State) (n : Nat) : (s.barrierCheck n).cores = s.cores := by
  simp [State.barrierCheck]
@[simp] theorem State.mem_barrierDiscard (s : State) (n : Nat) : (s.barrierDiscard n).mem = s.mem := by
  rfl
@[simp] theorem State.cores_barrierDiscard (s : State) (n : Nat) : (s.barrierDiscard n).cores = s.cores := by
  rfl
@[simp] theorem State.mem_barrierReset (s : State) (n : Nat) : (s.barrierReset n).mem = s.mem := by
  unfold State.barrierReset
  simp
@[simp] theorem State.mem_barrierWrite (s : State) (n off : Nat) (v mask : Word) : (s.barrierWrite n off v mask).mem = s.mem := by
  unfold State.barrierWrite
  simp
@[simp] theorem State.mem_queueFlash (s : State) (i : FlashItem) : (s.queueFlash i).mem = s.mem := by
  unfold State.queueFlash
  split <;> rfl
@[simp] theorem State.cores_queueFlash (s : State) (i : FlashItem) : (s.queueFlash i).cores = s.cores := by
  unfold State.queueFlash
  split <;> rfl
@[simp] theorem State.mem_storeValue (s : State) (index sub : Nat) : (s.storeValue index sub).mem = s.mem := by
  unfold State.storeValue
  simp
@[simp] theorem State.cores_storeValue (s : State) (index sub : Nat) : (s.storeValue index sub).cores = s.cores := by
  unfold State.storeValue
  simp
@[simp] theorem State.mem_setNotice (s : State) (bit : Nat) (on : Bool) : (s.setNotice bit on).mem = s.mem := by
  rfl
@[simp] theorem State.cores_setNotice (s : State) (bit : Nat) (on : Bool) : (s.setNotice bit on).cores = s.cores := by
  rfl
@[simp] theorem State.mem_raiseReason (s : State) (bit : Nat) : (s.raiseReason bit).mem = s.mem := by
  unfold State.raiseReason
  dsimp only
  (repeat' split) <;> simp
@[simp] theorem State.cores_raiseReason (s : State) (bit : Nat) : (s.raiseReason bit).cores = s.cores := by
  unfold State.raiseReason
  dsimp only
  (repeat' split) <;> simp
@[simp] theorem State.mem_standReason (s : State) (bit : Nat) (on : Bool) : (s.standReason bit on).mem = s.mem := by
  rfl
@[simp] theorem State.cores_standReason (s : State) (bit : Nat) (on : Bool) : (s.standReason bit on).cores = s.cores := by
  rfl
@[simp] theorem State.mem_reraise (s : State) : (s.reraise).mem = s.mem := by
  unfold State.reraise
  refine (foldl_keep State.mem _ (fun a b => ?_) _ _).trans ?_ <;> (repeat' split) <;> simp
@[simp] theorem State.cores_reraise (s : State) : (s.reraise).cores = s.cores := by
  unfold State.reraise
  refine (foldl_keep State.cores _ (fun a b => ?_) _ _).trans ?_ <;> (repeat' split) <;> simp
@[simp] theorem State.mem_pendEntry (s : State) (kind : AppKind) (location cause : Nat) : (s.pendEntry kind location cause).mem = s.mem := by
  unfold State.pendEntry
  (repeat' split) <;> simp
@[simp] theorem State.cores_pendEntry (s : State) (kind : AppKind) (location cause : Nat) : (s.pendEntry kind location cause).cores = s.cores := by
  unfold State.pendEntry
  (repeat' split) <;> simp
@[simp] theorem State.mem_evalTier (s : State) : (s.evalTier).mem = s.mem := by
  unfold State.evalTier
  dsimp only
  (repeat' split) <;> simp
@[simp] theorem State.cores_evalTier (s : State) : (s.evalTier).cores = s.cores := by
  unfold State.evalTier
  dsimp only
  (repeat' split) <;> simp
@[simp] theorem State.mem_restoreTier (s : State) : (s.restoreTier).mem = s.mem := by
  unfold State.restoreTier
  simp
@[simp] theorem State.cores_restoreTier (s : State) : (s.restoreTier).cores = s.cores := by
  unfold State.restoreTier
  simp
@[simp] theorem State.mem_wantDump (s : State) (job : Word) : (s.wantDump job).mem = s.mem := by
  rfl
@[simp] theorem State.cores_wantDump (s : State) (job : Word) : (s.wantDump job).cores = s.cores := by
  rfl
@[simp] theorem State.mem_fatal (s : State) (i : FaultInfo) : (s.fatal i).mem = s.mem := by
  unfold State.fatal
  dsimp only
  (repeat' split) <;> simp
@[simp] theorem State.cores_fatal (s : State) (i : FaultInfo) : (s.fatal i).cores = s.cores := by
  unfold State.fatal
  dsimp only
  (repeat' split) <;> simp
@[simp] theorem State.mem_showCaps (s : State) : (s.showCaps).mem = s.mem := by
  unfold State.showCaps
  split <;> rfl
@[simp] theorem State.cores_showCaps (s : State) : (s.showCaps).cores = s.cores := by
  unfold State.showCaps
  split <;> rfl
@[simp] theorem State.mem_showCauses (s : State) : (s.showCauses).mem = s.mem := by
  unfold State.showCauses
  simp
@[simp] theorem State.cores_showCauses (s : State) : (s.showCauses).cores = s.cores := by
  unfold State.showCauses
  simp
@[simp] theorem State.mem_lowerCeilings (s : State) : (s.lowerCeilings).mem = s.mem := by
  rfl
@[simp] theorem State.cores_lowerCeilings (s : State) : (s.lowerCeilings).cores = s.cores := by
  rfl
@[simp] theorem State.mem_fallLowest (s : State) : (s.fallLowest).mem = s.mem := by
  unfold State.fallLowest
  simp
@[simp] theorem State.cores_fallLowest (s : State) : (s.fallLowest).cores = s.cores := by
  unfold State.fallLowest
  simp
@[simp] theorem State.mem_jobPark (s : State) : (s.jobPark).mem = s.mem := by
  unfold State.jobPark
  dsimp only
  (repeat' split) <;> simp
@[simp] theorem State.cores_jobPark (s : State) : (s.jobPark).cores = s.cores := by
  unfold State.jobPark
  dsimp only
  (repeat' split) <;> simp
@[simp] theorem State.mem_park (s : State) : (s.park).mem = s.mem := by
  unfold State.park
  simp
@[simp] theorem State.cores_park (s : State) : (s.park).cores = s.cores := by
  unfold State.park
  simp
@[simp] theorem State.mem_coolPark (s : State) : (s.coolPark).mem = s.mem := by
  unfold State.coolPark
  simp
@[simp] theorem State.cores_coolPark (s : State) : (s.coolPark).cores = s.cores := by
  unfold State.coolPark
  simp
@[simp] theorem State.mem_tileRead (s : State) (c : CoreId) (p : PressCmd) (t : Nat) : (s.tileRead c p t).mem = s.mem := by
  unfold State.tileRead
  refine (foldl_keep State.mem _ (fun a b => ?_) _ _).trans ?_ <;> (repeat' split) <;> simp
@[simp] theorem State.cores_tileRead (s : State) (c : CoreId) (p : PressCmd) (t : Nat) : (s.tileRead c p t).cores = s.cores := by
  unfold State.tileRead
  refine (foldl_keep State.cores _ (fun a b => ?_) _ _).trans ?_ <;> (repeat' split) <;> simp
@[simp] theorem State.cores_writePressLine (s : State) (c : CoreId) (l : PressLine) : (s.writePressLine c l).cores = s.cores := by
  unfold State.writePressLine
  simp
@[simp] theorem State.mem_ackUnflowed (s : State) (chip : BitVec 16) (d : Die) (seq : BitVec 32) : (s.ackUnflowed chip d seq).mem = s.mem := by
  unfold State.ackUnflowed
  simp
@[simp] theorem State.cores_ackUnflowed (s : State) (chip : BitVec 16) (d : Die) (seq : BitVec 32) : (s.ackUnflowed chip d seq).cores = s.cores := by
  unfold State.ackUnflowed
  simp
@[simp] theorem State.mem_dropMsg (s : State) (src : MsgSrc) (m : OutMsg) : (s.dropMsg src m).mem = s.mem := by
  unfold State.dropMsg
  split <;> rfl
@[simp] theorem State.mem_msgDone (s : State) (via : Option Die) (srcChip : BitVec 16) (srcCore : CoreId) (id : Nat) : (s.msgDone via srcChip srcCore id).mem = s.mem := by
  unfold State.msgDone
  (repeat' split) <;> simp
@[simp] theorem State.mem_truncateMsg (s : State) (c : CoreId) (q i : Nat) (m : QMsg) (left : Nat) : (s.truncateMsg c q i m left).mem = s.mem := by
  unfold State.truncateMsg
  (repeat' split) <;> simp
@[simp] theorem State.cores_havoc (s : State) (off n : Nat) : (s.havoc off n).cores = s.cores := by
  rfl
@[simp] theorem State.cores_tornLines (s : State) (c : CoreId) (ls : List PressLine) : (s.tornLines c ls).cores = s.cores := by
  unfold State.tornLines
  refine (foldl_keep State.cores _ (fun a b => ?_) _ _).trans ?_ <;> (repeat' split) <;> simp
@[simp] theorem State.mem_dropSnaps (s : State) (p : HangUnit → Bool) : (s.dropSnaps p).mem = s.mem := by
  rfl
@[simp] theorem State.cores_dropSnaps (s : State) (p : HangUnit → Bool) : (s.dropSnaps p).cores = s.cores := by
  rfl
@[simp] theorem State.mem_setRegionState (s : State) (r code : Nat) : (s.setRegionState r code).mem = s.mem := by
  unfold State.setRegionState
  split <;> rfl
@[simp] theorem State.cores_setRegionState (s : State) (r code : Nat) : (s.setRegionState r code).cores = s.cores := by
  unfold State.setRegionState
  split <;> rfl
@[simp] theorem State.mem_computeUp (s : State) : (s.computeUp).mem = s.mem := by
  rfl
@[simp] theorem State.cores_computeUp (s : State) : (s.computeUp).cores = s.cores := by
  rfl
@[simp] theorem State.mem_computePower (s : State) : (s.computePower).mem = s.mem := by
  unfold State.computePower
  simp
@[simp] theorem State.cores_computePower (s : State) : (s.computePower).cores = s.cores := by
  unfold State.computePower
  simp
@[simp] theorem State.mem_memoryDown (s : State) : (s.memoryDown).mem = s.mem := by
  rfl
@[simp] theorem State.cores_memoryDown (s : State) : (s.memoryDown).cores = s.cores := by
  rfl
@[simp] theorem State.mem_trayWrite (s : State) : (s.trayWrite).mem = s.mem := by
  rfl
@[simp] theorem State.cores_trayWrite (s : State) : (s.trayWrite).cores = s.cores := by
  rfl
@[simp] theorem State.mem_portsDown (s : State) : (s.portsDown).mem = s.mem := by
  unfold State.portsDown
  refine (foldl_keep State.mem _ (fun a b => ?_) _ _).trans ?_ <;> (repeat' split) <;> simp
@[simp] theorem State.cores_portsDown (s : State) : (s.portsDown).cores = s.cores := by
  unfold State.portsDown
  refine (foldl_keep State.cores _ (fun a b => ?_) _ _).trans ?_ <;> (repeat' split) <;> simp
@[simp] theorem State.mem_sitesDown (s : State) : (s.sitesDown).mem = s.mem := by
  unfold State.sitesDown
  dsimp only
  (repeat' split) <;> first | (simp; done) | (refine (foldl_keep State.mem _ (fun a b => ?_) _ _).trans ?_ <;> (repeat' split) <;> simp)
@[simp] theorem State.cores_sitesDown (s : State) : (s.sitesDown).cores = s.cores := by
  unfold State.sitesDown
  dsimp only
  (repeat' split) <;> first | (simp; done) | (refine (foldl_keep State.cores _ (fun a b => ?_) _ _).trans ?_ <;> (repeat' split) <;> simp)
@[simp] theorem State.mem_timeDown (s : State) : (s.timeDown).mem = s.mem := by
  unfold State.timeDown
  simp
@[simp] theorem State.cores_timeDown (s : State) : (s.timeDown).cores = s.cores := by
  unfold State.timeDown
  simp
@[simp] theorem State.mem_transitDown (s : State) : (s.transitDown).mem = s.mem := by
  unfold State.transitDown
  simp
@[simp] theorem State.cores_transitDown (s : State) : (s.transitDown).cores = s.cores := by
  unfold State.transitDown
  simp
@[simp] theorem State.mem_setPort (s : State) (p : Nat) (x : Port) : (s.setPort p x).mem = s.mem := by
  rfl
@[simp] theorem State.cores_setPort (s : State) (p : Nat) (x : Port) : (s.setPort p x).cores = s.cores := by
  rfl
@[simp] theorem State.mem_modPort (s : State) (p : Nat) (f : Port → Port) : (s.modPort p f).mem = s.mem := by
  rfl
@[simp] theorem State.cores_modPort (s : State) (p : Nat) (f : Port → Port) : (s.modPort p f).cores = s.cores := by
  rfl
@[simp] theorem State.mem_setSitePort (s : State) (p : Nat) (x : SitePort) : (s.setSitePort p x).mem = s.mem := by
  unfold State.setSitePort
  dsimp only
  (repeat' split) <;> simp
@[simp] theorem State.cores_setSitePort (s : State) (p : Nat) (x : SitePort) : (s.setSitePort p x).cores = s.cores := by
  unfold State.setSitePort
  dsimp only
  (repeat' split) <;> simp
@[simp] theorem State.mem_modSitePort (s : State) (p : Nat) (f : SitePort → SitePort) : (s.modSitePort p f).mem = s.mem := by
  unfold State.modSitePort
  simp
@[simp] theorem State.cores_modSitePort (s : State) (p : Nat) (f : SitePort → SitePort) : (s.modSitePort p f).cores = s.cores := by
  unfold State.modSitePort
  simp
@[simp] theorem State.mem_moduleRequest (s : State) (p cmd : Nat) : (s.moduleRequest p cmd).mem = s.mem := by
  rfl
@[simp] theorem State.cores_moduleRequest (s : State) (p cmd : Nat) : (s.moduleRequest p cmd).cores = s.cores := by
  rfl
@[simp] theorem State.mem_siteShow (s : State) (p : Nat) : (s.siteShow p).mem = s.mem := by
  unfold State.siteShow
  simp
@[simp] theorem State.cores_siteShow (s : State) (p : Nat) : (s.siteShow p).cores = s.cores := by
  unfold State.siteShow
  simp
@[simp] theorem State.mem_putStores (s : State) (m : BitVec 16) : (s.putStores m).mem = s.mem := by
  unfold State.putStores
  simp
@[simp] theorem State.cores_putStores (s : State) (m : BitVec 16) : (s.putStores m).cores = s.cores := by
  unfold State.putStores
  simp
@[simp] theorem State.mem_powerLanes (s : State) (p : Nat) : (s.powerLanes p).mem = s.mem := by
  rfl
@[simp] theorem State.cores_powerLanes (s : State) (p : Nat) : (s.powerLanes p).cores = s.cores := by
  rfl
@[simp] theorem State.mem_fabricEval (s : State) : (s.fabricEval).mem = s.mem := by
  unfold State.fabricEval
  dsimp only
  (repeat' split) <;> simp
@[simp] theorem State.cores_fabricEval (s : State) : (s.fabricEval).cores = s.cores := by
  unfold State.fabricEval
  dsimp only
  (repeat' split) <;> simp
@[simp] theorem State.mem_portState (s : State) (p st cause : Nat) : (s.portState p st cause).mem = s.mem := by
  unfold State.portState
  dsimp only
  (repeat' split) <;> simp
@[simp] theorem State.cores_portState (s : State) (p st cause : Nat) : (s.portState p st cause).cores = s.cores := by
  unfold State.portState
  dsimp only
  (repeat' split) <;> simp
@[simp] theorem State.mem_setTime (s : State) (t : TimeSt) : (s.setTime t).mem = s.mem := by
  unfold State.setTime
  split <;> rfl
@[simp] theorem State.cores_setTime (s : State) (t : TimeSt) : (s.setTime t).cores = s.cores := by
  unfold State.setTime
  split <;> rfl
@[simp] theorem State.mem_follow (s : State) : (s.follow).mem = s.mem := by
  unfold State.follow
  (repeat' split) <;> simp
@[simp] theorem State.cores_follow (s : State) : (s.follow).cores = s.cores := by
  unfold State.follow
  (repeat' split) <;> simp
@[simp] theorem State.mem_addMoves (s : State) (ms : List SiteMove) : (s.addMoves ms).mem = s.mem := by
  rfl
@[simp] theorem State.cores_addMoves (s : State) (ms : List SiteMove) : (s.addMoves ms).cores = s.cores := by
  rfl
@[simp] theorem State.mem_drainStore (s : State) (p occ n : Nat) : (s.drainStore p occ n).mem = s.mem := by
  unfold State.drainStore
  simp
@[simp] theorem State.cores_drainStore (s : State) (p occ n : Nat) : (s.drainStore p occ n).cores = s.cores := by
  unfold State.drainStore
  simp
@[simp] theorem State.mem_setXoff (s : State) (p : Nat) : (s.setXoff p).mem = s.mem := by
  rfl
@[simp] theorem State.cores_setXoff (s : State) (p : Nat) : (s.setXoff p).cores = s.cores := by
  rfl
@[simp] theorem State.mem_freeAt (s : State) (p l n : Nat) : (s.freeAt p l n).mem = s.mem := by
  unfold State.freeAt
  simp
@[simp] theorem State.cores_freeAt (s : State) (p l n : Nat) : (s.freeAt p l n).cores = s.cores := by
  unfold State.freeAt
  simp
@[simp] theorem State.mem_leaveBuffer (s : State) (e : RoutePkt) : (s.leaveBuffer e).mem = s.mem := by
  unfold State.leaveBuffer
  split
  · rfl
  · split <;> simp
@[simp] theorem State.cores_leaveBuffer (s : State) (e : RoutePkt) : (s.leaveBuffer e).cores = s.cores := by
  unfold State.leaveBuffer
  split
  · rfl
  · split <;> simp
@[simp] theorem State.mem_enterStep (s : State) (n : Nat) : (s.enterStep n).mem = s.mem := by
  rfl
@[simp] theorem State.cores_enterStep (s : State) (n : Nat) : (s.enterStep n).cores = s.cores := by
  rfl
@[simp] theorem State.mem_startCause (s : State) (c : Nat) : (s.startCause c).mem = s.mem := by
  unfold State.startCause
  split <;> rfl
@[simp] theorem State.cores_startCause (s : State) (c : Nat) : (s.startCause c).cores = s.cores := by
  unfold State.startCause
  split <;> rfl
@[simp] theorem State.mem_stopStart (s : State) (c : Nat) : (s.stopStart c).mem = s.mem := by
  rfl
@[simp] theorem State.cores_stopStart (s : State) (c : Nat) : (s.stopStart c).cores = s.cores := by
  rfl
@[simp] theorem State.mem_requestMain (s : State) : (s.requestMain).mem = s.mem := by
  unfold State.requestMain
  (repeat' split) <;> simp
@[simp] theorem State.cores_requestMain (s : State) : (s.requestMain).cores = s.cores := by
  unfold State.requestMain
  (repeat' split) <;> simp
@[simp] theorem State.mem_retryMain (s : State) : (s.retryMain).mem = s.mem := by
  unfold State.retryMain
  (repeat' split) <;> simp
@[simp] theorem State.cores_retryMain (s : State) : (s.retryMain).cores = s.cores := by
  unfold State.retryMain
  (repeat' split) <;> simp
@[simp] theorem State.mem_startMain (s : State) : (s.startMain).mem = s.mem := by
  unfold State.startMain
  simp
@[simp] theorem State.cores_startMain (s : State) : (s.startMain).cores = s.cores := by
  unfold State.startMain
  simp
@[simp] theorem State.mem_restartMain (s : State) : (s.restartMain).mem = s.mem := by
  unfold State.restartMain
  simp
@[simp] theorem State.cores_restartMain (s : State) : (s.restartMain).cores = s.cores := by
  unfold State.restartMain
  simp
@[simp] theorem State.mem_noRequest (s : State) : (s.noRequest).mem = s.mem := by
  rfl
@[simp] theorem State.cores_noRequest (s : State) : (s.noRequest).cores = s.cores := by
  rfl
@[simp] theorem State.mem_stopLost (s : State) : (s.stopLost).mem = s.mem := by
  unfold State.stopLost
  split <;> rfl
@[simp] theorem State.cores_stopLost (s : State) : (s.stopLost).cores = s.cores := by
  unfold State.stopLost
  split <;> rfl
@[simp] theorem State.mem_capChanged (s : State) : (s.capChanged).mem = s.mem := by
  rfl
@[simp] theorem State.cores_capChanged (s : State) : (s.capChanged).cores = s.cores := by
  rfl
@[simp] theorem State.mem_setCapacity (s : State) (c : CoreId) (code : Nat) : (s.setCapacity c code).mem = s.mem := by
  unfold State.setCapacity
  (repeat' split) <;> simp
@[simp] theorem State.cores_setCapacity (s : State) (c : CoreId) (code : Nat) : (s.setCapacity c code).cores = s.cores := by
  unfold State.setCapacity
  (repeat' split) <;> simp
@[simp] theorem State.mem_noteDefect (s : State) (phys : Nat) : (s.noteDefect phys).mem = s.mem := by
  unfold State.noteDefect
  simp
@[simp] theorem State.cores_noteDefect (s : State) (phys : Nat) : (s.noteDefect phys).cores = s.cores := by
  unfold State.noteDefect
  simp
@[simp] theorem State.mem_orderRecord (s : State) (kind rack host result winner : Nat) : (s.orderRecord kind rack host result winner).mem = s.mem := by
  unfold State.orderRecord
  simp
@[simp] theorem State.cores_orderRecord (s : State) (kind rack host result winner : Nat) : (s.orderRecord kind rack host result winner).cores = s.cores := by
  unfold State.orderRecord
  simp
@[simp] theorem State.mem_noLadder (s : State) : (s.noLadder).mem = s.mem := by
  rfl
@[simp] theorem State.cores_noLadder (s : State) : (s.noLadder).cores = s.cores := by
  rfl
@[simp] theorem State.mem_waitRise (s : State) (r : Nat) : (s.waitRise r).mem = s.mem := by
  unfold State.waitRise
  split <;> rfl
@[simp] theorem State.cores_waitRise (s : State) (r : Nat) : (s.waitRise r).cores = s.cores := by
  unfold State.waitRise
  split <;> rfl
@[simp] theorem State.mem_raiseCeiling (s : State) (r : Nat) : (s.raiseCeiling r).mem = s.mem := by
  unfold State.raiseCeiling
  dsimp only
  (repeat' split) <;> simp
@[simp] theorem State.cores_raiseCeiling (s : State) (r : Nat) : (s.raiseCeiling r).cores = s.cores := by
  unfold State.raiseCeiling
  dsimp only
  (repeat' split) <;> simp
@[simp] theorem State.mem_landGrants (s : State) : (s.landGrants).mem = s.mem := by
  unfold State.landGrants
  dsimp only
  (repeat' split) <;> first | (simp; done) | (refine (foldl_keep State.mem _ (fun a b => ?_) _ _).trans ?_ <;> (repeat' split) <;> simp)
@[simp] theorem State.cores_landGrants (s : State) : (s.landGrants).cores = s.cores := by
  unfold State.landGrants
  dsimp only
  (repeat' split) <;> first | (simp; done) | (refine (foldl_keep State.cores _ (fun a b => ?_) _ _).trans ?_ <;> (repeat' split) <;> simp)
@[simp] theorem State.mem_governGrant (s : State) (r : Nat) (settled : Bool) : (s.governGrant r settled).mem = s.mem := by
  unfold State.governGrant
  simp
@[simp] theorem State.cores_governGrant (s : State) (r : Nat) (settled : Bool) : (s.governGrant r settled).cores = s.cores := by
  unfold State.governGrant
  simp
@[simp] theorem State.mem_govern (s : State) (n : Nat) (settled : Bool) : (s.govern n settled).mem = s.mem := by
  unfold State.govern
  simp
@[simp] theorem State.cores_govern (s : State) (n : Nat) (settled : Bool) : (s.govern n settled).cores = s.cores := by
  unfold State.govern
  simp
@[simp] theorem State.mem_gather (s : State) (r : Nat) : (s.gather r).mem = s.mem := by
  unfold State.gather
  dsimp only
  split <;> rfl
@[simp] theorem State.cores_gather (s : State) (r : Nat) : (s.gather r).cores = s.cores := by
  unfold State.gather
  dsimp only
  split <;> rfl
@[simp] theorem State.mem_leaveWait (s : State) (r : Nat) : (s.leaveWait r).mem = s.mem := by
  unfold State.leaveWait
  simp
@[simp] theorem State.cores_leaveWait (s : State) (r : Nat) : (s.leaveWait r).cores = s.cores := by
  unfold State.leaveWait
  simp
@[simp] theorem State.mem_limiterOn (s : State) : (s.limiterOn).mem = s.mem := by
  unfold State.limiterOn
  simp
@[simp] theorem State.mem_limiterStep (s : State) (above : Bool) : (s.limiterStep above).mem = s.mem := by
  unfold State.limiterStep
  simp
@[simp] theorem State.cores_limiterStep (s : State) (above : Bool) : (s.limiterStep above).cores = s.cores := by
  unfold State.limiterStep
  simp
@[simp] theorem State.mem_alertOn (s : State) : (s.alertOn).mem = s.mem := by
  unfold State.alertOn
  simp
@[simp] theorem State.cores_alertOn (s : State) : (s.alertOn).cores = s.cores := by
  unfold State.alertOn
  simp
@[simp] theorem State.mem_alertOff (s : State) : (s.alertOff).mem = s.mem := by
  unfold State.alertOff
  split <;> rfl
@[simp] theorem State.cores_alertOff (s : State) : (s.alertOff).cores = s.cores := by
  unfold State.alertOff
  split <;> rfl
@[simp] theorem State.mem_sendFalls (s : State) (grants : List Nat) : (s.sendFalls grants).mem = s.mem := by
  unfold State.sendFalls
  refine (foldl_keep State.mem _ (fun a b => ?_) _ _).trans ?_ <;> (repeat' split) <;> simp
@[simp] theorem State.cores_sendFalls (s : State) (grants : List Nat) : (s.sendFalls grants).cores = s.cores := by
  unfold State.sendFalls
  refine (foldl_keep State.cores _ (fun a b => ?_) _ _).trans ?_ <;> (repeat' split) <;> simp
@[simp] theorem State.mem_shareReplay (s : State) (d : Die) : (s.shareReplay d).mem = s.mem := by
  unfold State.shareReplay
  refine (foldl_keep State.mem _ (fun a b => ?_) _ _).trans ?_ <;> (repeat' split) <;> simp
@[simp] theorem State.cores_shareReplay (s : State) (d : Die) : (s.shareReplay d).cores = s.cores := by
  unfold State.shareReplay
  refine (foldl_keep State.cores _ (fun a b => ?_) _ _).trans ?_ <;> (repeat' split) <;> simp
@[simp] theorem State.mem_countSent (s : State) (p lane cls n : Nat) : (s.countSent p lane cls n).mem = s.mem := by
  rfl
@[simp] theorem State.cores_countSent (s : State) (p lane cls n : Nat) : (s.countSent p lane cls n).cores = s.cores := by
  rfl
@[simp] theorem State.mem_settleAt (s : State) (n l : Nat) (whole : Option Packet) (m q : Nat) : (s.settleAt n l whole m q).mem = s.mem := by
  unfold State.settleAt
  dsimp only
  split
  · split
    · split <;> simp
    · simp
  · simp
@[simp] theorem State.cores_settleAt (s : State) (n l : Nat) (whole : Option Packet) (m q : Nat) : (s.settleAt n l whole m q).cores = s.cores := by
  unfold State.settleAt
  dsimp only
  split
  · split
    · split <;> simp
    · simp
  · simp
@[simp] theorem State.mem_enterService (s : State) (p cause : Nat) (f : IdFrame) : (s.enterService p cause f).mem = s.mem := by
  unfold State.enterService
  simp
@[simp] theorem State.cores_enterService (s : State) (p cause : Nat) (f : IdFrame) : (s.enterService p cause f).cores = s.cores := by
  unfold State.enterService
  simp
@[simp] theorem State.mem_evaluate (s : State) (p : Nat) (f : IdFrame) : (s.evaluate p f).mem = s.mem := by
  unfold State.evaluate
  dsimp only
  (repeat' split) <;> simp
@[simp] theorem State.cores_evaluate (s : State) (p : Nat) (f : IdFrame) : (s.evaluate p f).cores = s.cores := by
  unfold State.evaluate
  dsimp only
  (repeat' split) <;> simp
@[simp] theorem State.mem_linkGone (s : State) (p : Nat) : (s.linkGone p).mem = s.mem := by
  unfold State.linkGone
  dsimp only
  (repeat' split) <;> first | (simp; done) | (refine (foldl_keep State.mem _ (fun a b => ?_) _ _).trans ?_ <;> (repeat' split) <;> simp)
@[simp] theorem State.cores_linkGone (s : State) (p : Nat) : (s.linkGone p).cores = s.cores := by
  unfold State.linkGone
  dsimp only
  (repeat' split) <;> first | (simp; done) | (refine (foldl_keep State.cores _ (fun a b => ?_) _ _).trans ?_ <;> (repeat' split) <;> simp)
@[simp] theorem State.mem_reloadPlan (s : State) : (s.reloadPlan).mem = s.mem := by
  unfold State.reloadPlan
  (repeat' split) <;> simp
@[simp] theorem State.cores_reloadPlan (s : State) : (s.reloadPlan).cores = s.cores := by
  unfold State.reloadPlan
  (repeat' split) <;> simp
@[simp] theorem State.mem_siteRetrain (s : State) (n cause : Nat) : (s.siteRetrain n cause).mem = s.mem := by
  unfold State.siteRetrain
  simp
@[simp] theorem State.cores_siteRetrain (s : State) (n cause : Nat) : (s.siteRetrain n cause).cores = s.cores := by
  unfold State.siteRetrain
  simp
@[simp] theorem State.mem_markChannel (s : State) (stack ch cause : Nat) : (s.markChannel stack ch cause).mem = s.mem := by
  unfold State.markChannel
  dsimp only
  (repeat' split) <;> simp
@[simp] theorem State.cores_markChannel (s : State) (stack ch cause : Nat) : (s.markChannel stack ch cause).cores = s.cores := by
  unfold State.markChannel
  dsimp only
  (repeat' split) <;> simp
@[simp] theorem State.mem_markRow (s : State) (stack ch row cause : Nat) : (s.markRow stack ch row cause).mem = s.mem := by
  unfold State.markRow
  dsimp only
  (repeat' split) <;> simp
@[simp] theorem State.cores_markRow (s : State) (stack ch row cause : Nat) : (s.markRow stack ch row cause).cores = s.cores := by
  unfold State.markRow
  dsimp only
  (repeat' split) <;> simp
@[simp] theorem State.mem_corrected (s : State) (stack ch addr : Nat) : (s.corrected stack ch addr).mem = s.mem := by
  unfold State.corrected
  dsimp only
  (repeat' split) <;> simp
@[simp] theorem State.cores_corrected (s : State) (stack ch addr : Nat) : (s.corrected stack ch addr).cores = s.cores := by
  unfold State.corrected
  dsimp only
  (repeat' split) <;> simp
@[simp] theorem State.mem_uncorrected (s : State) (stack ch addr : Nat) : (s.uncorrected stack ch addr).mem = s.mem := by
  unfold State.uncorrected
  dsimp only
  (repeat' split) <;> simp
@[simp] theorem State.cores_uncorrected (s : State) (stack ch addr : Nat) : (s.uncorrected stack ch addr).cores = s.cores := by
  unfold State.uncorrected
  dsimp only
  (repeat' split) <;> simp
@[simp] theorem State.cores_readCodeword (s : State) (off err : Nat) : (s.readCodeword off err).cores = s.cores := by
  unfold State.readCodeword
  dsimp only
  (repeat' split) <;> simp
@[simp] theorem State.mem_spareless (s : State) (n : Nat) (r : StackTraining) : (s.spareless n r).mem = s.mem := by
  unfold State.spareless
  split
  · exact foldl_keep State.mem _ (fun a b => by simp) _ _
  · rfl
@[simp] theorem State.cores_spareless (s : State) (n : Nat) (r : StackTraining) : (s.spareless n r).cores = s.cores := by
  unfold State.spareless
  split
  · exact foldl_keep State.cores _ (fun a b => by simp) _ _
  · rfl
@[simp] theorem State.mem_giveStores (s : State) : (s.giveStores).mem = s.mem := by
  unfold State.giveStores
  simp
@[simp] theorem State.cores_giveStores (s : State) : (s.giveStores).cores = s.cores := by
  unfold State.giveStores
  simp
@[simp] theorem State.mem_chooseLayout (s : State) : (s.chooseLayout).mem = s.mem := by
  unfold State.chooseLayout
  dsimp only
  (repeat' split) <;> first | (simp; done) | (refine (foldl_keep State.mem _ (fun a b => ?_) _ _).trans ?_ <;> (repeat' split) <;> simp)
@[simp] theorem State.cores_chooseLayout (s : State) : (s.chooseLayout).cores = s.cores := by
  unfold State.chooseLayout
  dsimp only
  (repeat' split) <;> first | (simp; done) | (refine (foldl_keep State.cores _ (fun a b => ?_) _ _).trans ?_ <;> (repeat' split) <;> simp)
@[simp] theorem State.cores_clearHbm (s : State) : (s.clearHbm).cores = s.cores := by
  rfl
@[simp] theorem State.mem_showTherm (s : State) : (s.showTherm).mem = s.mem := by
  unfold State.showTherm
  dsimp only
  (repeat' split) <;> simp
@[simp] theorem State.cores_showTherm (s : State) : (s.showTherm).cores = s.cores := by
  unfold State.showTherm
  dsimp only
  (repeat' split) <;> simp
@[simp] theorem State.mem_thermHealth (s : State) (index object : Nat) : (s.thermHealth index object).mem = s.mem := by
  unfold State.thermHealth
  simp
@[simp] theorem State.cores_thermHealth (s : State) (index object : Nat) : (s.thermHealth index object).cores = s.cores := by
  unfold State.thermHealth
  simp
@[simp] theorem State.mem_markSensors (s : State) (is : List Nat) (m : Nat) : (s.markSensors is m).mem = s.mem := by
  unfold State.markSensors
  (repeat' split) <;> simp
@[simp] theorem State.cores_markSensors (s : State) (is : List Nat) (m : Nat) : (s.markSensors is m).cores = s.cores := by
  unfold State.markSensors
  (repeat' split) <;> simp
@[simp] theorem State.mem_markSensor (s : State) (i m : Nat) : (s.markSensor i m).mem = s.mem := by
  unfold State.markSensor
  simp
@[simp] theorem State.cores_markSensor (s : State) (i m : Nat) : (s.markSensor i m).cores = s.cores := by
  unfold State.markSensor
  simp
@[simp] theorem State.mem_maskSensor (s : State) (i : Nat) : (s.maskSensor i).mem = s.mem := by
  unfold State.maskSensor
  split <;> rfl
@[simp] theorem State.cores_maskSensor (s : State) (i : Nat) : (s.maskSensor i).cores = s.cores := by
  unfold State.maskSensor
  split <;> rfl
@[simp] theorem State.mem_judgeSensor (s : State) (i : Nat) (r : SensorRead) : (s.judgeSensor i r).mem = s.mem := by
  unfold State.judgeSensor
  simp
@[simp] theorem State.cores_judgeSensor (s : State) (i : Nat) (r : SensorRead) : (s.judgeSensor i r).cores = s.cores := by
  unfold State.judgeSensor
  simp
@[simp] theorem State.mem_judgePair (s : State) (h : Nat) : (s.judgePair h).mem = s.mem := by
  unfold State.judgePair
  simp
@[simp] theorem State.cores_judgePair (s : State) (h : Nat) : (s.judgePair h).cores = s.cores := by
  unfold State.judgePair
  simp
@[simp] theorem State.mem_judgeCold (s : State) (dp : Nat) (w : PowerStep) (i : Nat) : (s.judgeCold dp w i).mem = s.mem := by
  unfold State.judgeCold
  simp
@[simp] theorem State.cores_judgeCold (s : State) (dp : Nat) (w : PowerStep) (i : Nat) : (s.judgeCold dp w i).cores = s.cores := by
  unfold State.judgeCold
  simp
@[simp] theorem State.mem_watchRegion (s : State) (r : Nat) : (s.watchRegion r).mem = s.mem := by
  unfold State.watchRegion
  dsimp only
  (repeat' split) <;> first | (simp; done) | (refine (foldl_keep State.mem _ (fun a b => ?_) _ _).trans ?_ <;> (repeat' split) <;> simp)
@[simp] theorem State.cores_watchRegion (s : State) (r : Nat) : (s.watchRegion r).cores = s.cores := by
  unfold State.watchRegion
  dsimp only
  (repeat' split) <;> first | (simp; done) | (refine (foldl_keep State.cores _ (fun a b => ?_) _ _).trans ?_ <;> (repeat' split) <;> simp)
@[simp] theorem State.mem_judgeHeat (s : State) (free : Int) : (s.judgeHeat free).mem = s.mem := by
  unfold State.judgeHeat
  dsimp only
  (repeat' split) <;> simp
@[simp] theorem State.cores_judgeHeat (s : State) (free : Int) : (s.judgeHeat free).cores = s.cores := by
  unfold State.judgeHeat
  dsimp only
  (repeat' split) <;> simp
@[simp] theorem State.mem_takeAllowance (s : State) : (s.takeAllowance).mem = s.mem := by
  unfold State.takeAllowance
  simp
@[simp] theorem State.cores_takeAllowance (s : State) : (s.takeAllowance).cores = s.cores := by
  unfold State.takeAllowance
  simp
@[simp] theorem State.mem_fastStopOn (s : State) : (s.fastStopOn).mem = s.mem := by
  unfold State.fastStopOn
  (repeat' split) <;> simp
@[simp] theorem State.cores_fastStopOn (s : State) : (s.fastStopOn).cores = s.cores := by
  unfold State.fastStopOn
  (repeat' split) <;> simp
@[simp] theorem State.mem_followTriggers (s : State) : (s.followTriggers).mem = s.mem := by
  unfold State.followTriggers
  simp
@[simp] theorem State.cores_followTriggers (s : State) : (s.followTriggers).cores = s.cores := by
  unfold State.followTriggers
  simp
@[simp] theorem State.mem_coolantReport (s : State) (inlet outlet : Int) (flow : Nat) : (s.coolantReport inlet outlet flow).mem = s.mem := by
  unfold State.coolantReport
  dsimp only
  (repeat' split) <;> simp
@[simp] theorem State.cores_coolantReport (s : State) (inlet outlet : Int) (flow : Nat) : (s.coolantReport inlet outlet flow).cores = s.cores := by
  unfold State.coolantReport
  dsimp only
  (repeat' split) <;> simp
@[simp] theorem State.mem_heatTripOn (s : State) (cause : Nat) : (s.heatTripOn cause).mem = s.mem := by
  unfold State.heatTripOn
  (repeat' split) <;> simp
@[simp] theorem State.cores_heatTripOn (s : State) (cause : Nat) : (s.heatTripOn cause).cores = s.cores := by
  unfold State.heatTripOn
  (repeat' split) <;> simp
@[simp] theorem State.mem_leakEffect (s : State) (c : Nat) : (s.leakEffect c).mem = s.mem := by
  unfold State.leakEffect
  (repeat' split) <;> simp
@[simp] theorem State.cores_leakEffect (s : State) (c : Nat) : (s.leakEffect c).cores = s.cores := by
  unfold State.leakEffect
  (repeat' split) <;> simp
@[simp] theorem State.mem_edgeRequest (s : State) (off : Nat) : (s.edgeRequest off).mem = s.mem := by
  unfold State.edgeRequest
  split <;> rfl
@[simp] theorem State.cores_edgeRequest (s : State) (off : Nat) : (s.edgeRequest off).cores = s.cores := by
  unfold State.edgeRequest
  split <;> rfl
@[simp] theorem State.cores_readCodes (s : State) (ws : List Nat) (first e0 e1 : Nat) : (s.readCodes ws first e0 e1).cores = s.cores := by
  unfold State.readCodes
  refine (foldl_keep State.cores _ (fun a b => ?_) _ _).trans ?_ <;> (repeat' split) <;> simp
@[simp] theorem State.cores_readLine (s : State) (off len e0 e1 : Nat) : (s.readLine off len e0 e1).cores = s.cores := by
  unfold State.readLine
  simp
@[simp] theorem State.cores_mergeCodes (s : State) (off len e0 e1 : Nat) : (s.mergeCodes off len e0 e1).cores = s.cores := by
  unfold State.mergeCodes
  simp
@[simp] theorem State.cores_countLines (s : State) (es : List (Nat × Nat)) : (s.countLines es).cores = s.cores := by
  unfold State.countLines
  refine (foldl_keep State.cores _ (fun a b => ?_) _ _).trans ?_ <;> (repeat' split) <;> simp
@[simp] theorem State.cores_countReads (s : State) (off len : Nat) : (s.countReads off len).cores = s.cores := by
  unfold State.countReads
  refine (foldl_keep State.cores _ (fun a b => ?_) _ _).trans ?_ <;> (repeat' split) <;> simp
@[simp] theorem State.cores_storeHome (s : State) (off : Nat) (bs : List (Byte × Bool)) : (s.storeHome off bs).cores = s.cores := by
  unfold State.storeHome
  refine (foldl_keep State.cores _ (fun a b => ?_) _ _).trans ?_ <;> (repeat' split) <;> simp
@[simp] theorem State.cores_landBytes (s : State) (line rel : Nat) (bs : List (Byte × Bool)) (mask : BitVec 64) : (s.landBytes line rel bs mask).cores = s.cores := by
  unfold State.landBytes
  simp
@[simp] theorem State.cores_runMove (s : State) (m : SiteMove) : (s.runMove m).cores = s.cores := by
  unfold State.runMove
  (repeat' split) <;> simp
@[simp] theorem State.cores_runMoves (s : State) (d : Die) : (s.runMoves d).cores = s.cores := by
  unfold State.runMoves
  simp only [State.cores_modDie]
  exact foldl_keep State.cores _ (fun a b => by simp) _ _
theorem State.cores_readLines {β : Type} (f g : β → Nat) (l : List β) (s : State) :
    (l.foldl (fun (s : State) e => ((s.edgeRequest (f e)).countReads (f e) 64).countReads (g e) 8) s).cores = s.cores := by
  induction l generalizing s with
  | nil => rfl
  | cons x l ih => rw [List.foldl_cons, ih, State.cores_countReads, State.cores_countReads, State.cores_edgeRequest]
@[simp] theorem State.cores_readCave (s : State) (p : Nat) (t : TxPkt) : (s.readCave p t).cores = s.cores := by
  unfold State.readCave
  exact State.cores_readLines (fun (e : Nat × Nat) => (s.sitePort p).caveLine e.2) (fun e => (s.sitePort p).caveTag e.2) _ s
@[simp] theorem State.cores_caveReplay (s : State) (p : Nat) (l : LinkCtl) : (s.caveReplay p l).cores = s.cores := by
  unfold State.caveReplay
  simp only [State.cores_modSitePort, State.cores_modPort]
  rw [foldl_keep State.cores _ (fun a b => by simp only [State.cores_readCave])]
  simp only [State.cores_runMoves]
@[simp] theorem State.mem_noteStore (s : State) (p bytes : Nat) : (s.noteStore p bytes).mem = s.mem := by
  unfold State.noteStore
  dsimp only
  (repeat' split) <;> simp
@[simp] theorem State.cores_noteStore (s : State) (p bytes : Nat) : (s.noteStore p bytes).cores = s.cores := by
  unfold State.noteStore
  dsimp only
  (repeat' split) <;> simp
@[simp] theorem State.mem_violation (s : State) (p l : Nat) : (s.violation p l).mem = s.mem := by
  unfold State.violation
  simp
@[simp] theorem State.cores_violation (s : State) (p l : Nat) : (s.violation p l).cores = s.cores := by
  unfold State.violation
  simp
@[simp] theorem State.mem_creditWaits (s : State) (p : Nat) : (s.creditWaits p).mem = s.mem := by
  unfold State.creditWaits
  refine (foldl_keep State.mem _ (fun a b => ?_) _ _).trans ?_ <;> (repeat' split) <;> simp
@[simp] theorem State.cores_creditWaits (s : State) (p : Nat) : (s.creditWaits p).cores = s.cores := by
  unfold State.creditWaits
  refine (foldl_keep State.cores _ (fun a b => ?_) _ _).trans ?_ <;> (repeat' split) <;> simp
@[simp] theorem State.mem_countMisses (s : State) (p : Nat) : (s.countMisses p).mem = s.mem := by
  rfl
@[simp] theorem State.cores_countMisses (s : State) (p : Nat) : (s.countMisses p).cores = s.cores := by
  rfl
@[simp] theorem State.mem_refill (s : State) (p : Nat) (d : Die) : (s.refill p d).mem = s.mem := by
  rfl
@[simp] theorem State.cores_refill (s : State) (p : Nat) (d : Die) : (s.refill p d).cores = s.cores := by
  rfl
@[simp] theorem State.mem_noteQueued (s : State) (p : Nat) : (s.noteQueued p).mem = s.mem := by
  rfl
@[simp] theorem State.cores_noteQueued (s : State) (p : Nat) : (s.noteQueued p).cores = s.cores := by
  rfl
@[simp] theorem State.mem_releaseHeldN (s : State) (p : Nat) (d : Die) (n : Nat) : (s.releaseHeldN p d n).mem = s.mem := by
  induction n generalizing s with
  | zero => rfl
  | succ n ih =>
    unfold State.releaseHeldN
    dsimp only
    split
    · rfl
    · split
      · rfl
      · rw [ih]; simp
@[simp] theorem State.cores_releaseHeldN (s : State) (p : Nat) (d : Die) (n : Nat) : (s.releaseHeldN p d n).cores = s.cores := by
  induction n generalizing s with
  | zero => rfl
  | succ n ih =>
    unfold State.releaseHeldN
    dsimp only
    split
    · rfl
    · split
      · rfl
      · rw [ih]; simp
@[simp] theorem State.mem_releaseHeld (s : State) (p : Nat) : (s.releaseHeld p).mem = s.mem := by
  simp [State.releaseHeld]
@[simp] theorem State.cores_releaseHeld (s : State) (p : Nat) : (s.releaseHeld p).cores = s.cores := by
  simp [State.releaseHeld]
@[simp] theorem State.mem_enqueue (s : State) (p : Nat) (e : PortPkt) : (s.enqueue p e).mem = s.mem := by
  unfold State.enqueue
  simp
@[simp] theorem State.cores_enqueue (s : State) (p : Nat) (e : PortPkt) : (s.enqueue p e).cores = s.cores := by
  unfold State.enqueue
  simp
@[simp] theorem State.mem_ladleRead (s : State) (d : LadleDesc) (src : Word) (len : Nat) : (s.ladleRead d src len).mem = s.mem := by
  unfold State.ladleRead
  simp
@[simp] theorem State.cores_ladleRead (s : State) (d : LadleDesc) (src : Word) (len : Nat) : (s.ladleRead d src len).cores = s.cores := by
  unfold State.ladleRead
  simp
@[simp] theorem State.mem_ladleSettle (s : State) (c : CoreId) (sub : BitVec 16) : (s.ladleSettle c sub).mem = s.mem := by
  unfold State.ladleSettle
  dsimp only
  (repeat' split) <;> first | (simp; done) | (refine (foldl_keep State.mem _ (fun a b => ?_) _ _).trans ?_ <;> (repeat' split) <;> simp)
@[simp] theorem State.mem_sendTallyWrite (s : State) (c : CoreId) (r : LadleRun) (e : LadleEnt) (chip : BitVec 16) : (s.sendTallyWrite c r e chip).mem = s.mem := by
  unfold State.sendTallyWrite
  simp
@[simp] theorem State.mem_stopUsers (s : State) (i code : Nat) (seq : Option (BitVec 32)) : (s.stopUsers i code seq).mem = s.mem := by
  unfold State.stopUsers
  refine (foldl_keep State.mem _ (fun a b => ?_) _ _).trans ?_ <;> (repeat' split) <;> simp
@[simp] theorem State.mem_dropUnreachable (s : State) (d : Die) (hops : Bool) : (s.dropUnreachable d hops).mem = s.mem := by
  unfold State.dropUnreachable
  simp
@[simp] theorem State.cores_dropUnreachable (s : State) (d : Die) (hops : Bool) : (s.dropUnreachable d hops).cores = s.cores := by
  unfold State.dropUnreachable
  simp
@[simp] theorem State.mem_refuseBack (s : State) (d : Die) (k : Packet) : (s.refuseBack d k).mem = s.mem := by
  unfold State.refuseBack
  simp
@[simp] theorem State.cores_refuseBack (s : State) (d : Die) (k : Packet) : (s.refuseBack d k).cores = s.cores := by
  unfold State.refuseBack
  simp
@[simp] theorem State.mem_routeTo (s : State) (d : Die) (e : RoutePkt) (p : Nat) (nonmin off : Bool) : (s.routeTo d e p nonmin off).mem = s.mem := by
  unfold State.routeTo
  simp
@[simp] theorem State.cores_routeTo (s : State) (d : Die) (e : RoutePkt) (p : Nat) (nonmin off : Bool) : (s.routeTo d e p nonmin off).cores = s.cores := by
  unfold State.routeTo
  simp
@[simp] theorem State.mem_claim (s : State) (k : Packet) : (s.claim k).mem = s.mem := by
  unfold State.claim
  split <;> simp
@[simp] theorem State.cores_claim (s : State) (k : Packet) : (s.claim k).cores = s.cores := by
  unfold State.claim
  split <;> simp
@[simp] theorem State.mem_dropEarly (s : State) (k : Packet) : (s.dropEarly k).mem = s.mem := by
  unfold State.dropEarly
  simp
@[simp] theorem State.cores_dropEarly (s : State) (k : Packet) : (s.dropEarly k).cores = s.cores := by
  unfold State.dropEarly
  simp
@[simp] theorem State.mem_setEarly (s : State) (x : EarlyPkt) : (s.setEarly x).mem = s.mem := by
  unfold State.setEarly
  simp
@[simp] theorem State.cores_setEarly (s : State) (x : EarlyPkt) : (s.setEarly x).cores = s.cores := by
  unfold State.setEarly
  simp
@[simp] theorem State.mem_sendAck (s : State) (i : Nat) : (s.sendAck i).mem = s.mem := by
  unfold State.sendAck
  simp
@[simp] theorem State.cores_sendAck (s : State) (i : Nat) : (s.sendAck i).cores = s.cores := by
  unfold State.sendAck
  simp
@[simp] theorem State.mem_performed (s : State) (i : Nat) (k : Packet) : (s.performed i k).mem = s.mem := by
  unfold State.performed
  dsimp only
  (repeat' split) <;> simp
@[simp] theorem State.cores_performed (s : State) (i : Nat) (k : Packet) : (s.performed i k).cores = s.cores := by
  unfold State.performed
  dsimp only
  (repeat' split) <;> simp
@[simp] theorem State.mem_countArrival (s : State) (i : Nat) (seq : BitVec 32) : (s.countArrival i seq).mem = s.mem := by
  rfl
@[simp] theorem State.cores_countArrival (s : State) (i : Nat) (seq : BitVec 32) : (s.countArrival i seq).cores = s.cores := by
  rfl
@[simp] theorem State.mem_flowDiscard (s : State) (i : Nat) : (s.flowDiscard i).mem = s.mem := by
  rfl
@[simp] theorem State.cores_flowDiscard (s : State) (i : Nat) : (s.flowDiscard i).cores = s.cores := by
  rfl
@[simp] theorem State.mem_moveAck (s : State) (i : Nat) : (s.moveAck i).mem = s.mem := by
  rfl
@[simp] theorem State.mem_readDone (s : State) (i : Nat) (seq : BitVec 32) : (s.readDone i seq).mem = s.mem := by
  unfold State.readDone
  simp
@[simp] theorem State.mem_goOffSched (s : State) (i : Nat) : (s.goOffSched i).mem = s.mem := by
  unfold State.goOffSched
  dsimp only
  split <;> rfl
@[simp] theorem State.mem_ackFlow (s : State) (i : Nat) (k : Packet) : (s.ackFlow i k).mem = s.mem := by
  unfold State.ackFlow
  simp
@[simp] theorem State.mem_ackStream (s : State) (k : Packet) : (s.ackStream k).mem = s.mem := by
  unfold State.ackStream
  simp
@[simp] theorem State.cores_ackStream (s : State) (k : Packet) : (s.ackStream k).cores = s.cores := by
  unfold State.ackStream
  simp
@[simp] theorem State.mem_tallyRefused (s : State) (i : Nat) (seq : BitVec 32) : (s.tallyRefused i seq).mem = s.mem := by
  rfl
@[simp] theorem State.cores_tallyRefused (s : State) (i : Nat) (seq : BitVec 32) : (s.tallyRefused i seq).cores = s.cores := by
  rfl
@[simp] theorem State.mem_setRxStream (s : State) (d : Die) (r : RxStream) : (s.setRxStream d r).mem = s.mem := by
  unfold State.setRxStream
  simp
@[simp] theorem State.cores_setRxStream (s : State) (d : Die) (r : RxStream) : (s.setRxStream d r).cores = s.cores := by
  unfold State.setRxStream
  simp
@[simp] theorem State.mem_abortIn (s : State) (k : Packet) : (s.abortIn k).mem = s.mem := by
  unfold State.abortIn
  simp
@[simp] theorem State.mem_modSlot (s : State) (t n : Nat) (f : Slot → Slot) : (s.modSlot t n f).mem = s.mem := by
  rfl
@[simp] theorem State.cores_modSlot (s : State) (t n : Nat) (f : Slot → Slot) : (s.modSlot t n f).cores = s.cores := by
  rfl
@[simp] theorem State.mem_storeBlock (s : State) (t n i : Nat) (bs : List Byte) : (s.storeBlock t n i bs).mem = s.mem := by
  rfl
@[simp] theorem State.cores_storeBlock (s : State) (t n i : Nat) (bs : List Byte) : (s.storeBlock t n i bs).cores = s.cores := by
  rfl
@[simp] theorem State.mem_toNeighbour (s : State) (p : Nat) (kind : PKind) (args : List Word) (data : List Byte) : (s.toNeighbour p kind args data).mem = s.mem := by
  unfold State.toNeighbour
  simp
@[simp] theorem State.cores_toNeighbour (s : State) (p : Nat) (kind : PKind) (args : List Word) (data : List Byte) : (s.toNeighbour p kind args data).cores = s.cores := by
  unfold State.toNeighbour
  simp
@[simp] theorem State.mem_askBlock (s : State) (t i : Nat) (id : List Byte) (src : Nat) : (s.askBlock t i id src).mem = s.mem := by
  unfold State.askBlock
  (repeat' split) <;> simp
@[simp] theorem State.cores_askBlock (s : State) (t i : Nat) (id : List Byte) (src : Nat) : (s.askBlock t i id src).cores = s.cores := by
  unfold State.askBlock
  (repeat' split) <;> simp
@[simp] theorem State.mem_setUpdate (s : State) (u : UpdateSt) : (s.setUpdate u).mem = s.mem := by
  rfl
@[simp] theorem State.cores_setUpdate (s : State) (u : UpdateSt) : (s.setUpdate u).cores = s.cores := by
  rfl
@[simp] theorem State.mem_update (s : State) (u : UpdateSt) : (s.update u).mem = s.mem := by
  unfold State.update
  split <;> rfl
@[simp] theorem State.cores_update (s : State) (u : UpdateSt) : (s.update u).cores = s.cores := by
  unfold State.update
  split <;> rfl
@[simp] theorem State.mem_askNext (s : State) : (s.askNext).mem = s.mem := by
  unfold State.askNext
  dsimp only
  (repeat' split) <;> simp
@[simp] theorem State.cores_askNext (s : State) : (s.askNext).cores = s.cores := by
  unfold State.askNext
  dsimp only
  (repeat' split) <;> simp
@[simp] theorem State.mem_passOver (s : State) (status : Nat) : (s.passOver status).mem = s.mem := by
  unfold State.passOver
  dsimp only
  (repeat' split) <;> simp
@[simp] theorem State.cores_passOver (s : State) (status : Nat) : (s.passOver status).cores = s.cores := by
  unfold State.passOver
  dsimp only
  (repeat' split) <;> simp
@[simp] theorem State.mem_endSession (s : State) (code : Nat) : (s.endSession code).mem = s.mem := by
  unfold State.endSession
  simp
@[simp] theorem State.cores_endSession (s : State) (code : Nat) : (s.endSession code).cores = s.cores := by
  unfold State.endSession
  simp
@[simp] theorem State.mem_gateSession (s : State) : (s.gateSession).mem = s.mem := by
  unfold State.gateSession
  simp
@[simp] theorem State.cores_gateSession (s : State) : (s.gateSession).cores = s.cores := by
  unfold State.gateSession
  simp
@[simp] theorem State.mem_standbyStarts (s : State) : (s.standbyStarts).mem = s.mem := by
  rfl
@[simp] theorem State.cores_standbyStarts (s : State) : (s.standbyStarts).cores = s.cores := by
  rfl
@[simp] theorem State.mem_takeDescriptor (s : State) (d : List Byte) : (s.takeDescriptor d).mem = s.mem := by
  unfold State.takeDescriptor
  simp
@[simp] theorem State.cores_takeDescriptor (s : State) (d : List Byte) : (s.takeDescriptor d).cores = s.cores := by
  unfold State.takeDescriptor
  simp
@[simp] theorem State.mem_tearErase (s : State) : (s.tearErase).mem = s.mem := by
  unfold State.tearErase
  simp
@[simp] theorem State.cores_tearErase (s : State) : (s.tearErase).cores = s.cores := by
  unfold State.tearErase
  simp
@[simp] theorem State.mem_finishTransfer (s : State) : (s.finishTransfer).mem = s.mem := by
  unfold State.finishTransfer
  dsimp only
  (repeat' split) <;> simp
@[simp] theorem State.cores_finishTransfer (s : State) : (s.finishTransfer).cores = s.cores := by
  unfold State.finishTransfer
  dsimp only
  (repeat' split) <;> simp
@[simp] theorem State.mem_takeBlock (s : State) (i : Nat) (bs : List Byte) : (s.takeBlock i bs).mem = s.mem := by
  unfold State.takeBlock
  simp
@[simp] theorem State.cores_takeBlock (s : State) (i : Nat) (bs : List Byte) : (s.takeBlock i bs).cores = s.cores := by
  unfold State.takeBlock
  simp
@[simp] theorem State.mem_askRepair (s : State) (src : Nat) : (s.askRepair src).mem = s.mem := by
  unfold State.askRepair
  dsimp only
  (repeat' split) <;> simp
@[simp] theorem State.cores_askRepair (s : State) (src : Nat) : (s.askRepair src).cores = s.cores := by
  unfold State.askRepair
  dsimp only
  (repeat' split) <;> simp
@[simp] theorem State.mem_endRepair (s : State) (t : Nat) : (s.endRepair t).mem = s.mem := by
  unfold State.endRepair
  simp
@[simp] theorem State.cores_endRepair (s : State) (t : Nat) : (s.endRepair t).cores = s.cores := by
  unfold State.endRepair
  simp
@[simp] theorem State.mem_takeRepair (s : State) (t i : Nat) (bs : List Byte) : (s.takeRepair t i bs).mem = s.mem := by
  unfold State.takeRepair
  simp
@[simp] theorem State.cores_takeRepair (s : State) (t i : Nat) (bs : List Byte) : (s.takeRepair t i bs).cores = s.cores := by
  unfold State.takeRepair
  simp
@[simp] theorem State.mem_blockArrives (s : State) (b : ImageBlock) : (s.blockArrives b).mem = s.mem := by
  unfold State.blockArrives
  dsimp only
  (repeat' split) <;> simp
@[simp] theorem State.cores_blockArrives (s : State) (b : ImageBlock) : (s.blockArrives b).cores = s.cores := by
  unfold State.blockArrives
  dsimp only
  (repeat' split) <;> simp
@[simp] theorem State.mem_seePiece (s : State) (b : ImageBlock) : (s.seePiece b).mem = s.mem := by
  unfold State.seePiece
  simp
@[simp] theorem State.cores_seePiece (s : State) (b : ImageBlock) : (s.seePiece b).cores = s.cores := by
  unfold State.seePiece
  simp
@[simp] theorem State.mem_newLockNonce (s : State) : (s.newLockNonce).mem = s.mem := by
  rfl
@[simp] theorem State.cores_newLockNonce (s : State) : (s.newLockNonce).cores = s.cores := by
  rfl
@[simp] theorem State.mem_program (s : State) (i : FlashItem) : (s.program i).mem = s.mem := by
  rfl
@[simp] theorem State.cores_program (s : State) (i : FlashItem) : (s.program i).cores = s.cores := by
  rfl
@[simp] theorem State.mem_recallPlan (s : State) : (s.recallPlan).mem = s.mem := by
  rfl
@[simp] theorem State.cores_recallPlan (s : State) : (s.recallPlan).cores = s.cores := by
  rfl
@[simp] theorem State.mem_recallSwaps (s : State) (l : List (Nat × Nat)) : (s.recallSwaps l).mem = s.mem := by
  unfold State.recallSwaps
  refine (foldl_keep State.mem _ (fun a b => ?_) _ _).trans ?_ <;> (repeat' split) <;> simp
@[simp] theorem State.cores_recallSwaps (s : State) (l : List (Nat × Nat)) : (s.recallSwaps l).cores = s.cores := by
  unfold State.recallSwaps
  refine (foldl_keep State.cores _ (fun a b => ?_) _ _).trans ?_ <;> (repeat' split) <;> simp
@[simp] theorem State.mem_recallValue (s : State) (index sub : Nat) : (s.recallValue index sub).mem = s.mem := by
  unfold State.recallValue
  (repeat' split) <;> simp
@[simp] theorem State.cores_recallValue (s : State) (index sub : Nat) : (s.recallValue index sub).cores = s.cores := by
  unfold State.recallValue
  (repeat' split) <;> simp
@[simp] theorem State.mem_refreshLeds (s : State) : (s.refreshLeds).mem = s.mem := by
  rfl
@[simp] theorem State.cores_refreshLeds (s : State) : (s.refreshLeds).cores = s.cores := by
  rfl
@[simp] theorem State.mem_releaseMain (s : State) : (s.releaseMain).mem = s.mem := by
  unfold State.releaseMain
  simp
@[simp] theorem State.cores_releaseMain (s : State) : (s.releaseMain).cores = s.cores := by
  unfold State.releaseMain
  simp
@[simp] theorem State.mem_appendEntry (s : State) : (s.appendEntry).mem = s.mem := by
  unfold State.appendEntry
  dsimp only
  (repeat' split) <;> simp
@[simp] theorem State.cores_appendEntry (s : State) : (s.appendEntry).cores = s.cores := by
  unfold State.appendEntry
  dsimp only
  (repeat' split) <;> simp
@[simp] theorem State.mem_mgmtDown (s : State) (p : MgmtPort) : (s.mgmtDown p).mem = s.mem := by
  rfl
@[simp] theorem State.cores_mgmtDown (s : State) (p : MgmtPort) : (s.mgmtDown p).cores = s.cores := by
  rfl
@[simp] theorem State.mem_setRef (s : State) (k : RefClk) (on : Bool) : (s.setRef k on).mem = s.mem := by
  unfold State.setRef
  split <;> rfl
@[simp] theorem State.cores_setRef (s : State) (k : RefClk) (on : Bool) : (s.setRef k on).cores = s.cores := by
  unfold State.setRef
  split <;> rfl
@[simp] theorem State.mem_clockFault (s : State) (cause : Nat) : (s.clockFault cause).mem = s.mem := by
  unfold State.clockFault
  dsimp only
  (repeat' split) <;> simp
@[simp] theorem State.cores_clockFault (s : State) (cause : Nat) : (s.clockFault cause).cores = s.cores := by
  unfold State.clockFault
  dsimp only
  (repeat' split) <;> simp
@[simp] theorem State.mem_releaseIfHeld (s : State) : (s.releaseIfHeld).mem = s.mem := by
  unfold State.releaseIfHeld
  (repeat' split) <;> simp
@[simp] theorem State.cores_releaseIfHeld (s : State) : (s.releaseIfHeld).cores = s.cores := by
  unfold State.releaseIfHeld
  (repeat' split) <;> simp
@[simp] theorem State.mem_readCoolant (s : State) (t : TrayRegs) : (s.readCoolant t).mem = s.mem := by
  unfold State.readCoolant
  dsimp only
  (repeat' split) <;> simp
@[simp] theorem State.cores_readCoolant (s : State) (t : TrayRegs) : (s.readCoolant t).cores = s.cores := by
  unfold State.readCoolant
  dsimp only
  (repeat' split) <;> simp
@[simp] theorem State.mem_readStage (s : State) (t : TrayRegs) : (s.readStage t).mem = s.mem := by
  rfl
@[simp] theorem State.cores_readStage (s : State) (t : TrayRegs) : (s.readStage t).cores = s.cores := by
  rfl
@[simp] theorem State.mem_readAck (s : State) (t : TrayRegs) : (s.readAck t).mem = s.mem := by
  rfl
@[simp] theorem State.cores_readAck (s : State) (t : TrayRegs) : (s.readAck t).cores = s.cores := by
  rfl
@[simp] theorem State.mem_readPiece (s : State) (t : TrayRegs) : (s.readPiece t).mem = s.mem := by
  rfl
@[simp] theorem State.cores_readPiece (s : State) (t : TrayRegs) : (s.readPiece t).cores = s.cores := by
  rfl
@[simp] theorem State.mem_setDasa (s : State) : (s.setDasa).mem = s.mem := by
  rfl
@[simp] theorem State.cores_setDasa (s : State) : (s.setDasa).cores = s.cores := by
  rfl
@[simp] theorem State.mem_readFormat (s : State) (t : TrayRegs) : (s.readFormat t).mem = s.mem := by
  rfl
@[simp] theorem State.cores_readFormat (s : State) (t : TrayRegs) : (s.readFormat t).cores = s.cores := by
  rfl
@[simp] theorem State.mem_slew (s : State) (off : Int) : (s.slew off).mem = s.mem := by
  unfold State.slew
  dsimp only
  (repeat' split) <;> simp
@[simp] theorem State.cores_slew (s : State) (off : Int) : (s.slew off).cores = s.cores := by
  unfold State.slew
  dsimp only
  (repeat' split) <;> simp
@[simp] theorem State.mem_checkAsym (s : State) (p : Nat) (peer : Int) : (s.checkAsym p peer).mem = s.mem := by
  unfold State.checkAsym
  (repeat' split) <;> simp
@[simp] theorem State.cores_checkAsym (s : State) (p : Nat) (peer : Int) : (s.checkAsym p peer).cores = s.cores := by
  unfold State.checkAsym
  (repeat' split) <;> simp
@[simp] theorem State.mem_timeStart (s : State) : (s.timeStart).mem = s.mem := by
  unfold State.timeStart
  (repeat' split) <;> simp
@[simp] theorem State.cores_timeStart (s : State) : (s.timeStart).cores = s.cores := by
  unfold State.timeStart
  (repeat' split) <;> simp
@[simp] theorem State.mem_ordersAfterAux (s : State) : (s.ordersAfterAux).mem = s.mem := by
  unfold State.ordersAfterAux
  simp
@[simp] theorem State.cores_ordersAfterAux (s : State) : (s.ordersAfterAux).cores = s.cores := by
  unfold State.ordersAfterAux
  simp
@[simp] theorem State.mem_linesHeld (s : State) : (s.linesHeld).mem = s.mem := by
  unfold State.linesHeld
  simp
@[simp] theorem State.cores_linesHeld (s : State) : (s.linesHeld).cores = s.cores := by
  unfold State.linesHeld
  simp
@[simp] theorem State.mem_checkClocks (s : State) : (s.checkClocks).mem = s.mem := by
  unfold State.checkClocks
  simp
@[simp] theorem State.cores_checkClocks (s : State) : (s.checkClocks).cores = s.cores := by
  unfold State.checkClocks
  simp
@[simp] theorem State.mem_setStageResult (s : State) (r : Nat) : (s.setStageResult r).mem = s.mem := by
  rfl
@[simp] theorem State.cores_setStageResult (s : State) (r : Nat) : (s.setStageResult r).cores = s.cores := by
  rfl
@[simp] theorem State.mem_renewRecord (s : State) (body : List Byte) : (s.renewRecord body).mem = s.mem := by
  rfl
@[simp] theorem State.cores_renewRecord (s : State) (body : List Byte) : (s.renewRecord body).cores = s.cores := by
  rfl
@[simp] theorem State.mem_activate (s : State) (t : Nat) : (s.activate t).mem = s.mem := by
  unfold State.activate
  simp
@[simp] theorem State.cores_activate (s : State) (t : Nat) : (s.activate t).cores = s.cores := by
  unfold State.activate
  simp
@[simp] theorem State.mem_decideStaged (s : State) : (s.decideStaged).mem = s.mem := by
  unfold State.decideStaged
  dsimp only
  (repeat' split) <;> first | (simp; done) | (refine (foldl_keep State.mem _ (fun a b => ?_) _ _).trans ?_ <;> (repeat' split) <;> simp)
@[simp] theorem State.cores_decideStaged (s : State) : (s.decideStaged).cores = s.cores := by
  unfold State.decideStaged
  dsimp only
  (repeat' split) <;> first | (simp; done) | (refine (foldl_keep State.cores _ (fun a b => ?_) _ _).trans ?_ <;> (repeat' split) <;> simp)
@[simp] theorem State.mem_imagesBad (s : State) (bad : List Nat) : (s.imagesBad bad).mem = s.mem := by
  unfold State.imagesBad
  dsimp only
  (repeat' split) <;> (try simp) <;> (rw [foldl_keep State.mem _ (fun a b => by (repeat' split) <;> simp)]) <;> (try simp)
@[simp] theorem State.cores_imagesBad (s : State) (bad : List Nat) : (s.imagesBad bad).cores = s.cores := by
  unfold State.imagesBad
  dsimp only
  (repeat' split) <;> (try simp) <;> (rw [foldl_keep State.cores _ (fun a b => by (repeat' split) <;> simp)]) <;> (try simp)
@[simp] theorem State.mem_endMgmt (s : State) (e : StepEnd) : (s.endMgmt e).mem = s.mem := by
  unfold State.endMgmt
  (repeat' split) <;> simp
@[simp] theorem State.cores_endMgmt (s : State) (e : StepEnd) : (s.endMgmt e).cores = s.cores := by
  unfold State.endMgmt
  (repeat' split) <;> simp
@[simp] theorem State.mem_transitUp (s : State) : (s.transitUp).mem = s.mem := by
  unfold State.transitUp
  dsimp only
  (repeat' split) <;> simp
@[simp] theorem State.cores_transitUp (s : State) : (s.transitUp).cores = s.cores := by
  unfold State.transitUp
  dsimp only
  (repeat' split) <;> simp
@[simp] theorem State.cores_loadRuntime (s : State) : (s.loadRuntime).cores = s.cores := by
  unfold State.loadRuntime
  dsimp only
  (repeat' split) <;> simp
@[simp] theorem State.mem_releaseCore (s : State) (c : CoreId) : (s.releaseCore c).mem = s.mem := by
  rfl
@[simp] theorem State.mem_siteBack (s : State) (p : Nat) : (s.siteBack p).mem = s.mem := by
  unfold State.siteBack
  simp
@[simp] theorem State.cores_siteBack (s : State) (p : Nat) : (s.siteBack p).cores = s.cores := by
  unfold State.siteBack
  simp
@[simp] theorem State.mem_confirmImage (s : State) (t : Nat) : (s.confirmImage t).mem = s.mem := by
  unfold State.confirmImage
  dsimp only
  (repeat' split) <;> simp
@[simp] theorem State.cores_confirmImage (s : State) (t : Nat) : (s.confirmImage t).cores = s.cores := by
  unfold State.confirmImage
  dsimp only
  (repeat' split) <;> simp
@[simp] theorem State.mem_enterReady (s : State) : (s.enterReady).mem = s.mem := by
  unfold State.enterReady
  simp
@[simp] theorem State.cores_enterReady (s : State) : (s.enterReady).cores = s.cores := by
  unfold State.enterReady
  simp
@[simp] theorem State.mem_lanesFailed (s : State) (ports : List Nat) : (s.lanesFailed ports).mem = s.mem := by
  unfold State.lanesFailed
  refine (foldl_keep State.mem _ (fun a b => ?_) _ _).trans ?_ <;> (repeat' split) <;> simp
@[simp] theorem State.cores_lanesFailed (s : State) (ports : List Nat) : (s.lanesFailed ports).cores = s.cores := by
  unfold State.lanesFailed
  refine (foldl_keep State.cores _ (fun a b => ?_) _ _).trans ?_ <;> (repeat' split) <;> simp
@[simp] theorem State.mem_loseCompute (s : State) (cause : Nat) : (s.loseCompute cause).mem = s.mem := by
  unfold State.loseCompute
  simp
@[simp] theorem State.cores_loseCompute (s : State) (cause : Nat) : (s.loseCompute cause).cores = s.cores := by
  unfold State.loseCompute
  simp
@[simp] theorem State.mem_noteRegion (s : State) (r : Nat) : (s.noteRegion r).mem = s.mem := by
  unfold State.noteRegion
  split <;> simp
@[simp] theorem State.cores_noteRegion (s : State) (r : Nat) : (s.noteRegion r).cores = s.cores := by
  unfold State.noteRegion
  split <;> simp
@[simp] theorem State.mem_riseFailed (s : State) (r : Nat) : (s.riseFailed r).mem = s.mem := by
  unfold State.riseFailed
  simp
@[simp] theorem State.cores_riseFailed (s : State) (r : Nat) : (s.riseFailed r).cores = s.cores := by
  unfold State.riseFailed
  simp
@[simp] theorem State.mem_beginPort (s : State) (p : Nat) : (s.beginPort p).mem = s.mem := by
  unfold State.beginPort
  simp
@[simp] theorem State.cores_beginPort (s : State) (p : Nat) : (s.beginPort p).cores = s.cores := by
  unfold State.beginPort
  simp
@[simp] theorem State.mem_countHung (s : State) (c : Option CoreId) (bit : Nat) : (s.countHung c bit).mem = s.mem := by
  unfold State.countHung
  split <;> rfl
@[simp] theorem State.mem_setStage (s : State) (d : Die) (r : FaultRec) : (s.setStage d r).mem = s.mem := by
  unfold State.setStage
  split <;> rfl
@[simp] theorem State.cores_setStage (s : State) (d : Die) (r : FaultRec) : (s.setStage d r).cores = s.cores := by
  unfold State.setStage
  split <;> rfl
@[simp] theorem State.mem_commitStage (s : State) (d : Die) : (s.commitStage d).mem = s.mem := by
  unfold State.commitStage
  simp
@[simp] theorem State.cores_commitStage (s : State) (d : Die) : (s.commitStage d).cores = s.cores := by
  unfold State.commitStage
  simp
@[simp] theorem State.mem_setAbortCtx (s : State) (d : Die) (a : AbortCtx) : (s.setAbortCtx d a).mem = s.mem := by
  unfold State.setAbortCtx
  split <;> rfl
@[simp] theorem State.cores_setAbortCtx (s : State) (d : Die) (a : AbortCtx) : (s.setAbortCtx d a).cores = s.cores := by
  unfold State.setAbortCtx
  split <;> rfl
@[simp] theorem State.mem_writeAbortJob (s : State) (d : Die) (v : Word) : (s.writeAbortJob d v).mem = s.mem := by
  unfold State.writeAbortJob
  simp
@[simp] theorem State.cores_writeAbortJob (s : State) (d : Die) (v : Word) : (s.writeAbortJob d v).cores = s.cores := by
  unfold State.writeAbortJob
  simp
@[simp] theorem State.mem_beginRegionReset (s : State) (r : Nat) : (s.beginRegionReset r).mem = s.mem := by
  unfold State.beginRegionReset
  (repeat' split) <;> simp
@[simp] theorem State.cores_beginRegionReset (s : State) (r : Nat) : (s.beginRegionReset r).cores = s.cores := by
  unfold State.beginRegionReset
  (repeat' split) <;> simp
@[simp] theorem State.mem_stackOff (s : State) (n : Nat) : (s.stackOff n).mem = s.mem := by
  rfl
@[simp] theorem State.cores_stackOff (s : State) (n : Nat) : (s.stackOff n).cores = s.cores := by
  rfl
@[simp] theorem State.mem_setLadder (s : State) (l : Ladder) : (s.setLadder l).mem = s.mem := by
  rfl
@[simp] theorem State.cores_setLadder (s : State) (l : Ladder) : (s.setLadder l).cores = s.cores := by
  rfl
@[simp] theorem State.mem_packageStep (s : State) : (s.packageStep).mem = s.mem := by
  unfold State.packageStep
  simp
@[simp] theorem State.cores_packageStep (s : State) : (s.packageStep).cores = s.cores := by
  unfold State.packageStep
  simp
@[simp] theorem State.mem_exhausted (s : State) : (s.exhausted).mem = s.mem := by
  unfold State.exhausted
  simp
@[simp] theorem State.cores_exhausted (s : State) : (s.exhausted).cores = s.cores := by
  unfold State.exhausted
  simp
@[simp] theorem State.mem_logStep (s : State) (outcome : Nat) : (s.logStep outcome).mem = s.mem := by
  unfold State.logStep
  simp
@[simp] theorem State.cores_logStep (s : State) (outcome : Nat) : (s.logStep outcome).cores = s.cores := by
  unfold State.logStep
  simp
@[simp] theorem State.mem_restartCores (s : State) : (s.restartCores).mem = s.mem := by
  unfold State.restartCores
  refine (foldl_keep State.mem _ (fun a b => ?_) _ _).trans ?_ <;> (repeat' split) <;> simp
@[simp] theorem State.mem_endLadder (s : State) : (s.endLadder).mem = s.mem := by
  unfold State.endLadder
  simp
@[simp] theorem State.cores_endLadder (s : State) : (s.endLadder).cores = s.cores := by
  unfold State.endLadder
  simp
@[simp] theorem State.mem_nameStuck (s : State) : (s.nameStuck).mem = s.mem := by
  rfl
@[simp] theorem State.cores_nameStuck (s : State) : (s.nameStuck).cores = s.cores := by
  rfl
@[simp] theorem State.mem_writeCoreWord (s : State) (w : Writer) (c : CoreId) (off : Nat) (v mask : Word) : (s.writeCoreWord w c off v mask).mem = s.mem := by
  unfold State.writeCoreWord
  dsimp only
  (repeat' split) <;> simp
@[simp] theorem State.mem_countDiscard (s : State) (w : Writer) : (s.countDiscard w).mem = s.mem := by
  unfold State.countDiscard
  split <;> rfl
@[simp] theorem State.cores_countDiscard (s : State) (w : Writer) : (s.countDiscard w).cores = s.cores := by
  unfold State.countDiscard
  split <;> rfl
@[simp] theorem State.mem_writeHbmWord (s : State) (w : Writer) (n off : Nat) (v mask : Word) : (s.writeHbmWord w n off v mask).mem = s.mem := by
  unfold State.writeHbmWord
  (repeat' split) <;> simp
@[simp] theorem State.cores_writeHbmWord (s : State) (w : Writer) (n off : Nat) (v mask : Word) : (s.writeHbmWord w n off v mask).cores = s.cores := by
  unfold State.writeHbmWord
  (repeat' split) <;> simp
@[simp] theorem State.mem_writeStage (s : State) (d : Die) (i : Nat) (v mask : Word) : (s.writeStage d i v mask).mem = s.mem := by
  unfold State.writeStage
  simp
@[simp] theorem State.cores_writeStage (s : State) (d : Die) (i : Nat) (v mask : Word) : (s.writeStage d i v mask).cores = s.cores := by
  unfold State.writeStage
  simp
@[simp] theorem State.mem_dropStaleHolds (s : State) (n : Nat) (before : Flow) : (s.dropStaleHolds n before).mem = s.mem := by
  unfold State.dropStaleHolds
  simp
@[simp] theorem State.cores_dropStaleHolds (s : State) (n : Nat) (before : Flow) : (s.dropStaleHolds n before).cores = s.cores := by
  unfold State.dropStaleHolds
  simp
@[simp] theorem State.mem_writeFlow (s : State) (n i : Nat) (v mask : Word) : (s.writeFlow n i v mask).mem = s.mem := by
  unfold State.writeFlow
  simp
@[simp] theorem State.cores_writeFlow (s : State) (n i : Nat) (v mask : Word) : (s.writeFlow n i v mask).cores = s.cores := by
  unfold State.writeFlow
  simp
@[simp] theorem State.mem_setEntry (s : State) (e : CounterEntry) : (s.setEntry e).mem = s.mem := by
  unfold State.setEntry
  split <;> rfl
@[simp] theorem State.cores_setEntry (s : State) (e : CounterEntry) : (s.setEntry e).cores = s.cores := by
  unfold State.setEntry
  split <;> rfl
@[simp] theorem State.mem_setDump (s : State) (st : Nat) : (s.setDump st).mem = s.mem := by
  rfl
@[simp] theorem State.cores_setDump (s : State) (st : Nat) : (s.setDump st).cores = s.cores := by
  rfl
@[simp] theorem State.mem_beginDump (s : State) : (s.beginDump).mem = s.mem := by
  rfl
@[simp] theorem State.mem_dropDump (s : State) : (s.dropDump).mem = s.mem := by
  rfl
@[simp] theorem State.cores_dropDump (s : State) : (s.dropDump).cores = s.cores := by
  rfl
@[simp] theorem State.mem_openSlot (s : State) : (s.openSlot).mem = s.mem := by
  rfl
@[simp] theorem State.cores_openSlot (s : State) : (s.openSlot).cores = s.cores := by
  rfl
@[simp] theorem State.mem_jobStart (s : State) : (s.jobStart).mem = s.mem := by
  unfold State.jobStart
  simp
@[simp] theorem State.mem_modQp (s : State) (n : Nat) (f : QueuePair → QueuePair) : (s.modQp n f).mem = s.mem := by
  rfl
@[simp] theorem State.cores_modQp (s : State) (n : Nat) (f : QueuePair → QueuePair) : (s.modQp n f).cores = s.cores := by
  rfl
@[simp] theorem State.mem_markedCe (s : State) (q : QueuePair) (ce : Bool) : (s.markedCe q ce).mem = s.mem := by
  unfold State.markedCe
  dsimp only
  (repeat' split) <;> simp
@[simp] theorem State.cores_markedCe (s : State) (q : QueuePair) (ce : Bool) : (s.markedCe q ce).cores = s.cores := by
  unfold State.markedCe
  dsimp only
  (repeat' split) <;> simp
@[simp] theorem State.mem_rdmaAnswer (s : State) (n : Nat) (r : RdmaReply) : (s.rdmaAnswer n r).mem = s.mem := by
  rfl
@[simp] theorem State.cores_rdmaAnswer (s : State) (n : Nat) (r : RdmaReply) : (s.rdmaAnswer n r).cores = s.cores := by
  rfl
@[simp] theorem State.mem_rdmaRefuse (s : State) (n : Nat) : (s.rdmaRefuse n).mem = s.mem := by
  rfl
@[simp] theorem State.cores_rdmaRefuse (s : State) (n : Nat) : (s.rdmaRefuse n).cores = s.cores := by
  rfl
@[simp] theorem State.mem_setMgmtPort (s : State) (p : MgmtPort) (x : MgmtPortSt) : (s.setMgmtPort p x).mem = s.mem := by
  unfold State.setMgmtPort
  split <;> rfl
@[simp] theorem State.cores_setMgmtPort (s : State) (p : MgmtPort) (x : MgmtPortSt) : (s.setMgmtPort p x).cores = s.cores := by
  unfold State.setMgmtPort
  split <;> rfl
@[simp] theorem State.mem_copyPeer (s : State) (x : Rind) (state : Nat) : (s.copyPeer x state).mem = s.mem := by
  rfl
@[simp] theorem State.cores_copyPeer (s : State) (x : Rind) (state : Nat) : (s.copyPeer x state).cores = s.cores := by
  rfl
@[simp] theorem State.mem_updateOnRelease (s : State) (x : Rind) : (s.updateOnRelease x).mem = s.mem := by
  unfold State.updateOnRelease
  dsimp only
  (repeat' split) <;> simp
@[simp] theorem State.cores_updateOnRelease (s : State) (x : Rind) : (s.updateOnRelease x).cores = s.cores := by
  unfold State.updateOnRelease
  dsimp only
  (repeat' split) <;> simp
@[simp] theorem State.mem_dropLine (s : State) (x : Rind) (cause : Nat) : (s.dropLine x cause).mem = s.mem := by
  unfold State.dropLine
  simp
@[simp] theorem State.cores_dropLine (s : State) (x : Rind) (cause : Nat) : (s.dropLine x cause).cores = s.cores := by
  unfold State.dropLine
  simp
@[simp] theorem State.mem_haltIfThird (s : State) (x : Rind) : (s.haltIfThird x).mem = s.mem := by
  unfold State.haltIfThird
  (repeat' split) <;> simp
@[simp] theorem State.cores_haltIfThird (s : State) (x : Rind) : (s.haltIfThird x).cores = s.cores := by
  unfold State.haltIfThird
  (repeat' split) <;> simp
@[simp] theorem State.mem_fromMirror (s : State) (main aux bound : Nat) : (s.fromMirror main aux bound).mem = s.mem := by
  rfl
@[simp] theorem State.cores_fromMirror (s : State) (main aux bound : Nat) : (s.fromMirror main aux bound).cores = s.cores := by
  rfl
@[simp] theorem State.mem_afresh (s : State) : (s.afresh).mem = s.mem := by
  rfl
@[simp] theorem State.cores_afresh (s : State) : (s.afresh).cores = s.cores := by
  rfl
@[simp] theorem State.mem_repeatStep (s : State) : (s.repeatStep).mem = s.mem := by
  unfold State.repeatStep
  dsimp only
  (repeat' split) <;> simp
@[simp] theorem State.cores_repeatStep (s : State) : (s.repeatStep).cores = s.cores := by
  unfold State.repeatStep
  dsimp only
  (repeat' split) <;> simp
@[simp] theorem State.mem_secondCopy (s : State) (x : Rind) : (s.secondCopy x).mem = s.mem := by
  unfold State.secondCopy
  dsimp only
  (repeat' split) <;> simp
@[simp] theorem State.cores_secondCopy (s : State) (x : Rind) : (s.secondCopy x).cores = s.cores := by
  unfold State.secondCopy
  dsimp only
  (repeat' split) <;> simp
@[simp] theorem State.mem_holdConfirm (s : State) : (s.holdConfirm).mem = s.mem := by
  unfold State.holdConfirm
  dsimp only
  (repeat' split) <;> simp
@[simp] theorem State.cores_holdConfirm (s : State) : (s.holdConfirm).cores = s.cores := by
  unfold State.holdConfirm
  dsimp only
  (repeat' split) <;> simp
@[simp] theorem State.mem_copyMirror (s : State) (all : Bool) : (s.copyMirror all).mem = s.mem := by
  rfl
@[simp] theorem State.cores_copyMirror (s : State) (all : Bool) : (s.copyMirror all).cores = s.cores := by
  rfl
@[simp] theorem State.mem_firstConfirmed (s : State) (x : Rind) : (s.firstConfirmed x).mem = s.mem := by
  unfold State.firstConfirmed
  simp
@[simp] theorem State.cores_firstConfirmed (s : State) (x : Rind) : (s.firstConfirmed x).cores = s.cores := by
  unfold State.firstConfirmed
  simp
@[simp] theorem State.mem_secondConfirmed (s : State) (x : Rind) : (s.secondConfirmed x).mem = s.mem := by
  unfold State.secondConfirmed
  simp
@[simp] theorem State.cores_secondConfirmed (s : State) (x : Rind) : (s.secondConfirmed x).cores = s.cores := by
  unfold State.secondConfirmed
  simp
@[simp] theorem State.mem_answered (s : State) (a : Ans) : (s.answered a).mem = s.mem := by
  rfl
@[simp] theorem State.cores_answered (s : State) (a : Ans) : (s.answered a).cores = s.cores := by
  rfl
@[simp] theorem State.mem_modSession (s : State) (sid : Nat) (f : Session → Session) : (s.modSession sid f).mem = s.mem := by
  rfl
@[simp] theorem State.cores_modSession (s : State) (sid : Nat) (f : Session → Session) : (s.modSession sid f).cores = s.cores := by
  rfl
@[simp] theorem State.mem_request (s : State) (sid : Nat) (p : MgmtPort) (req : BitVec 32) (op : OapOp) : (s.request sid p req op).mem = s.mem := by
  unfold State.request
  split <;> rfl
@[simp] theorem State.cores_request (s : State) (sid : Nat) (p : MgmtPort) (req : BitVec 32) (op : OapOp) : (s.request sid p req op).cores = s.cores := by
  unfold State.request
  split <;> rfl
@[simp] theorem State.mem_conflict (s : State) (c : Claim) (x : Session) (p : MgmtPort) (v : List Byte) : (s.conflict c x p v).mem = s.mem := by
  rfl
@[simp] theorem State.cores_conflict (s : State) (c : Claim) (x : Session) (p : MgmtPort) (v : List Byte) : (s.conflict c x p v).cores = s.cores := by
  rfl
@[simp] theorem State.mem_sendAnswer (s : State) (a : OapAnswer) : (s.sendAnswer a).mem = s.mem := by
  rfl
@[simp] theorem State.cores_sendAnswer (s : State) (a : OapAnswer) : (s.sendAnswer a).cores = s.cores := by
  rfl
@[simp] theorem State.mem_pushEvent (s : State) (sid : Nat) (u : OapSub) : (s.pushEvent sid u).mem = s.mem := by
  rfl
@[simp] theorem State.cores_pushEvent (s : State) (sid : Nat) (u : OapSub) : (s.pushEvent sid u).cores = s.cores := by
  rfl
@[simp] theorem State.mem_changeFor (s : State) (sid index : Nat) (id : Nat) : (s.changeFor sid index id).mem = s.mem := by
  unfold State.changeFor
  (repeat' split) <;> simp
@[simp] theorem State.cores_changeFor (s : State) (sid index : Nat) (id : Nat) : (s.changeFor sid index id).cores = s.cores := by
  unfold State.changeFor
  (repeat' split) <;> simp
@[simp] theorem State.mem_flushEvents (s : State) : (s.flushEvents).mem = s.mem := by
  rfl
@[simp] theorem State.cores_flushEvents (s : State) : (s.flushEvents).cores = s.cores := by
  rfl
@[simp] theorem State.mem_withFetchWord (s : State) (nbits w : Nat) : (s.withFetchWord nbits w).mem = s.mem := by
  rfl
@[simp] theorem State.cores_withFetchWord (s : State) (nbits w : Nat) : (s.withFetchWord nbits w).cores = s.cores := by
  rfl
end Sys2Proof.Machine
end

