-- ==== Sys2Proof/Laws/Canonical.lean ====
section
/-! SUPPORT. The canonical form of memory and of the table of cores: every operation that writes one of them keeps it. -/
namespace Sys2Proof.Machine

/-- A fold keeps what each of its steps keeps. -/
theorem foldl_inv {α β : Type} (P : α → Prop) (f : α → β → α) (h : ∀ a b, P a → P (f a b)) (l : List β) :
    ∀ a, P a → P (l.foldl f a) := by
  induction l with
  | nil => intro a w; exact w
  | cons x l ih => intro a w; exact ih _ (h a x w)

/-- What leaves memory and cores as they are leaves them canonical. -/
theorem canonical_of_same {s t : State} (h : Canonical s) (m : t.mem = s.mem) (c : t.cores = s.cores) : Canonical t := by
  unfold Canonical at *
  rw [m, c]
  exact h

theorem canonical_reset : Canonical State.reset := ⟨rfl, rfl⟩

/-! ## Cores -/

theorem State.canonical_setCore {s : State} (c : CoreId) (k : Core) (h : Canonical s) : Canonical (s.setCore c k) :=
  ⟨h.1, Tab.wf_put _ _ _ _ h.2⟩

theorem State.canonical_modCore {s : State} (c : CoreId) (f : Core → Core) (h : Canonical s) : Canonical (s.modCore c f) :=
  State.canonical_setCore c _ h

theorem State.canonical_modCores {s : State} (cs : List CoreId) (f : CoreId → Core → Core) (h : Canonical s) :
    Canonical (s.modCores cs f) :=
  foldl_inv Canonical _ (fun _ _ w => State.canonical_modCore _ _ w) _ _ h

theorem State.canonical_purgeSenders {s : State} (c : CoreId) (h : Canonical s) : Canonical (s.purgeSenders c).2 := by
  unfold State.purgeSenders
  refine ⟨h.1, ?_⟩
  dsimp only
  exact Tab.wf_mapVals _ _ _ h.2

/-! ## Memory -/

theorem State.mem_markFold (off : Nat) (bs : List WByte) (g : Nat) (l : List Nat) (s : State) :
    (l.foldl (fun s i => s.markGranule off bs (g + i)) s).mem = s.mem :=
  foldl_keep State.mem _ (fun a b => State.mem_markGranule a off bs (g + b)) l s

/-- A write at its home changes the bytes of its range whose mask bit is set, and no other byte. -/
theorem State.mem_putBytes (s : State) (off : Nat) (bs : List WByte) :
    (s.putBytes off bs).mem = Memory.writeMasked s.mem off (bs.map (fun b => (b.val, b.on))) := by
  unfold State.putBytes
  dsimp only
  rw [State.mem_markFold]

theorem State.canonical_putBytes {s : State} (off : Nat) (bs : List WByte) (h : Canonical s) :
    Canonical (s.putBytes off bs) := by
  refine ⟨?_, ?_⟩
  · rw [State.mem_putBytes]
    exact Memory.wf_writeMasked _ _ _ h.1
  · rw [State.cores_putBytes]
    exact h.2

/-- A byte outside a write's range reads as before. -/
theorem State.byte_putBytes_outside (s : State) (off x : Nat) (bs : List WByte) (h : x < off ∨ off + bs.length ≤ x) :
    Memory.byte (s.putBytes off bs).mem x = Memory.byte s.mem x := by
  rw [State.mem_putBytes]
  exact Memory.byte_writeMasked_outside _ _ _ _ (by simpa using h)

theorem State.canonical_storeBytes {s : State} (off : Nat) (bytes : List (Byte × Bool)) (mark : Bool) (h : Canonical s) :
    Canonical (s.storeBytes off bytes mark) := State.canonical_putBytes _ _ h

theorem State.canonical_storeAll {s : State} (off : Nat) (bytes : List Byte) (mark : Bool) (h : Canonical s) :
    Canonical (s.storeAll off bytes mark) := State.canonical_storeBytes _ _ _ h

theorem State.canonical_storeMarked {s : State} (off : Nat) (bs : List (Byte × Bool)) (h : Canonical s) :
    Canonical (s.storeMarked off bs) := State.canonical_putBytes _ _ h

theorem State.canonical_landBytes {s : State} (line rel : Nat) (bs : List (Byte × Bool)) (mask : BitVec 64) (h : Canonical s) :
    Canonical (s.landBytes line rel bs mask) := State.canonical_putBytes _ _ h

theorem State.canonical_havoc {s : State} (off n : Nat) (h : Canonical s) : Canonical (s.havoc off n) :=
  ⟨Memory.wf_havoc _ _ _ _ h.1, h.2⟩

theorem State.canonical_clearHbm {s : State} (h : Canonical s) : Canonical s.clearHbm := by
  unfold State.clearHbm
  dsimp only
  have w := Tab.wf_filterKeys 0 (fun a => !decide (a < 0x8000000000)) s.mem h.1
  exact State.canonical_havoc _ _ ⟨w, h.2⟩

theorem State.canonical_beginDump {s : State} (h : Canonical s) : Canonical s.beginDump := by
  have w := Tab.wf_mapVals Core.reset (fun k => { k with hung := k.hung &&& 0x7F }) s.cores h.2
  exact ⟨h.1, w⟩

/-! ## What time alone brings -/

theorem State.canonical_strike {s : State} (u : Nat × Nat × Nat) (h : Canonical s) : Canonical (s.strike u) := by
  unfold State.strike
  dsimp only
  (repeat' split) <;> first | exact h | exact State.canonical_modCore _ _ h

theorem State.canonical_obeyCeiling {s : State} (c : CoreId) (h : Canonical s) : Canonical (s.obeyCeiling c) := by
  unfold State.obeyCeiling
  split
  · exact State.canonical_modCore _ _ h
  · exact h

theorem State.canonical_obeyCeilings {s : State} (h : Canonical s) : Canonical s.obeyCeilings :=
  foldl_inv Canonical _ (fun _ c w => State.canonical_obeyCeiling c w) _ _ h

/-- Idling lets time pass and changes no memory. -/
theorem State.canonical_idle {s : State} (h : Canonical s) : Canonical s.idle := by
  unfold State.idle
  refine foldl_inv Canonical _ (fun _ u w => State.canonical_strike u w) _ _ ?_
  have later : ∀ t : State, Canonical t → Canonical (t.landGrants.obeyCeilings.coolPark.showCaps.refreshLeds) := fun t w =>
    canonical_of_same (State.canonical_obeyCeilings (canonical_of_same w (State.mem_landGrants t) (State.cores_landGrants t)))
      (by simp only [State.mem_refreshLeds, State.mem_showCaps, State.mem_coolPark])
      (by simp only [State.cores_refreshLeds, State.cores_showCaps, State.cores_coolPark])
  exact later _ ⟨h.1, h.2⟩

end Sys2Proof.Machine
end

