-- ==== Sys2Proof/Laws/Dispatch.lean ====
section
/-! SUPPORT. One equation for each arm of the dispatch, and those of a step, so that no proof unfolds either. -/
namespace Sys2Proof.Machine

set_option Elab.async false


/-- A step performs the command at the front of the queue. -/
theorem step_cons (c : Instr) (rest : List Instr) (s : State) :
    step { s with pending := c :: rest } = exec c { s with pending := rest } := rfl

/-- On an empty queue 1 ns passes. -/
theorem step_nil (s : State) (h : s.pending = []) : step s = .next s.idle := by
  unfold step
  rw [h]

@[simp] theorem exec_add {c rd rs1 rs2 s} : exec (.add c rd rs1 rs2) s = execAdd c rd rs1 rs2 s := rfl
@[simp] theorem exec_sub {c rd rs1 rs2 s} : exec (.sub c rd rs1 rs2) s = execSub c rd rs1 rs2 s := rfl
@[simp] theorem exec_and {c rd rs1 rs2 s} : exec (.and c rd rs1 rs2) s = execAnd c rd rs1 rs2 s := rfl
@[simp] theorem exec_or {c rd rs1 rs2 s} : exec (.or c rd rs1 rs2) s = execOr c rd rs1 rs2 s := rfl
@[simp] theorem exec_xor {c rd rs1 rs2 s} : exec (.xor c rd rs1 rs2) s = execXor c rd rs1 rs2 s := rfl
@[simp] theorem exec_sll {c rd rs1 rs2 s} : exec (.sll c rd rs1 rs2) s = execSll c rd rs1 rs2 s := rfl
@[simp] theorem exec_srl {c rd rs1 rs2 s} : exec (.srl c rd rs1 rs2) s = execSrl c rd rs1 rs2 s := rfl
@[simp] theorem exec_sra {c rd rs1 rs2 s} : exec (.sra c rd rs1 rs2) s = execSra c rd rs1 rs2 s := rfl
@[simp] theorem exec_slt {c rd rs1 rs2 s} : exec (.slt c rd rs1 rs2) s = execSlt c rd rs1 rs2 s := rfl
@[simp] theorem exec_sltu {c rd rs1 rs2 s} : exec (.sltu c rd rs1 rs2) s = execSltu c rd rs1 rs2 s := rfl
@[simp] theorem exec_mul {c rd rs1 rs2 s} : exec (.mul c rd rs1 rs2) s = execMul c rd rs1 rs2 s := rfl
@[simp] theorem exec_mulh {c rd rs1 rs2 s} : exec (.mulh c rd rs1 rs2) s = execMulh c rd rs1 rs2 s := rfl
@[simp] theorem exec_mulhu {c rd rs1 rs2 s} : exec (.mulhu c rd rs1 rs2) s = execMulhu c rd rs1 rs2 s := rfl
@[simp] theorem exec_div {c rd rs1 rs2 s} : exec (.div c rd rs1 rs2) s = execDiv c rd rs1 rs2 s := rfl
@[simp] theorem exec_divu {c rd rs1 rs2 s} : exec (.divu c rd rs1 rs2) s = execDivu c rd rs1 rs2 s := rfl
@[simp] theorem exec_rem {c rd rs1 rs2 s} : exec (.rem c rd rs1 rs2) s = execRem c rd rs1 rs2 s := rfl
@[simp] theorem exec_remu {c rd rs1 rs2 s} : exec (.remu c rd rs1 rs2) s = execRemu c rd rs1 rs2 s := rfl
@[simp] theorem exec_addi {c rd rs1 imm s} : exec (.addi c rd rs1 imm) s = execAddi c rd rs1 imm s := rfl
@[simp] theorem exec_andi {c rd rs1 imm s} : exec (.andi c rd rs1 imm) s = execAndi c rd rs1 imm s := rfl
@[simp] theorem exec_ori {c rd rs1 imm s} : exec (.ori c rd rs1 imm) s = execOri c rd rs1 imm s := rfl
@[simp] theorem exec_xori {c rd rs1 imm s} : exec (.xori c rd rs1 imm) s = execXori c rd rs1 imm s := rfl
@[simp] theorem exec_slti {c rd rs1 imm s} : exec (.slti c rd rs1 imm) s = execSlti c rd rs1 imm s := rfl
@[simp] theorem exec_slli {c rd rs1 amt s} : exec (.slli c rd rs1 amt) s = execSlli c rd rs1 amt s := rfl
@[simp] theorem exec_srli {c rd rs1 amt s} : exec (.srli c rd rs1 amt) s = execSrli c rd rs1 amt s := rfl
@[simp] theorem exec_srai {c rd rs1 amt s} : exec (.srai c rd rs1 amt) s = execSrai c rd rs1 amt s := rfl
@[simp] theorem exec_lui {c rd imm s} : exec (.lui c rd imm) s = execLui c rd imm s := rfl
@[simp] theorem exec_auipc {c rd imm s} : exec (.auipc c rd imm) s = execAuipc c rd imm s := rfl
@[simp] theorem exec_fadd {c f rd rs1 rs2 s} : exec (.fadd c f rd rs1 rs2) s = execFadd c f rd rs1 rs2 s := rfl
@[simp] theorem exec_fsub {c f rd rs1 rs2 s} : exec (.fsub c f rd rs1 rs2) s = execFsub c f rd rs1 rs2 s := rfl
@[simp] theorem exec_fmul {c f rd rs1 rs2 s} : exec (.fmul c f rd rs1 rs2) s = execFmul c f rd rs1 rs2 s := rfl
@[simp] theorem exec_fdiv {c f rd rs1 rs2 s} : exec (.fdiv c f rd rs1 rs2) s = execFdiv c f rd rs1 rs2 s := rfl
@[simp] theorem exec_fsqrt {c f rd rs1 rs2 s} : exec (.fsqrt c f rd rs1 rs2) s = execFsqrt c f rd rs1 rs2 s := rfl
@[simp] theorem exec_fmin {c f rd rs1 rs2 s} : exec (.fmin c f rd rs1 rs2) s = execFmin c f rd rs1 rs2 s := rfl
@[simp] theorem exec_fmax {c f rd rs1 rs2 s} : exec (.fmax c f rd rs1 rs2) s = execFmax c f rd rs1 rs2 s := rfl
@[simp] theorem exec_fcmpEq {c f rd rs1 rs2 s} : exec (.fcmpEq c f rd rs1 rs2) s = execFcmpEq c f rd rs1 rs2 s := rfl
@[simp] theorem exec_fcmpLt {c f rd rs1 rs2 s} : exec (.fcmpLt c f rd rs1 rs2) s = execFcmpLt c f rd rs1 rs2 s := rfl
@[simp] theorem exec_fcmpLe {c f rd rs1 rs2 s} : exec (.fcmpLe c f rd rs1 rs2) s = execFcmpLe c f rd rs1 rs2 s := rfl
@[simp] theorem exec_fcmpUn {c f rd rs1 rs2 s} : exec (.fcmpUn c f rd rs1 rs2) s = execFcmpUn c f rd rs1 rs2 s := rfl
@[simp] theorem exec_fcvtToSigned {c f rd rs1 rs2 s} : exec (.fcvtToSigned c f rd rs1 rs2) s = execFcvtToSigned c f rd rs1 rs2 s := rfl
@[simp] theorem exec_fcvtFromSigned {c f rd rs1 rs2 s} : exec (.fcvtFromSigned c f rd rs1 rs2) s = execFcvtFromSigned c f rd rs1 rs2 s := rfl
@[simp] theorem exec_fcvtToUnsigned {c f rd rs1 rs2 s} : exec (.fcvtToUnsigned c f rd rs1 rs2) s = execFcvtToUnsigned c f rd rs1 rs2 s := rfl
@[simp] theorem exec_fcvtFromUnsigned {c f rd rs1 rs2 s} : exec (.fcvtFromUnsigned c f rd rs1 rs2) s = execFcvtFromUnsigned c f rd rs1 rs2 s := rfl
@[simp] theorem exec_fcvtBetweenFormats {c f rd rs1 rs2 s} : exec (.fcvtBetweenFormats c f rd rs1 rs2) s = execFcvtBetweenFormats c f rd rs1 rs2 s := rfl
@[simp] theorem exec_fmvSgn {c f rd rs1 rs2 s} : exec (.fmvSgn c f rd rs1 rs2) s = execFmvSgn c f rd rs1 rs2 s := rfl
@[simp] theorem exec_fmvNeg {c f rd rs1 rs2 s} : exec (.fmvNeg c f rd rs1 rs2) s = execFmvNeg c f rd rs1 rs2 s := rfl
@[simp] theorem exec_fmvXor {c f rd rs1 rs2 s} : exec (.fmvXor c f rd rs1 rs2) s = execFmvXor c f rd rs1 rs2 s := rfl
@[simp] theorem exec_fmadd {c f rd rs1 rs2 rs3 s} : exec (.fmadd c f rd rs1 rs2 rs3) s = execFmadd c f rd rs1 rs2 rs3 s := rfl
@[simp] theorem exec_fmsub {c f rd rs1 rs2 rs3 s} : exec (.fmsub c f rd rs1 rs2 rs3) s = execFmsub c f rd rs1 rs2 rs3 s := rfl
@[simp] theorem exec_lb {c rd rs1 imm s} : exec (.lb c rd rs1 imm) s = execLb c rd rs1 imm s := rfl
@[simp] theorem exec_lbu {c rd rs1 imm s} : exec (.lbu c rd rs1 imm) s = execLbu c rd rs1 imm s := rfl
@[simp] theorem exec_lh {c rd rs1 imm s} : exec (.lh c rd rs1 imm) s = execLh c rd rs1 imm s := rfl
@[simp] theorem exec_lhu {c rd rs1 imm s} : exec (.lhu c rd rs1 imm) s = execLhu c rd rs1 imm s := rfl
@[simp] theorem exec_lw {c rd rs1 imm s} : exec (.lw c rd rs1 imm) s = execLw c rd rs1 imm s := rfl
@[simp] theorem exec_lwu {c rd rs1 imm s} : exec (.lwu c rd rs1 imm) s = execLwu c rd rs1 imm s := rfl
@[simp] theorem exec_ld {c rd rs1 imm s} : exec (.ld c rd rs1 imm) s = execLd c rd rs1 imm s := rfl
@[simp] theorem exec_sb {c rs2 rs1 imm s} : exec (.sb c rs2 rs1 imm) s = execSb c rs2 rs1 imm s := rfl
@[simp] theorem exec_sh {c rs2 rs1 imm s} : exec (.sh c rs2 rs1 imm) s = execSh c rs2 rs1 imm s := rfl
@[simp] theorem exec_sw {c rs2 rs1 imm s} : exec (.sw c rs2 rs1 imm) s = execSw c rs2 rs1 imm s := rfl
@[simp] theorem exec_sd {c rs2 rs1 imm s} : exec (.sd c rs2 rs1 imm) s = execSd c rs2 rs1 imm s := rfl
@[simp] theorem exec_amoadd {c sz rd rs1 rs2 s} : exec (.amoadd c sz rd rs1 rs2) s = execAmoadd c sz rd rs1 rs2 s := rfl
@[simp] theorem exec_amomin {c sz rd rs1 rs2 s} : exec (.amomin c sz rd rs1 rs2) s = execAmomin c sz rd rs1 rs2 s := rfl
@[simp] theorem exec_amomax {c sz rd rs1 rs2 s} : exec (.amomax c sz rd rs1 rs2) s = execAmomax c sz rd rs1 rs2 s := rfl
@[simp] theorem exec_amominu {c sz rd rs1 rs2 s} : exec (.amominu c sz rd rs1 rs2) s = execAmominu c sz rd rs1 rs2 s := rfl
@[simp] theorem exec_amomaxu {c sz rd rs1 rs2 s} : exec (.amomaxu c sz rd rs1 rs2) s = execAmomaxu c sz rd rs1 rs2 s := rfl
@[simp] theorem exec_amoswap {c sz rd rs1 rs2 s} : exec (.amoswap c sz rd rs1 rs2) s = execAmoswap c sz rd rs1 rs2 s := rfl
@[simp] theorem exec_amocas {c sz rd rs1 rs2 s} : exec (.amocas c sz rd rs1 rs2) s = execAmocas c sz rd rs1 rs2 s := rfl
@[simp] theorem exec_amofaddS {c rd rs1 rs2 s} : exec (.amofaddS c rd rs1 rs2) s = execAmofaddS c rd rs1 rs2 s := rfl
@[simp] theorem exec_amofaddBf {c rd rs1 rs2 s} : exec (.amofaddBf c rd rs1 rs2) s = execAmofaddBf c rd rs1 rs2 s := rfl
@[simp] theorem exec_beq {c rs1 rs2 off s} : exec (.beq c rs1 rs2 off) s = execBeq c rs1 rs2 off s := rfl
@[simp] theorem exec_bne {c rs1 rs2 off s} : exec (.bne c rs1 rs2 off) s = execBne c rs1 rs2 off s := rfl
@[simp] theorem exec_blt {c rs1 rs2 off s} : exec (.blt c rs1 rs2 off) s = execBlt c rs1 rs2 off s := rfl
@[simp] theorem exec_bge {c rs1 rs2 off s} : exec (.bge c rs1 rs2 off) s = execBge c rs1 rs2 off s := rfl
@[simp] theorem exec_bltu {c rs1 rs2 off s} : exec (.bltu c rs1 rs2 off) s = execBltu c rs1 rs2 off s := rfl
@[simp] theorem exec_bgeu {c rs1 rs2 off s} : exec (.bgeu c rs1 rs2 off) s = execBgeu c rs1 rs2 off s := rfl
@[simp] theorem exec_jal {c rd imm s} : exec (.jal c rd imm) s = execJal c rd imm s := rfl
@[simp] theorem exec_jalr {c rd rs1 imm s} : exec (.jalr c rd rs1 imm) s = execJalr c rd rs1 imm s := rfl
@[simp] theorem exec_vadd {c w vd vs1 vs2 s} : exec (.vadd c w vd vs1 vs2) s = execVadd c w vd vs1 vs2 s := rfl
@[simp] theorem exec_vsub {c w vd vs1 vs2 s} : exec (.vsub c w vd vs1 vs2) s = execVsub c w vd vs1 vs2 s := rfl
@[simp] theorem exec_vmul {c w vd vs1 vs2 s} : exec (.vmul c w vd vs1 vs2) s = execVmul c w vd vs1 vs2 s := rfl
@[simp] theorem exec_vmin {c w vd vs1 vs2 s} : exec (.vmin c w vd vs1 vs2) s = execVmin c w vd vs1 vs2 s := rfl
@[simp] theorem exec_vmax {c w vd vs1 vs2 s} : exec (.vmax c w vd vs1 vs2) s = execVmax c w vd vs1 vs2 s := rfl
@[simp] theorem exec_vminu {c w vd vs1 vs2 s} : exec (.vminu c w vd vs1 vs2) s = execVminu c w vd vs1 vs2 s := rfl
@[simp] theorem exec_vmaxu {c w vd vs1 vs2 s} : exec (.vmaxu c w vd vs1 vs2) s = execVmaxu c w vd vs1 vs2 s := rfl
@[simp] theorem exec_vand {c w vd vs1 vs2 s} : exec (.vand c w vd vs1 vs2) s = execVand c w vd vs1 vs2 s := rfl
@[simp] theorem exec_vor {c w vd vs1 vs2 s} : exec (.vor c w vd vs1 vs2) s = execVor c w vd vs1 vs2 s := rfl
@[simp] theorem exec_vxor {c w vd vs1 vs2 s} : exec (.vxor c w vd vs1 vs2) s = execVxor c w vd vs1 vs2 s := rfl
@[simp] theorem exec_vsll {c w vd vs1 vs2 s} : exec (.vsll c w vd vs1 vs2) s = execVsll c w vd vs1 vs2 s := rfl
@[simp] theorem exec_vsrl {c w vd vs1 vs2 s} : exec (.vsrl c w vd vs1 vs2) s = execVsrl c w vd vs1 vs2 s := rfl
@[simp] theorem exec_vsra {c w vd vs1 vs2 s} : exec (.vsra c w vd vs1 vs2) s = execVsra c w vd vs1 vs2 s := rfl
@[simp] theorem exec_vmla {c w vd vs1 vs2 vs3 s} : exec (.vmla c w vd vs1 vs2 vs3) s = execVmla c w vd vs1 vs2 vs3 s := rfl
@[simp] theorem exec_vcmpeq {c w vd vs1 vs2 s} : exec (.vcmpeq c w vd vs1 vs2) s = execVcmpeq c w vd vs1 vs2 s := rfl
@[simp] theorem exec_vcmplt {c w vd vs1 vs2 s} : exec (.vcmplt c w vd vs1 vs2) s = execVcmplt c w vd vs1 vs2 s := rfl
@[simp] theorem exec_vfadd {c f vd vs1 vs2 s} : exec (.vfadd c f vd vs1 vs2) s = execVfadd c f vd vs1 vs2 s := rfl
@[simp] theorem exec_vfsub {c f vd vs1 vs2 s} : exec (.vfsub c f vd vs1 vs2) s = execVfsub c f vd vs1 vs2 s := rfl
@[simp] theorem exec_vfmul {c f vd vs1 vs2 s} : exec (.vfmul c f vd vs1 vs2) s = execVfmul c f vd vs1 vs2 s := rfl
@[simp] theorem exec_vfdiv {c f vd vs1 vs2 s} : exec (.vfdiv c f vd vs1 vs2) s = execVfdiv c f vd vs1 vs2 s := rfl
@[simp] theorem exec_vfsqrt {c f vd vs1 s} : exec (.vfsqrt c f vd vs1) s = execVfsqrt c f vd vs1 s := rfl
@[simp] theorem exec_vfmin {c f vd vs1 vs2 s} : exec (.vfmin c f vd vs1 vs2) s = execVfmin c f vd vs1 vs2 s := rfl
@[simp] theorem exec_vfmax {c f vd vs1 vs2 s} : exec (.vfmax c f vd vs1 vs2) s = execVfmax c f vd vs1 vs2 s := rfl
@[simp] theorem exec_vfcmpeq {c f vd vs1 vs2 s} : exec (.vfcmpeq c f vd vs1 vs2) s = execVfcmpeq c f vd vs1 vs2 s := rfl
@[simp] theorem exec_vfcmplt {c f vd vs1 vs2 s} : exec (.vfcmplt c f vd vs1 vs2) s = execVfcmplt c f vd vs1 vs2 s := rfl
@[simp] theorem exec_vfcmple {c f vd vs1 vs2 s} : exec (.vfcmple c f vd vs1 vs2) s = execVfcmple c f vd vs1 vs2 s := rfl
@[simp] theorem exec_vfma {c f vd vs1 vs2 vs3 s} : exec (.vfma c f vd vs1 vs2 vs3) s = execVfma c f vd vs1 vs2 vs3 s := rfl
@[simp] theorem exec_vfms {c f vd vs1 vs2 vs3 s} : exec (.vfms c f vd vs1 vs2 vs3) s = execVfms c f vd vs1 vs2 vs3 s := rfl
@[simp] theorem exec_vfnma {c f vd vs1 vs2 vs3 s} : exec (.vfnma c f vd vs1 vs2 vs3) s = execVfnma c f vd vs1 vs2 vs3 s := rfl
@[simp] theorem exec_vld {c vd rs1 s} : exec (.vld c vd rs1) s = execVld c vd rs1 s := rfl
@[simp] theorem exec_vst {c vd rs1 s} : exec (.vst c vd rs1) s = execVst c vd rs1 s := rfl
@[simp] theorem exec_vrsumS {c vd vs1 s} : exec (.vrsumS c vd vs1) s = execVrsumS c vd vs1 s := rfl
@[simp] theorem exec_vrsumD {c vd vs1 s} : exec (.vrsumD c vd vs1) s = execVrsumD c vd vs1 s := rfl
@[simp] theorem exec_vrmaxS {c vd vs1 s} : exec (.vrmaxS c vd vs1) s = execVrmaxS c vd vs1 s := rfl
@[simp] theorem exec_vrminS {c vd vs1 s} : exec (.vrminS c vd vs1) s = execVrminS c vd vs1 s := rfl
@[simp] theorem exec_vrmaxD {c vd vs1 s} : exec (.vrmaxD c vd vs1) s = execVrmaxD c vd vs1 s := rfl
@[simp] theorem exec_vrminD {c vd vs1 s} : exec (.vrminD c vd vs1) s = execVrminD c vd vs1 s := rfl
@[simp] theorem exec_vrsumW {c vd vs1 s} : exec (.vrsumW c vd vs1) s = execVrsumW c vd vs1 s := rfl
@[simp] theorem exec_vrsumL {c vd vs1 s} : exec (.vrsumL c vd vs1) s = execVrsumL c vd vs1 s := rfl
@[simp] theorem exec_vpermB {c vd vs1 vs2 s} : exec (.vpermB c vd vs1 vs2) s = execVpermB c vd vs1 vs2 s := rfl
@[simp] theorem exec_vinsD {c vd rs1 vs3 s} : exec (.vinsD c vd rs1 vs3) s = execVinsD c vd rs1 vs3 s := rfl
@[simp] theorem exec_vextD {c rd vs2 vs3 s} : exec (.vextD c rd vs2 vs3) s = execVextD c rd vs2 vs3 s := rfl
@[simp] theorem exec_vbcastD {c vd rs1 s} : exec (.vbcastD c vd rs1) s = execVbcastD c vd rs1 s := rfl
@[simp] theorem exec_vbcastW {c vd rs1 s} : exec (.vbcastW c vd rs1) s = execVbcastW c vd rs1 s := rfl
@[simp] theorem exec_vcvtBfS {c tz vd vs1 s} : exec (.vcvtBfS c tz vd vs1) s = execVcvtBfS c tz vd vs1 s := rfl
@[simp] theorem exec_vcvtHS {c tz vd vs1 s} : exec (.vcvtHS c tz vd vs1) s = execVcvtHS c tz vd vs1 s := rfl
@[simp] theorem exec_vcvtE4S {c tz vd vs1 s} : exec (.vcvtE4S c tz vd vs1) s = execVcvtE4S c tz vd vs1 s := rfl
@[simp] theorem exec_vcvtE5S {c tz vd vs1 s} : exec (.vcvtE5S c tz vd vs1) s = execVcvtE5S c tz vd vs1 s := rfl
@[simp] theorem exec_vcvtWS {c vd vs1 s} : exec (.vcvtWS c vd vs1) s = execVcvtWS c vd vs1 s := rfl
@[simp] theorem exec_vcvtLD {c vd vs1 s} : exec (.vcvtLD c vd vs1) s = execVcvtLD c vd vs1 s := rfl
@[simp] theorem exec_vcvtSW {c vd vs1 s} : exec (.vcvtSW c vd vs1) s = execVcvtSW c vd vs1 s := rfl
@[simp] theorem exec_vcvtDL {c vd vs1 s} : exec (.vcvtDL c vd vs1) s = execVcvtDL c vd vs1 s := rfl
@[simp] theorem exec_vcvtSBf {c vd vs1 s} : exec (.vcvtSBf c vd vs1) s = execVcvtSBf c vd vs1 s := rfl
@[simp] theorem exec_vcvtSH {c vd vs1 s} : exec (.vcvtSH c vd vs1) s = execVcvtSH c vd vs1 s := rfl
@[simp] theorem exec_vcvtDS {c vd vs1 s} : exec (.vcvtDS c vd vs1) s = execVcvtDS c vd vs1 s := rfl
@[simp] theorem exec_vcvtSD {c vd vs1 s} : exec (.vcvtSD c vd vs1) s = execVcvtSD c vd vs1 s := rfl
@[simp] theorem exec_vcvtMx {c fmt vd vs1 s} : exec (.vcvtMx c fmt vd vs1) s = execVcvtMx c fmt vd vs1 s := rfl
@[simp] theorem exec_fenceLocal {c s} : exec (.fenceLocal c) s = execFenceLocal c s := rfl
@[simp] theorem exec_fenceChip {c s} : exec (.fenceChip c) s = execFenceChip c s := rfl
@[simp] theorem exec_fenceFabric {c s} : exec (.fenceFabric c) s = execFenceFabric c s := rfl
@[simp] theorem exec_cflushRange {c rs1 rs2 s} : exec (.cflushRange c rs1 rs2) s = execCflushRange c rs1 rs2 s := rfl
@[simp] theorem exec_cinvRange {c rs1 rs2 s} : exec (.cinvRange c rs1 rs2) s = execCinvRange c rs1 rs2 s := rfl
@[simp] theorem exec_acqinv {c rs1 rs2 s} : exec (.acqinv c rs1 rs2) s = execAcqinv c rs1 rs2 s := rfl
@[simp] theorem exec_msend {c rs1 rs2 imm s} : exec (.msend c rs1 rs2 imm) s = execMsend c rs1 rs2 imm s := rfl
@[simp] theorem exec_mrecv {c rd imm s} : exec (.mrecv c rd imm) s = execMrecv c rd imm s := rfl
@[simp] theorem exec_psub {c rd rs1 s} : exec (.psub c rd rs1) s = execPsub c rd rs1 s := rfl
@[simp] theorem exec_lsub {c rd rs1 s} : exec (.lsub c rd rs1) s = execLsub c rd rs1 s := rfl
@[simp] theorem exec_tinc {c rs1 rs2 s} : exec (.tinc c rs1 rs2) s = execTinc c rs1 rs2 s := rfl
@[simp] theorem exec_tincL {c rs2 imm s} : exec (.tincL c rs2 imm) s = execTincL c rs2 imm s := rfl
@[simp] theorem exec_twait {c rd rs1 rs2 imm s} : exec (.twait c rd rs1 rs2 imm) s = execTwait c rd rs1 rs2 imm s := rfl
@[simp] theorem exec_twaitTimeout {c s} : exec (.twaitTimeout c) s = execTwaitTimeout c s := rfl
@[simp] theorem exec_tread {c rd imm s} : exec (.tread c rd imm) s = execTread c rd imm s := rfl
@[simp] theorem exec_barrier {c rs1 s} : exec (.barrier c rs1) s = execBarrier c rs1 s := rfl
@[simp] theorem exec_phase {c rs1 s} : exec (.phase c rs1) s = execPhase c rs1 s := rfl
@[simp] theorem exec_rdsr {c rd imm s} : exec (.rdsr c rd imm) s = execRdsr c rd imm s := rfl
@[simp] theorem exec_wrsr {c rs1 imm s} : exec (.wrsr c rs1 imm) s = execWrsr c rs1 imm s := rfl
@[simp] theorem exec_ladleErrRecRetire {c rs1 s} : exec (.ladleErrRecRetire c rs1) s = execLadleErrRecRetire c rs1 s := rfl
@[simp] theorem exec_rdcnt {c rd imm s} : exec (.rdcnt c rd imm) s = execRdcnt c rd imm s := rfl
@[simp] theorem exec_wrcnt {c rs1 imm s} : exec (.wrcnt c rs1 imm) s = execWrcnt c rs1 imm s := rfl
@[simp] theorem exec_wfi {c s} : exec (.wfi c) s = execWfi c s := rfl
@[simp] theorem exec_trap {c imm s} : exec (.trap c imm) s = execTrap c imm s := rfl
@[simp] theorem exec_tret {c s} : exec (.tret c) s = execTret c s := rfl
@[simp] theorem exec_interruptTake {c s} : exec (.interruptTake c) s = execInterruptTake c s := rfl
@[simp] theorem exec_timerInterrupt {c s} : exec (.timerInterrupt c) s = execTimerInterrupt c s := rfl
@[simp] theorem exec_poisonConsumed {c s} : exec (.poisonConsumed c) s = execPoisonConsumed c s := rfl
@[simp] theorem exec_coreRunSet {w c s} : exec (.coreRunSet w c) s = execCoreRunSet w c s := rfl
@[simp] theorem exec_coreRunClear {w c s} : exec (.coreRunClear w c) s = execCoreRunClear w c s := rfl
@[simp] theorem exec_memoryResponse {c id s} : exec (.memoryResponse c id) s = execMemoryResponse c id s := rfl
@[simp] theorem exec_cacheFillLand {c line s} : exec (.cacheFillLand c line) s = execCacheFillLand c line s := rfl
@[simp] theorem exec_homeAccess {h e0 e1 s} : exec (.homeAccess h e0 e1) s = execHomeAccess h e0 e1 s := rfl
@[simp] theorem exec_pressNop {c s} : exec (.pressNop c) s = execPressNop c s := rfl
@[simp] theorem exec_pressMatmul {c s} : exec (.pressMatmul c) s = execPressMatmul c s := rfl
@[simp] theorem exec_pressConvert {c s} : exec (.pressConvert c) s = execPressConvert c s := rfl
@[simp] theorem exec_pressComplete {c sub s} : exec (.pressComplete c sub) s = execPressComplete c sub s := rfl
@[simp] theorem exec_pressLevelStep {c s} : exec (.pressLevelStep c) s = execPressLevelStep c s := rfl
@[simp] theorem exec_ladleCopy {c s} : exec (.ladleCopy c) s = execLadleCopy c s := rfl
@[simp] theorem exec_ladleFill {c s} : exec (.ladleFill c) s = execLadleFill c s := rfl
@[simp] theorem exec_ladleList {c s} : exec (.ladleList c) s = execLadleList c s := rfl
@[simp] theorem exec_ladleListEntry {c s} : exec (.ladleListEntry c) s = execLadleListEntry c s := rfl
@[simp] theorem exec_ladleTransactionDone {c id s} : exec (.ladleTransactionDone c id) s = execLadleTransactionDone c id s := rfl
@[simp] theorem exec_messageAdmit {c q src s} : exec (.messageAdmit c q src) s = execMessageAdmit c q src s := rfl
@[simp] theorem exec_messageWordArrive {c q late k fabricEnd s} : exec (.messageWordArrive c q late k fabricEnd) s = execMessageWordArrive c q late k fabricEnd s := rfl
@[simp] theorem exec_messageTruncate {c q k s} : exec (.messageTruncate c q k) s = execMessageTruncate c q k s := rfl
@[simp] theorem exec_tallyWriteResend {k s} : exec (.tallyWriteResend k) s = execTallyWriteResend k s := rfl
@[simp] theorem exec_tallyTimeout {d held k s} : exec (.tallyTimeout d held k) s = execTallyTimeout d held k s := rfl
@[simp] theorem exec_barrierEngineSend {s} : exec (.barrierEngineSend) s = execBarrierEngineSend s := rfl
@[simp] theorem exec_regionRelease {s} : exec (.regionRelease) s = execRegionRelease s := rfl
@[simp] theorem exec_barrierConfigWrite {w n second v s} : exec (.barrierConfigWrite w n second v) s = execBarrierConfigWrite w n second v s := rfl
@[simp] theorem exec_barrierContextReset {w n s} : exec (.barrierContextReset w n) s = execBarrierContextReset w n s := rfl
@[simp] theorem exec_hbmStackPower {s} : exec (.hbmStackPower) s = execHbmStackPower s := rfl
@[simp] theorem exec_hbmTraining {s} : exec (.hbmTraining) s = execHbmTraining s := rfl
@[simp] theorem exec_hbmTrainingDone {ts s} : exec (.hbmTrainingDone ts) s = execHbmTrainingDone ts s := rfl
@[simp] theorem exec_hbmScrub {stack err s} : exec (.hbmScrub stack err) s = execHbmScrub stack err s := rfl
@[simp] theorem exec_channelTimeout {stack ch s} : exec (.channelTimeout stack ch) s = execChannelTimeout stack ch s := rfl
@[simp] theorem exec_hbmTempRead {stack dev pkg s} : exec (.hbmTempRead stack dev pkg) s = execHbmTempRead stack dev pkg s := rfl
@[simp] theorem exec_hbmTempLost {stack s} : exec (.hbmTempLost stack) s = execHbmTempLost stack s := rfl
@[simp] theorem exec_identityFrameSend {p s} : exec (.identityFrameSend p) s = execIdentityFrameSend p s := rfl
@[simp] theorem exec_identityFrame {p f s} : exec (.identityFrame p f) s = execIdentityFrame p f s := rfl
@[simp] theorem exec_identityTimeout {p s} : exec (.identityTimeout p) s = execIdentityTimeout p s := rfl
@[simp] theorem exec_linkTrained {p f times s} : exec (.linkTrained p f times) s = execLinkTrained p f times s := rfl
@[simp] theorem exec_trainingRetry {p s} : exec (.trainingRetry p) s = execTrainingRetry p s := rfl
@[simp] theorem exec_portMissing {p s} : exec (.portMissing p) s = execPortMissing p s := rfl
@[simp] theorem exec_planWrite {role v s} : exec (.planWrite role v) s = execPlanWrite role v s := rfl
@[simp] theorem exec_signerWrite {role v s} : exec (.signerWrite role v) s = execSignerWrite role v s := rfl
@[simp] theorem exec_acceptSwap {role v s} : exec (.acceptSwap role v) s = execAcceptSwap role v s := rfl
@[simp] theorem exec_routeBlockWrite {role b v s} : exec (.routeBlockWrite role b v) s = execRouteBlockWrite role b v s := rfl
@[simp] theorem exec_routeCommit {role v s} : exec (.routeCommit role v) s = execRouteCommit role v s := rfl
@[simp] theorem exec_flitReceive {p f s} : exec (.flitReceive p f) s = execFlitReceive p f s := rfl
@[simp] theorem exec_linkControl {p l s} : exec (.linkControl p l) s = execLinkControl p l s := rfl
@[simp] theorem exec_linkAckSend {p s} : exec (.linkAckSend p) s = execLinkAckSend p s := rfl
@[simp] theorem exec_laneLockLoss {p s} : exec (.laneLockLoss p) s = execLaneLockLoss p s := rfl
@[simp] theorem exec_failoverResend {p s} : exec (.failoverResend p) s = execFailoverResend p s := rfl
@[simp] theorem exec_packetRoute {d s} : exec (.packetRoute d) s = execPacketRoute d s := rfl
@[simp] theorem exec_packetDepart {p s} : exec (.packetDepart p) s = execPacketDepart p s := rfl
@[simp] theorem exec_writePacket {k s} : exec (.writePacket k) s = execWritePacket k s := rfl
@[simp] theorem exec_readReq {k s} : exec (.readReq k) s = execReadReq k s := rfl
@[simp] theorem exec_readResp {k s} : exec (.readResp k) s = execReadResp k s := rfl
@[simp] theorem exec_messagePacket {k s} : exec (.messagePacket k) s = execMessagePacket k s := rfl
@[simp] theorem exec_tincPacket {k s} : exec (.tincPacket k) s = execTincPacket k s := rfl
@[simp] theorem exec_tallyWrite {k s} : exec (.tallyWrite k) s = execTallyWrite k s := rfl
@[simp] theorem exec_ack {k s} : exec (.ack k) s = execAck k s := rfl
@[simp] theorem exec_nak {k s} : exec (.nak k) s = execNak k s := rfl
@[simp] theorem exec_barrierArrive {k s} : exec (.barrierArrive k) s = execBarrierArrive k s := rfl
@[simp] theorem exec_barrierRelease {k s} : exec (.barrierRelease k) s = execBarrierRelease k s := rfl
@[simp] theorem exec_abortPacket {k s} : exec (.abortPacket k) s = execAbortPacket k s := rfl
@[simp] theorem exec_beacon {p b s} : exec (.beacon p b) s = execBeacon p b s := rfl
@[simp] theorem exec_audit {k s} : exec (.audit k) s = execAudit k s := rfl
@[simp] theorem exec_pieceReq {k s} : exec (.pieceReq k) s = execPieceReq k s := rfl
@[simp] theorem exec_piece {k s} : exec (.piece k) s = execPiece k s := rfl
@[simp] theorem exec_gapTimeout {flow s} : exec (.gapTimeout flow) s = execGapTimeout flow s := rfl
@[simp] theorem exec_ackTimeout {flow s} : exec (.ackTimeout flow) s = execAckTimeout flow s := rfl
@[simp] theorem exec_ackCoalesce {flow s} : exec (.ackCoalesce flow) s = execAckCoalesce flow s := rfl
@[simp] theorem exec_unflowedResend {d k s} : exec (.unflowedResend d k) s = execUnflowedResend d k s := rfl
@[simp] theorem exec_beaconSend {p s} : exec (.beaconSend p) s = execBeaconSend p s := rfl
@[simp] theorem exec_auditSend {flow s} : exec (.auditSend flow) s = execAuditSend flow s := rfl
@[simp] theorem exec_creditReturn {p s} : exec (.creditReturn p) s = execCreditReturn p s := rfl
@[simp] theorem exec_longLinkCheck {p s} : exec (.longLinkCheck p) s = execLongLinkCheck p s := rfl
@[simp] theorem exec_backupPrimaryClaim {s} : exec (.backupPrimaryClaim) s = execBackupPrimaryClaim s := rfl
@[simp] theorem exec_timeNoParent {s} : exec (.timeNoParent) s = execTimeNoParent s := rfl
@[simp] theorem exec_scheduleCommit {role v s} : exec (.scheduleCommit role v) s = execScheduleCommit role v s := rfl
@[simp] theorem exec_scheduleActivate {s} : exec (.scheduleActivate) s = execScheduleActivate s := rfl
@[simp] theorem exec_congestionSample {p s} : exec (.congestionSample p) s = execCongestionSample p s := rfl
@[simp] theorem exec_siteLineLost {p fault s} : exec (.siteLineLost p fault) s = execSiteLineLost p fault s := rfl
@[simp] theorem exec_ripenerStep {t s} : exec (.ripenerStep t) s = execRipenerStep t s := rfl
@[simp] theorem exec_governorStep {r reading s} : exec (.governorStep r reading) s = execGovernorStep r reading s := rfl
@[simp] theorem exec_limiterSample {us100 ms1 s} : exec (.limiterSample us100 ms1) s = execLimiterSample us100 ms1 s := rfl
@[simp] theorem exec_supplyAlertAssert {s} : exec (.supplyAlertAssert) s = execSupplyAlertAssert s := rfl
@[simp] theorem exec_supplyAlertDeassert {s} : exec (.supplyAlertDeassert) s = execSupplyAlertDeassert s := rfl
@[simp] theorem exec_supplyAlertHoldEnd {s} : exec (.supplyAlertHoldEnd) s = execSupplyAlertHoldEnd s := rfl
@[simp] theorem exec_mainEntryFault {e s} : exec (.mainEntryFault e) s = execMainEntryFault e s := rfl
@[simp] theorem exec_droopDetect {r s} : exec (.droopDetect r) s = execDroopDetect r s := rfl
@[simp] theorem exec_droopRecover {r s} : exec (.droopRecover r) s = execDroopRecover r s := rfl
@[simp] theorem exec_riseEnd {r s} : exec (.riseEnd r) s = execRiseEnd r s := rfl
@[simp] theorem exec_nextExpire {r s} : exec (.nextExpire r) s = execNextExpire r s := rfl
@[simp] theorem exec_parkSlice {energy lowest s} : exec (.parkSlice energy lowest) s = execParkSlice energy lowest s := rfl
@[simp] theorem exec_unpark {s} : exec (.unpark) s = execUnpark s := rfl
@[simp] theorem exec_throttleTick {s} : exec (.throttleTick) s = execThrottleTick s := rfl
@[simp] theorem exec_windowAvgUpdate {avg main aux s} : exec (.windowAvgUpdate avg main aux) s = execWindowAvgUpdate avg main aux s := rfl
@[simp] theorem exec_capWrite {role v s} : exec (.capWrite role v) s = execCapWrite role v s := rfl
@[simp] theorem exec_capWindowWrite {role v s} : exec (.capWindowWrite role v) s = execCapWindowWrite role v s := rfl
@[simp] theorem exec_rackOrderWrite {role v s} : exec (.rackOrderWrite role v) s = execRackOrderWrite role v s := rfl
@[simp] theorem exec_hostOrderWrite {role v s} : exec (.hostOrderWrite role v) s = execHostOrderWrite role v s := rfl
@[simp] theorem exec_holdWrite {role v s} : exec (.holdWrite role v) s = execHoldWrite role v s := rfl
@[simp] theorem exec_frequencyModeWrite {role mhz v s} : exec (.frequencyModeWrite role mhz v) s = execFrequencyModeWrite role mhz v s := rfl
@[simp] theorem exec_releaseOffsetWrite {role v s} : exec (.releaseOffsetWrite role v) s = execReleaseOffsetWrite role v s := rfl
@[simp] theorem exec_gateWrite {w r hi v s} : exec (.gateWrite w r hi v) s = execGateWrite w r hi v s := rfl
@[simp] theorem exec_dieSensorSample {rs s} : exec (.dieSensorSample rs) s = execDieSensorSample rs s := rfl
@[simp] theorem exec_leakSample {ohm s} : exec (.leakSample ohm) s = execLeakSample ohm s := rfl
@[simp] theorem exec_flowCheck {power dt s} : exec (.flowCheck power dt) s = execFlowCheck power dt s := rfl
@[simp] theorem exec_allowanceUpdate {s} : exec (.allowanceUpdate) s = execAllowanceUpdate s := rfl
@[simp] theorem exec_coolantDataLost {s} : exec (.coolantDataLost) s = execCoolantDataLost s := rfl
@[simp] theorem exec_junctionStep {power s} : exec (.junctionStep power) s = execJunctionStep power s := rfl
@[simp] theorem exec_sustainedLimit {s} : exec (.sustainedLimit) s = execSustainedLimit s := rfl
@[simp] theorem exec_coolantFaultAssert {s} : exec (.coolantFaultAssert) s = execCoolantFaultAssert s := rfl
@[simp] theorem exec_coolantFaultDeassert {s} : exec (.coolantFaultDeassert) s = execCoolantFaultDeassert s := rfl
@[simp] theorem exec_coolantStopTimeout {s} : exec (.coolantStopTimeout) s = execCoolantStopTimeout s := rfl
@[simp] theorem exec_flowRestored {s} : exec (.flowRestored) s = execFlowRestored s := rfl
@[simp] theorem exec_comparatorTrip {k s} : exec (.comparatorTrip k) s = execComparatorTrip k s := rfl
@[simp] theorem exec_mainRailsOff {s} : exec (.mainRailsOff) s = execMainRailsOff s := rfl
@[simp] theorem exec_tripClear {role v s} : exec (.tripClear role v) s = execTripClear role v s := rfl
@[simp] theorem exec_clearFaults {role v s} : exec (.clearFaults role v) s = execClearFaults role v s := rfl
@[simp] theorem exec_cycleSample {s} : exec (.cycleSample) s = execCycleSample s := rfl
@[simp] theorem exec_cycleSave {s} : exec (.cycleSave) s = execCycleSave s := rfl
@[simp] theorem exec_lifeEvaluate {s} : exec (.lifeEvaluate) s = execLifeEvaluate s := rfl
@[simp] theorem exec_auxPowerUp {straps a b s} : exec (.auxPowerUp straps a b) s = execAuxPowerUp straps a b s := rfl
@[simp] theorem exec_auxReset {byPin s} : exec (.auxReset byPin) s = execAuxReset byPin s := rfl
@[simp] theorem exec_ownBClaim {s} : exec (.ownBClaim) s = execOwnBClaim s := rfl
@[simp] theorem exec_mainPgAssert {s} : exec (.mainPgAssert) s = execMainPgAssert s := rfl
@[simp] theorem exec_mainPgLoss {s} : exec (.mainPgLoss) s = execMainPgLoss s := rfl
@[simp] theorem exec_ejectAssert {s} : exec (.ejectAssert) s = execEjectAssert s := rfl
@[simp] theorem exec_holdupOkChange {high s} : exec (.holdupOkChange high) s = execHoldupOkChange high s := rfl
@[simp] theorem exec_flashProgram {s} : exec (.flashProgram) s = execFlashProgram s := rfl
@[simp] theorem exec_refclkLoss {k s} : exec (.refclkLoss k) s = execRefclkLoss k s := rfl
@[simp] theorem exec_sidebandPoll {t power s} : exec (.sidebandPoll t power) s = execSidebandPoll t power s := rfl
@[simp] theorem exec_inBandInterrupt {bits t s} : exec (.inBandInterrupt bits t) s = execInBandInterrupt bits t s := rfl
@[simp] theorem exec_locateWrite {role v s} : exec (.locateWrite role v) s = execLocateWrite role v s := rfl
@[simp] theorem exec_locateTimeout {s} : exec (.locateTimeout) s = execLocateTimeout s := rfl
@[simp] theorem exec_mainRetry {role v s} : exec (.mainRetry role v) s = execMainRetry role v s := rfl
@[simp] theorem exec_startStepBegin {e s} : exec (.startStepBegin e) s = execStartStepBegin e s := rfl
@[simp] theorem exec_regionRise {routerOk defects s} : exec (.regionRise routerOk defects) s = execRegionRise routerOk defects s := rfl
@[simp] theorem exec_trainingGroupStart {s} : exec (.trainingGroupStart) s = execTrainingGroupStart s := rfl
@[simp] theorem exec_oapHandshake {p cid cert linkLocal s} : exec (.oapHandshake p cid cert linkLocal) s = execOapHandshake p cid cert linkLocal s := rfl
@[simp] theorem exec_sessionIdleTimeout {sid s} : exec (.sessionIdleTimeout sid) s = execSessionIdleTimeout sid s := rfl
@[simp] theorem exec_oapRead {sid p req index sub off s} : exec (.oapRead sid p req index sub off) s = execOapRead sid p req index sub off s := rfl
@[simp] theorem exec_oapWrite {sid p req index sub off body more s} : exec (.oapWrite sid p req index sub off body more) s = execOapWrite sid p req index sub off body more s := rfl
@[simp] theorem exec_readMulti {sid p req items s} : exec (.readMulti sid p req items) s = execReadMulti sid p req items s := rfl
@[simp] theorem exec_subscribe {sid p req index sub interval s} : exec (.subscribe sid p req index sub interval) s = execSubscribe sid p req index sub interval s := rfl
@[simp] theorem exec_subscribeCancel {sid p req subId s} : exec (.subscribeCancel sid p req subId) s = execSubscribeCancel sid p req subId s := rfl
@[simp] theorem exec_mgmtTick {s} : exec (.mgmtTick) s = execMgmtTick s := rfl
@[simp] theorem exec_anchorWrite {sid which v s} : exec (.anchorWrite sid which v) s = execAnchorWrite sid which v s := rfl
@[simp] theorem exec_rindRelease {f s} : exec (.rindRelease f) s = execRindRelease f s := rfl
@[simp] theorem exec_rindWatchdog {s} : exec (.rindWatchdog) s = execRindWatchdog s := rfl
@[simp] theorem exec_rindClaim {main aux bound s} : exec (.rindClaim main aux bound) s = execRindClaim main aux bound s := rfl
@[simp] theorem exec_rindRestart {x r s} : exec (.rindRestart x r) s = execRindRestart x r s := rfl
@[simp] theorem exec_standbyTest {t s} : exec (.standbyTest t) s = execStandbyTest t s := rfl
@[simp] theorem exec_mirrorCopy {s} : exec (.mirrorCopy) s = execMirrorCopy s := rfl
@[simp] theorem exec_takeback {s} : exec (.takeback) s = execTakeback s := rfl
@[simp] theorem exec_jobStart {role s} : exec (.jobStart role) s = execJobStart role s := rfl
@[simp] theorem exec_jobStop {role s} : exec (.jobStop role) s = execJobStop role s := rfl
@[simp] theorem exec_jobAbort {role s} : exec (.jobAbort role) s = execJobAbort role s := rfl
@[simp] theorem exec_runtimeEnd {s} : exec (.runtimeEnd) s = execRuntimeEnd s := rfl
@[simp] theorem exec_rdmaConnect {role v s} : exec (.rdmaConnect role v) s = execRdmaConnect role v s := rfl
@[simp] theorem exec_rdmaClose {role v s} : exec (.rdmaClose role v) s = execRdmaClose role v s := rfl
@[simp] theorem exec_keyWrite {role v s} : exec (.keyWrite role v) s = execKeyWrite role v s := rfl
@[simp] theorem exec_rdmaWrite {qp key off ce bytes s} : exec (.rdmaWrite qp key off ce bytes) s = execRdmaWrite qp key off ce bytes s := rfl
@[simp] theorem exec_rdmaRead {qp key off len ce s} : exec (.rdmaRead qp key off len ce) s = execRdmaRead qp key off len ce s := rfl
@[simp] theorem exec_rdmaSend {qp key off ce bytes s} : exec (.rdmaSend qp key off ce bytes) s = execRdmaSend qp key off ce bytes s := rfl
@[simp] theorem exec_congestionNotification {qp s} : exec (.congestionNotification qp) s = execCongestionNotification qp s := rfl
@[simp] theorem exec_rateRaise {qp s} : exec (.rateRaise qp) s = execRateRaise qp s := rfl
@[simp] theorem exec_ptpMessage {p m s} : exec (.ptpMessage p m) s = execPtpMessage p m s := rfl
@[simp] theorem exec_hangCheck {s} : exec (.hangCheck) s = execHangCheck s := rfl
@[simp] theorem exec_windowMsWrite {role v s} : exec (.windowMsWrite role v) s = execWindowMsWrite role v s := rfl
@[simp] theorem exec_faultRecordWrite {w d v s} : exec (.faultRecordWrite w d v) s = execFaultRecordWrite w d v s := rfl
@[simp] theorem exec_abortNow {w d s} : exec (.abortNow w d) s = execAbortNow w d s := rfl
@[simp] theorem exec_abortSend {s} : exec (.abortSend) s = execAbortSend s := rfl
@[simp] theorem exec_abortJobIdWrite {w d v s} : exec (.abortJobIdWrite w d v) s = execAbortJobIdWrite w d v s := rfl
@[simp] theorem exec_dumpStart {s} : exec (.dumpStart) s = execDumpStart s := rfl
@[simp] theorem exec_dumpReadTimeout {k s} : exec (.dumpReadTimeout k) s = execDumpReadTimeout k s := rfl
@[simp] theorem exec_dumpEnd {n s} : exec (.dumpEnd n) s = execDumpEnd n s := rfl
@[simp] theorem exec_dumpRelease {role v s} : exec (.dumpRelease role v) s = execDumpRelease role v s := rfl
@[simp] theorem exec_dumpExpire {s} : exec (.dumpExpire) s = execDumpExpire s := rfl
@[simp] theorem exec_ladderStart {s} : exec (.ladderStart) s = execLadderStart s := rfl
@[simp] theorem exec_ladderStepEnd {s} : exec (.ladderStepEnd) s = execLadderStepEnd s := rfl
@[simp] theorem exec_ladderStepTimeout {s} : exec (.ladderStepTimeout) s = execLadderStepTimeout s := rfl
@[simp] theorem exec_ladderRequest {role v s} : exec (.ladderRequest role v) s = execLadderRequest role v s := rfl
@[simp] theorem exec_engineReset {r hi v s} : exec (.engineReset r hi v) s = execEngineReset r hi v s := rfl
@[simp] theorem exec_coreReset {r hi v s} : exec (.coreReset r hi v) s = execCoreReset r hi v s := rfl
@[simp] theorem exec_regionReset {r s} : exec (.regionReset r) s = execRegionReset r s := rfl
@[simp] theorem exec_regionDrainEnd {r n s} : exec (.regionDrainEnd r n) s = execRegionDrainEnd r n s := rfl
@[simp] theorem exec_packageStepRequest {s} : exec (.packageStepRequest) s = execPackageStepRequest s := rfl
@[simp] theorem exec_regulatorPhaseLoss {rail d s} : exec (.regulatorPhaseLoss rail d) s = execRegulatorPhaseLoss rail d s := rfl
@[simp] theorem exec_replacementClear {role v s} : exec (.replacementClear role v) s = execReplacementClear role v s := rfl
@[simp] theorem exec_updateOpen {role type source stage s} : exec (.updateOpen role type source stage) s = execUpdateOpen role type source stage s := rfl
@[simp] theorem exec_updateAbort {role s} : exec (.updateAbort role) s = execUpdateAbort role s := rfl
@[simp] theorem exec_imageBlockReceive {b s} : exec (.imageBlockReceive b) s = execImageBlockReceive b s := rfl
@[simp] theorem exec_blockRequestTimeout {s} : exec (.blockRequestTimeout) s = execBlockRequestTimeout s := rfl
@[simp] theorem exec_blockRetry {s} : exec (.blockRetry) s = execBlockRetry s := rfl
@[simp] theorem exec_recoveryResend {block s} : exec (.recoveryResend block) s = execRecoveryResend block s := rfl
@[simp] theorem exec_rindConfirmTimeout {s} : exec (.rindConfirmTimeout) s = execRindConfirmTimeout s := rfl
@[simp] theorem exec_attestationNonce {sid v s} : exec (.attestationNonce sid v) s = execAttestationNonce sid v s := rfl
@[simp] theorem exec_ownerLockSet {role v s} : exec (.ownerLockSet role v) s = execOwnerLockSet role v s := rfl
@[simp] theorem exec_clearToken {role v s} : exec (.clearToken role v) s = execClearToken role v s := rfl
@[simp] theorem exec_unitCountersConfig {role v s} : exec (.unitCountersConfig role v) s = execUnitCountersConfig role v s := rfl
@[simp] theorem exec_registerWrite {w off v mask s} : exec (.registerWrite w off v mask) s = execRegisterWrite w off v mask s := rfl
@[simp] theorem exec_illegalInstruction {c w s} : exec (.illegalInstruction c w) s = execIllegalInstruction c w s := rfl
@[simp] theorem exec_scheduleSlotStart {p s} : exec (.scheduleSlotStart p) s = execScheduleSlotStart p s := rfl
@[simp] theorem exec_ejectDeassert {s} : exec (.ejectDeassert) s = execEjectDeassert s := rfl
@[simp] theorem exec_refclkRestore {k s} : exec (.refclkRestore k) s = execRefclkRestore k s := rfl
@[simp] theorem exec_ppsInPulse {s} : exec (.ppsInPulse) s = execPpsInPulse s := rfl
@[simp] theorem exec_mgmtPortDown {p s} : exec (.mgmtPortDown p) s = execMgmtPortDown p s := rfl
@[simp] theorem exec_mgmtPortUp {p s} : exec (.mgmtPortUp p) s = execMgmtPortUp p s := rfl
@[simp] theorem exec_mgmtPortOutage {p s} : exec (.mgmtPortOutage p) s = execMgmtPortOutage p s := rfl
@[simp] theorem exec_mgmtFrame {p f s} : exec (.mgmtFrame p f) s = execMgmtFrame p f s := rfl
@[simp] theorem exec_rindUpdateHandover {s} : exec (.rindUpdateHandover) s = execRindUpdateHandover s := rfl
@[simp] theorem exec_rindImageConfirmed {s} : exec (.rindImageConfirmed) s = execRindImageConfirmed s := rfl
@[simp] theorem exec_cycleCountOverflow {u n left s} : exec (.cycleCountOverflow u n left) s = execCycleCountOverflow u n left s := rfl
@[simp] theorem exec_coreDefectFound {row col s} : exec (.coreDefectFound row col) s = execCoreDefectFound row col s := rfl

end Sys2Proof.Machine
end

