-- ==== Sys2Proof/Laws/Lanes.lean ====
section
/-! SUPPORT. Laws of vector lanes: what a built register holds in each lane, and the fixed tree of a reduction. -/
namespace Sys2Proof.Machine

/-- Digits of base `2^w`, lowest first. -/
def digits (w : Nat) (l : List Nat) : Nat := l.foldr (fun x acc => x % 2 ^ w + 2 ^ w * acc) 0

theorem digits_lt (w : Nat) (l : List Nat) : digits w l < 2 ^ (w * l.length) := by
  induction l with
  | nil => simp [digits]
  | cons x l ih =>
    have h1 : x % 2 ^ w < 2 ^ w := Nat.mod_lt _ (Nat.two_pow_pos w)
    have h2 : digits w (x :: l) = x % 2 ^ w + 2 ^ w * digits w l := rfl
    have h3 : 2 ^ w * (digits w l + 1) ≤ 2 ^ w * 2 ^ (w * l.length) := Nat.mul_le_mul_left _ ih
    rw [h2, List.length_cons, Nat.mul_add, Nat.mul_one, Nat.add_comm (w * l.length), Nat.pow_add]
    rw [Nat.mul_add, Nat.mul_one] at h3
    omega

theorem digits_get (w : Nat) : ∀ (l : List Nat) (i : Nat), digits w l / 2 ^ (w * i) % 2 ^ w = l.getD i 0 % 2 ^ w := by
  intro l
  induction l with
  | nil => intro i; simp [digits]
  | cons x l ih =>
    intro i
    have h2 : digits w (x :: l) = x % 2 ^ w + 2 ^ w * digits w l := rfl
    have h1 : x % 2 ^ w < 2 ^ w := Nat.mod_lt _ (Nat.two_pow_pos w)
    cases i with
    | zero => simp [h2]
    | succ i =>
      rw [h2, Nat.mul_add, Nat.mul_one, Nat.add_comm (w * i), Nat.pow_add, ← Nat.div_div_eq_div_mul,
        Nat.add_mul_div_left _ _ (Nat.two_pow_pos w), Nat.div_eq_of_lt h1, Nat.zero_add, ih i]
      rfl

theorem ofLanes_toNat (w n : Nat) (f : Nat → Nat) :
    (ofLanes w n f).toNat = digits w ((List.range n).map f) % 2 ^ 512 := by
  simp only [ofLanes, BitVec.toNat_ofNat, digits, List.foldr_map]

/-- Lane `i` of a built register is `f i` modulo the lane width, and 0 above the lanes built. -/
theorem laneNat_ofLanes (w n : Nat) (f : Nat → Nat) (i : Nat) (h : w * n ≤ 512) :
    laneNat (ofLanes w n f) w i = if i < n then f i % 2 ^ w else 0 := by
  have hd : digits w ((List.range n).map f) < 2 ^ 512 := by
    have := digits_lt w ((List.range n).map f)
    rw [List.length_map, List.length_range] at this
    exact Nat.lt_of_lt_of_le this (Nat.pow_le_pow_right (by omega) h)
  rw [laneNat, BitVec.toNat_ushiftRight, ofLanes_toNat, Nat.mod_eq_of_lt hd, Nat.shiftRight_eq_div_pow, digits_get]
  by_cases hn : i < n
  · rw [if_pos hn]
    simp [List.getD, hn]
  · rw [if_neg hn]
    simp [List.getD, hn]

/-- One lane of a map over the lanes. -/
theorem laneNat_map2 (w : Nat) (f : Nat → Nat → Nat) (a b : VWord) (i : Nat) (h : i < 512 / w) :
    laneNat (map2 w f a b) w i = f (laneNat a w i) (laneNat b w i) % 2 ^ w := by
  have h1 : w * (512 / w) ≤ 512 := Nat.mul_div_le 512 w
  rw [map2, laneNat_ofLanes w _ _ i h1, if_pos h]

theorem laneNat_map1 (w : Nat) (f : Nat → Nat) (a : VWord) (i : Nat) (h : i < 512 / w) :
    laneNat (map1 w f a) w i = f (laneNat a w i) % 2 ^ w := by
  have h1 : w * (512 / w) ≤ 512 := Nat.mul_div_le 512 w
  rw [map1, laneNat_ofLanes w _ _ i h1, if_pos h]

theorem laneNat_map3 (w : Nat) (f : Nat → Nat → Nat → Nat) (a b d : VWord) (i : Nat) (h : i < 512 / w) :
    laneNat (map3 w f a b d) w i = f (laneNat a w i) (laneNat b w i) (laneNat d w i) % 2 ^ w := by
  have h1 : w * (512 / w) ≤ 512 := Nat.mul_div_le 512 w
  rw [map3, laneNat_ofLanes w _ _ i h1, if_pos h]

/-- A lane is below its width's power of two. -/
theorem laneNat_lt (v : VWord) (w i : Nat) : laneNat v w i < 2 ^ w := Nat.mod_lt _ (Nat.two_pow_pos w)

end Sys2Proof.Machine
end

