-- ==== Sys2Proof/Laws/State.lean ====
section
/-! SUPPORT. Laws of State's updates: a read of what an update wrote, and every field it leaves as it is. -/
namespace Sys2Proof.Machine

set_option Elab.async false

/-! ## Reading what was written -/

@[simp] theorem State.region_setRegion_same (s : State) (r : Nat) (x : Region) : (s.setRegion r x).region r = x :=
  Tab.get_put_same _ _ _ _
theorem State.region_setRegion_ne (s : State) {r o : Nat} (x : Region) (h : o ≠ r) :
    (s.setRegion r x).region o = s.region o := Tab.get_put_ne _ _ _ h
@[simp] theorem State.stack_setStack_same (s : State) (n : Nat) (x : Stack) : (s.setStack n x).stack n = x :=
  Tab.get_put_same _ _ _ _
theorem State.stack_setStack_ne (s : State) {n o : Nat} (x : Stack) (h : o ≠ n) :
    (s.setStack n x).stack o = s.stack o := Tab.get_put_ne _ _ _ h
@[simp] theorem State.flow_setFlow_same (s : State) (i : Nat) (f : Flow) : (s.setFlow i f).flow i = f :=
  Tab.get_put_same _ _ _ _
theorem State.flow_setFlow_ne (s : State) {i o : Nat} (f : Flow) (h : o ≠ i) :
    (s.setFlow i f).flow o = s.flow o := Tab.get_put_ne _ _ _ h
@[simp] theorem State.port_setPort_same (s : State) (p : Nat) (x : Port) : (s.setPort p x).port p = x :=
  Tab.get_put_same _ _ _ _
theorem State.port_setPort_ne (s : State) {p o : Nat} (x : Port) (h : o ≠ p) :
    (s.setPort p x).port o = s.port o := Tab.get_put_ne _ _ _ h
@[simp] theorem State.image_setImage_same (s : State) (t : Nat) (i : Image) : (s.setImage t i).image t = i :=
  Tab.get_put_same _ _ _ _
theorem State.image_setImage_ne (s : State) {t o : Nat} (i : Image) (h : o ≠ t) :
    (s.setImage t i).image o = s.image o := Tab.get_put_ne _ _ _ h
@[simp] theorem State.portCounters_setPortCounters_same (s : State) (p : Nat) (u : UnitCounters) :
    (s.setPortCounters p u).portCounters p = u := Tab.get_put_same _ _ _ _
@[simp] theorem State.hbmCounters_setHbmCounters_same (s : State) (n : Nat) (u : UnitCounters) :
    (s.setHbmCounters n u).hbmCounters n = u := Tab.get_put_same _ _ _ _
@[simp] theorem State.die_setDie_same (s : State) (d : Die) (x : DieSt) : (s.setDie d x).die d = x := by
  cases d <;> rfl
theorem State.die_setDie_ne (s : State) {d e : Die} (x : DieSt) (h : e ≠ d) : (s.setDie d x).die e = s.die e := by
  cases d <;> cases e <;> first | rfl | exact absurd rfl h

/-! ## What an update leaves -/

@[simp] theorem State.setCore_pending (s : State) (c : CoreId) (k : Core) : (s.setCore c k).pending = s.pending := rfl
@[simp] theorem State.setCore_now (s : State) (c : CoreId) (k : Core) : (s.setCore c k).now = s.now := rfl
@[simp] theorem State.setCore_runNow (s : State) (c : CoreId) (k : Core) : (s.setCore c k).runNow = s.runNow := rfl
@[simp] theorem State.setCore_freeCount (s : State) (c : CoreId) (k : Core) : (s.setCore c k).freeCount = s.freeCount := rfl
@[simp] theorem State.setCore_ftime (s : State) (c : CoreId) (k : Core) : (s.setCore c k).ftime = s.ftime := rfl
@[simp] theorem State.setCore_poison (s : State) (c : CoreId) (k : Core) : (s.setCore c k).poison = s.poison := rfl
@[simp] theorem State.setCore_cellErrs (s : State) (c : CoreId) (k : Core) : (s.setCore c k).cellErrs = s.cellErrs := rfl
@[simp] theorem State.setCore_uncorrectable (s : State) (c : CoreId) (k : Core) : (s.setCore c k).uncorrectable = s.uncorrectable := rfl
@[simp] theorem State.setCore_regions (s : State) (c : CoreId) (k : Core) : (s.setCore c k).regions = s.regions := rfl
@[simp] theorem State.setCore_barriers (s : State) (c : CoreId) (k : Core) : (s.setCore c k).barriers = s.barriers := rfl
@[simp] theorem State.setCore_dieMsgs (s : State) (c : CoreId) (k : Core) : (s.setCore c k).dieMsgs = s.dieMsgs := rfl
@[simp] theorem State.setCore_org (s : State) (c : CoreId) (k : Core) : (s.setCore c k).org = s.org := rfl
@[simp] theorem State.setCore_job (s : State) (c : CoreId) (k : Core) : (s.setCore c k).job = s.job := rfl
@[simp] theorem State.setCore_counters (s : State) (c : CoreId) (k : Core) : (s.setCore c k).counters = s.counters := rfl
@[simp] theorem State.setCore_faults (s : State) (c : CoreId) (k : Core) : (s.setCore c k).faults = s.faults := rfl
@[simp] theorem State.setCore_pow (s : State) (c : CoreId) (k : Core) : (s.setCore c k).pow = s.pow := rfl
@[simp] theorem State.setCore_fab (s : State) (c : CoreId) (k : Core) : (s.setCore c k).fab = s.fab := rfl
@[simp] theorem State.setCore_hbm (s : State) (c : CoreId) (k : Core) : (s.setCore c k).hbm = s.hbm := rfl
@[simp] theorem State.setCore_oap (s : State) (c : CoreId) (k : Core) : (s.setCore c k).oap = s.oap := rfl
@[simp] theorem State.setCore_therm (s : State) (c : CoreId) (k : Core) : (s.setCore c k).therm = s.therm := rfl
@[simp] theorem State.setCore_tray (s : State) (c : CoreId) (k : Core) : (s.setCore c k).tray = s.tray := rfl
@[simp] theorem State.setCore_flashed (s : State) (c : CoreId) (k : Core) : (s.setCore c k).flashed = s.flashed := rfl
@[simp] theorem State.setCore_start (s : State) (c : CoreId) (k : Core) : (s.setCore c k).start = s.start := rfl
@[simp] theorem State.setCore_site (s : State) (c : CoreId) (k : Core) : (s.setCore c k).site = s.site := rfl
@[simp] theorem State.setCore_rind (s : State) (c : CoreId) (k : Core) : (s.setCore c k).rind = s.rind := rfl
@[simp] theorem State.setCore_fw (s : State) (c : CoreId) (k : Core) : (s.setCore c k).fw = s.fw := rfl
@[simp] theorem State.setCore_time (s : State) (c : CoreId) (k : Core) : (s.setCore c k).time = s.time := rfl
@[simp] theorem State.setCore_sched (s : State) (c : CoreId) (k : Core) : (s.setCore c k).sched = s.sched := rfl
@[simp] theorem State.setCore_cong (s : State) (c : CoreId) (k : Core) : (s.setCore c k).cong = s.cong := rfl
@[simp] theorem State.modCore_pending (s : State) (c : CoreId) (f : Core → Core) : (s.modCore c f).pending = s.pending := rfl
@[simp] theorem State.modCore_now (s : State) (c : CoreId) (f : Core → Core) : (s.modCore c f).now = s.now := rfl
@[simp] theorem State.modCore_runNow (s : State) (c : CoreId) (f : Core → Core) : (s.modCore c f).runNow = s.runNow := rfl
@[simp] theorem State.modCore_freeCount (s : State) (c : CoreId) (f : Core → Core) : (s.modCore c f).freeCount = s.freeCount := rfl
@[simp] theorem State.modCore_ftime (s : State) (c : CoreId) (f : Core → Core) : (s.modCore c f).ftime = s.ftime := rfl
@[simp] theorem State.modCore_poison (s : State) (c : CoreId) (f : Core → Core) : (s.modCore c f).poison = s.poison := rfl
@[simp] theorem State.modCore_cellErrs (s : State) (c : CoreId) (f : Core → Core) : (s.modCore c f).cellErrs = s.cellErrs := rfl
@[simp] theorem State.modCore_uncorrectable (s : State) (c : CoreId) (f : Core → Core) : (s.modCore c f).uncorrectable = s.uncorrectable := rfl
@[simp] theorem State.modCore_regions (s : State) (c : CoreId) (f : Core → Core) : (s.modCore c f).regions = s.regions := rfl
@[simp] theorem State.modCore_barriers (s : State) (c : CoreId) (f : Core → Core) : (s.modCore c f).barriers = s.barriers := rfl
@[simp] theorem State.modCore_dieMsgs (s : State) (c : CoreId) (f : Core → Core) : (s.modCore c f).dieMsgs = s.dieMsgs := rfl
@[simp] theorem State.modCore_org (s : State) (c : CoreId) (f : Core → Core) : (s.modCore c f).org = s.org := rfl
@[simp] theorem State.modCore_job (s : State) (c : CoreId) (f : Core → Core) : (s.modCore c f).job = s.job := rfl
@[simp] theorem State.modCore_counters (s : State) (c : CoreId) (f : Core → Core) : (s.modCore c f).counters = s.counters := rfl
@[simp] theorem State.modCore_faults (s : State) (c : CoreId) (f : Core → Core) : (s.modCore c f).faults = s.faults := rfl
@[simp] theorem State.modCore_pow (s : State) (c : CoreId) (f : Core → Core) : (s.modCore c f).pow = s.pow := rfl
@[simp] theorem State.modCore_fab (s : State) (c : CoreId) (f : Core → Core) : (s.modCore c f).fab = s.fab := rfl
@[simp] theorem State.modCore_hbm (s : State) (c : CoreId) (f : Core → Core) : (s.modCore c f).hbm = s.hbm := rfl
@[simp] theorem State.modCore_oap (s : State) (c : CoreId) (f : Core → Core) : (s.modCore c f).oap = s.oap := rfl
@[simp] theorem State.modCore_therm (s : State) (c : CoreId) (f : Core → Core) : (s.modCore c f).therm = s.therm := rfl
@[simp] theorem State.modCore_tray (s : State) (c : CoreId) (f : Core → Core) : (s.modCore c f).tray = s.tray := rfl
@[simp] theorem State.modCore_flashed (s : State) (c : CoreId) (f : Core → Core) : (s.modCore c f).flashed = s.flashed := rfl
@[simp] theorem State.modCore_start (s : State) (c : CoreId) (f : Core → Core) : (s.modCore c f).start = s.start := rfl
@[simp] theorem State.modCore_site (s : State) (c : CoreId) (f : Core → Core) : (s.modCore c f).site = s.site := rfl
@[simp] theorem State.modCore_rind (s : State) (c : CoreId) (f : Core → Core) : (s.modCore c f).rind = s.rind := rfl
@[simp] theorem State.modCore_fw (s : State) (c : CoreId) (f : Core → Core) : (s.modCore c f).fw = s.fw := rfl
@[simp] theorem State.modCore_time (s : State) (c : CoreId) (f : Core → Core) : (s.modCore c f).time = s.time := rfl
@[simp] theorem State.modCore_sched (s : State) (c : CoreId) (f : Core → Core) : (s.modCore c f).sched = s.sched := rfl
@[simp] theorem State.modCore_cong (s : State) (c : CoreId) (f : Core → Core) : (s.modCore c f).cong = s.cong := rfl
@[simp] theorem State.setRegion_pending (s : State) (r : Nat) (x : Region) : (s.setRegion r x).pending = s.pending := rfl
@[simp] theorem State.setRegion_now (s : State) (r : Nat) (x : Region) : (s.setRegion r x).now = s.now := rfl
@[simp] theorem State.setRegion_runNow (s : State) (r : Nat) (x : Region) : (s.setRegion r x).runNow = s.runNow := rfl
@[simp] theorem State.setRegion_freeCount (s : State) (r : Nat) (x : Region) : (s.setRegion r x).freeCount = s.freeCount := rfl
@[simp] theorem State.setRegion_ftime (s : State) (r : Nat) (x : Region) : (s.setRegion r x).ftime = s.ftime := rfl
@[simp] theorem State.setRegion_poison (s : State) (r : Nat) (x : Region) : (s.setRegion r x).poison = s.poison := rfl
@[simp] theorem State.setRegion_cellErrs (s : State) (r : Nat) (x : Region) : (s.setRegion r x).cellErrs = s.cellErrs := rfl
@[simp] theorem State.setRegion_uncorrectable (s : State) (r : Nat) (x : Region) : (s.setRegion r x).uncorrectable = s.uncorrectable := rfl
@[simp] theorem State.setRegion_barriers (s : State) (r : Nat) (x : Region) : (s.setRegion r x).barriers = s.barriers := rfl
@[simp] theorem State.setRegion_dieMsgs (s : State) (r : Nat) (x : Region) : (s.setRegion r x).dieMsgs = s.dieMsgs := rfl
@[simp] theorem State.setRegion_org (s : State) (r : Nat) (x : Region) : (s.setRegion r x).org = s.org := rfl
@[simp] theorem State.setRegion_job (s : State) (r : Nat) (x : Region) : (s.setRegion r x).job = s.job := rfl
@[simp] theorem State.setRegion_counters (s : State) (r : Nat) (x : Region) : (s.setRegion r x).counters = s.counters := rfl
@[simp] theorem State.setRegion_faults (s : State) (r : Nat) (x : Region) : (s.setRegion r x).faults = s.faults := rfl
@[simp] theorem State.setRegion_pow (s : State) (r : Nat) (x : Region) : (s.setRegion r x).pow = s.pow := rfl
@[simp] theorem State.setRegion_fab (s : State) (r : Nat) (x : Region) : (s.setRegion r x).fab = s.fab := rfl
@[simp] theorem State.setRegion_hbm (s : State) (r : Nat) (x : Region) : (s.setRegion r x).hbm = s.hbm := rfl
@[simp] theorem State.setRegion_oap (s : State) (r : Nat) (x : Region) : (s.setRegion r x).oap = s.oap := rfl
@[simp] theorem State.setRegion_therm (s : State) (r : Nat) (x : Region) : (s.setRegion r x).therm = s.therm := rfl
@[simp] theorem State.setRegion_tray (s : State) (r : Nat) (x : Region) : (s.setRegion r x).tray = s.tray := rfl
@[simp] theorem State.setRegion_flashed (s : State) (r : Nat) (x : Region) : (s.setRegion r x).flashed = s.flashed := rfl
@[simp] theorem State.setRegion_start (s : State) (r : Nat) (x : Region) : (s.setRegion r x).start = s.start := rfl
@[simp] theorem State.setRegion_site (s : State) (r : Nat) (x : Region) : (s.setRegion r x).site = s.site := rfl
@[simp] theorem State.setRegion_rind (s : State) (r : Nat) (x : Region) : (s.setRegion r x).rind = s.rind := rfl
@[simp] theorem State.setRegion_fw (s : State) (r : Nat) (x : Region) : (s.setRegion r x).fw = s.fw := rfl
@[simp] theorem State.setRegion_time (s : State) (r : Nat) (x : Region) : (s.setRegion r x).time = s.time := rfl
@[simp] theorem State.setRegion_sched (s : State) (r : Nat) (x : Region) : (s.setRegion r x).sched = s.sched := rfl
@[simp] theorem State.setRegion_cong (s : State) (r : Nat) (x : Region) : (s.setRegion r x).cong = s.cong := rfl
@[simp] theorem State.modRegion_pending (s : State) (r : Nat) (f : Region → Region) : (s.modRegion r f).pending = s.pending := rfl
@[simp] theorem State.modRegion_now (s : State) (r : Nat) (f : Region → Region) : (s.modRegion r f).now = s.now := rfl
@[simp] theorem State.modRegion_runNow (s : State) (r : Nat) (f : Region → Region) : (s.modRegion r f).runNow = s.runNow := rfl
@[simp] theorem State.modRegion_freeCount (s : State) (r : Nat) (f : Region → Region) : (s.modRegion r f).freeCount = s.freeCount := rfl
@[simp] theorem State.modRegion_ftime (s : State) (r : Nat) (f : Region → Region) : (s.modRegion r f).ftime = s.ftime := rfl
@[simp] theorem State.modRegion_poison (s : State) (r : Nat) (f : Region → Region) : (s.modRegion r f).poison = s.poison := rfl
@[simp] theorem State.modRegion_cellErrs (s : State) (r : Nat) (f : Region → Region) : (s.modRegion r f).cellErrs = s.cellErrs := rfl
@[simp] theorem State.modRegion_uncorrectable (s : State) (r : Nat) (f : Region → Region) : (s.modRegion r f).uncorrectable = s.uncorrectable := rfl
@[simp] theorem State.modRegion_barriers (s : State) (r : Nat) (f : Region → Region) : (s.modRegion r f).barriers = s.barriers := rfl
@[simp] theorem State.modRegion_dieMsgs (s : State) (r : Nat) (f : Region → Region) : (s.modRegion r f).dieMsgs = s.dieMsgs := rfl
@[simp] theorem State.modRegion_org (s : State) (r : Nat) (f : Region → Region) : (s.modRegion r f).org = s.org := rfl
@[simp] theorem State.modRegion_job (s : State) (r : Nat) (f : Region → Region) : (s.modRegion r f).job = s.job := rfl
@[simp] theorem State.modRegion_counters (s : State) (r : Nat) (f : Region → Region) : (s.modRegion r f).counters = s.counters := rfl
@[simp] theorem State.modRegion_faults (s : State) (r : Nat) (f : Region → Region) : (s.modRegion r f).faults = s.faults := rfl
@[simp] theorem State.modRegion_pow (s : State) (r : Nat) (f : Region → Region) : (s.modRegion r f).pow = s.pow := rfl
@[simp] theorem State.modRegion_fab (s : State) (r : Nat) (f : Region → Region) : (s.modRegion r f).fab = s.fab := rfl
@[simp] theorem State.modRegion_hbm (s : State) (r : Nat) (f : Region → Region) : (s.modRegion r f).hbm = s.hbm := rfl
@[simp] theorem State.modRegion_oap (s : State) (r : Nat) (f : Region → Region) : (s.modRegion r f).oap = s.oap := rfl
@[simp] theorem State.modRegion_therm (s : State) (r : Nat) (f : Region → Region) : (s.modRegion r f).therm = s.therm := rfl
@[simp] theorem State.modRegion_tray (s : State) (r : Nat) (f : Region → Region) : (s.modRegion r f).tray = s.tray := rfl
@[simp] theorem State.modRegion_flashed (s : State) (r : Nat) (f : Region → Region) : (s.modRegion r f).flashed = s.flashed := rfl
@[simp] theorem State.modRegion_start (s : State) (r : Nat) (f : Region → Region) : (s.modRegion r f).start = s.start := rfl
@[simp] theorem State.modRegion_site (s : State) (r : Nat) (f : Region → Region) : (s.modRegion r f).site = s.site := rfl
@[simp] theorem State.modRegion_rind (s : State) (r : Nat) (f : Region → Region) : (s.modRegion r f).rind = s.rind := rfl
@[simp] theorem State.modRegion_fw (s : State) (r : Nat) (f : Region → Region) : (s.modRegion r f).fw = s.fw := rfl
@[simp] theorem State.modRegion_time (s : State) (r : Nat) (f : Region → Region) : (s.modRegion r f).time = s.time := rfl
@[simp] theorem State.modRegion_sched (s : State) (r : Nat) (f : Region → Region) : (s.modRegion r f).sched = s.sched := rfl
@[simp] theorem State.modRegion_cong (s : State) (r : Nat) (f : Region → Region) : (s.modRegion r f).cong = s.cong := rfl
@[simp] theorem State.setCtx_pending (s : State) (n : Nat) (b : Barrier) : (s.setCtx n b).pending = s.pending := rfl
@[simp] theorem State.setCtx_now (s : State) (n : Nat) (b : Barrier) : (s.setCtx n b).now = s.now := rfl
@[simp] theorem State.setCtx_runNow (s : State) (n : Nat) (b : Barrier) : (s.setCtx n b).runNow = s.runNow := rfl
@[simp] theorem State.setCtx_freeCount (s : State) (n : Nat) (b : Barrier) : (s.setCtx n b).freeCount = s.freeCount := rfl
@[simp] theorem State.setCtx_ftime (s : State) (n : Nat) (b : Barrier) : (s.setCtx n b).ftime = s.ftime := rfl
@[simp] theorem State.setCtx_poison (s : State) (n : Nat) (b : Barrier) : (s.setCtx n b).poison = s.poison := rfl
@[simp] theorem State.setCtx_cellErrs (s : State) (n : Nat) (b : Barrier) : (s.setCtx n b).cellErrs = s.cellErrs := rfl
@[simp] theorem State.setCtx_uncorrectable (s : State) (n : Nat) (b : Barrier) : (s.setCtx n b).uncorrectable = s.uncorrectable := rfl
@[simp] theorem State.setCtx_regions (s : State) (n : Nat) (b : Barrier) : (s.setCtx n b).regions = s.regions := rfl
@[simp] theorem State.setCtx_dieMsgs (s : State) (n : Nat) (b : Barrier) : (s.setCtx n b).dieMsgs = s.dieMsgs := rfl
@[simp] theorem State.setCtx_org (s : State) (n : Nat) (b : Barrier) : (s.setCtx n b).org = s.org := rfl
@[simp] theorem State.setCtx_job (s : State) (n : Nat) (b : Barrier) : (s.setCtx n b).job = s.job := rfl
@[simp] theorem State.setCtx_counters (s : State) (n : Nat) (b : Barrier) : (s.setCtx n b).counters = s.counters := rfl
@[simp] theorem State.setCtx_faults (s : State) (n : Nat) (b : Barrier) : (s.setCtx n b).faults = s.faults := rfl
@[simp] theorem State.setCtx_pow (s : State) (n : Nat) (b : Barrier) : (s.setCtx n b).pow = s.pow := rfl
@[simp] theorem State.setCtx_fab (s : State) (n : Nat) (b : Barrier) : (s.setCtx n b).fab = s.fab := rfl
@[simp] theorem State.setCtx_hbm (s : State) (n : Nat) (b : Barrier) : (s.setCtx n b).hbm = s.hbm := rfl
@[simp] theorem State.setCtx_oap (s : State) (n : Nat) (b : Barrier) : (s.setCtx n b).oap = s.oap := rfl
@[simp] theorem State.setCtx_therm (s : State) (n : Nat) (b : Barrier) : (s.setCtx n b).therm = s.therm := rfl
@[simp] theorem State.setCtx_tray (s : State) (n : Nat) (b : Barrier) : (s.setCtx n b).tray = s.tray := rfl
@[simp] theorem State.setCtx_flashed (s : State) (n : Nat) (b : Barrier) : (s.setCtx n b).flashed = s.flashed := rfl
@[simp] theorem State.setCtx_start (s : State) (n : Nat) (b : Barrier) : (s.setCtx n b).start = s.start := rfl
@[simp] theorem State.setCtx_site (s : State) (n : Nat) (b : Barrier) : (s.setCtx n b).site = s.site := rfl
@[simp] theorem State.setCtx_rind (s : State) (n : Nat) (b : Barrier) : (s.setCtx n b).rind = s.rind := rfl
@[simp] theorem State.setCtx_fw (s : State) (n : Nat) (b : Barrier) : (s.setCtx n b).fw = s.fw := rfl
@[simp] theorem State.setCtx_time (s : State) (n : Nat) (b : Barrier) : (s.setCtx n b).time = s.time := rfl
@[simp] theorem State.setCtx_sched (s : State) (n : Nat) (b : Barrier) : (s.setCtx n b).sched = s.sched := rfl
@[simp] theorem State.setCtx_cong (s : State) (n : Nat) (b : Barrier) : (s.setCtx n b).cong = s.cong := rfl
@[simp] theorem State.setStack_pending (s : State) (n : Nat) (x : Stack) : (s.setStack n x).pending = s.pending := rfl
@[simp] theorem State.setStack_now (s : State) (n : Nat) (x : Stack) : (s.setStack n x).now = s.now := rfl
@[simp] theorem State.setStack_runNow (s : State) (n : Nat) (x : Stack) : (s.setStack n x).runNow = s.runNow := rfl
@[simp] theorem State.setStack_freeCount (s : State) (n : Nat) (x : Stack) : (s.setStack n x).freeCount = s.freeCount := rfl
@[simp] theorem State.setStack_ftime (s : State) (n : Nat) (x : Stack) : (s.setStack n x).ftime = s.ftime := rfl
@[simp] theorem State.setStack_poison (s : State) (n : Nat) (x : Stack) : (s.setStack n x).poison = s.poison := rfl
@[simp] theorem State.setStack_cellErrs (s : State) (n : Nat) (x : Stack) : (s.setStack n x).cellErrs = s.cellErrs := rfl
@[simp] theorem State.setStack_uncorrectable (s : State) (n : Nat) (x : Stack) : (s.setStack n x).uncorrectable = s.uncorrectable := rfl
@[simp] theorem State.setStack_regions (s : State) (n : Nat) (x : Stack) : (s.setStack n x).regions = s.regions := rfl
@[simp] theorem State.setStack_barriers (s : State) (n : Nat) (x : Stack) : (s.setStack n x).barriers = s.barriers := rfl
@[simp] theorem State.setStack_dieMsgs (s : State) (n : Nat) (x : Stack) : (s.setStack n x).dieMsgs = s.dieMsgs := rfl
@[simp] theorem State.setStack_org (s : State) (n : Nat) (x : Stack) : (s.setStack n x).org = s.org := rfl
@[simp] theorem State.setStack_job (s : State) (n : Nat) (x : Stack) : (s.setStack n x).job = s.job := rfl
@[simp] theorem State.setStack_counters (s : State) (n : Nat) (x : Stack) : (s.setStack n x).counters = s.counters := rfl
@[simp] theorem State.setStack_faults (s : State) (n : Nat) (x : Stack) : (s.setStack n x).faults = s.faults := rfl
@[simp] theorem State.setStack_pow (s : State) (n : Nat) (x : Stack) : (s.setStack n x).pow = s.pow := rfl
@[simp] theorem State.setStack_fab (s : State) (n : Nat) (x : Stack) : (s.setStack n x).fab = s.fab := rfl
@[simp] theorem State.setStack_oap (s : State) (n : Nat) (x : Stack) : (s.setStack n x).oap = s.oap := rfl
@[simp] theorem State.setStack_therm (s : State) (n : Nat) (x : Stack) : (s.setStack n x).therm = s.therm := rfl
@[simp] theorem State.setStack_tray (s : State) (n : Nat) (x : Stack) : (s.setStack n x).tray = s.tray := rfl
@[simp] theorem State.setStack_flashed (s : State) (n : Nat) (x : Stack) : (s.setStack n x).flashed = s.flashed := rfl
@[simp] theorem State.setStack_start (s : State) (n : Nat) (x : Stack) : (s.setStack n x).start = s.start := rfl
@[simp] theorem State.setStack_site (s : State) (n : Nat) (x : Stack) : (s.setStack n x).site = s.site := rfl
@[simp] theorem State.setStack_rind (s : State) (n : Nat) (x : Stack) : (s.setStack n x).rind = s.rind := rfl
@[simp] theorem State.setStack_fw (s : State) (n : Nat) (x : Stack) : (s.setStack n x).fw = s.fw := rfl
@[simp] theorem State.setStack_time (s : State) (n : Nat) (x : Stack) : (s.setStack n x).time = s.time := rfl
@[simp] theorem State.setStack_sched (s : State) (n : Nat) (x : Stack) : (s.setStack n x).sched = s.sched := rfl
@[simp] theorem State.setStack_cong (s : State) (n : Nat) (x : Stack) : (s.setStack n x).cong = s.cong := rfl
@[simp] theorem State.modStack_pending (s : State) (n : Nat) (f : Stack → Stack) : (s.modStack n f).pending = s.pending := rfl
@[simp] theorem State.modStack_now (s : State) (n : Nat) (f : Stack → Stack) : (s.modStack n f).now = s.now := rfl
@[simp] theorem State.modStack_runNow (s : State) (n : Nat) (f : Stack → Stack) : (s.modStack n f).runNow = s.runNow := rfl
@[simp] theorem State.modStack_freeCount (s : State) (n : Nat) (f : Stack → Stack) : (s.modStack n f).freeCount = s.freeCount := rfl
@[simp] theorem State.modStack_ftime (s : State) (n : Nat) (f : Stack → Stack) : (s.modStack n f).ftime = s.ftime := rfl
@[simp] theorem State.modStack_poison (s : State) (n : Nat) (f : Stack → Stack) : (s.modStack n f).poison = s.poison := rfl
@[simp] theorem State.modStack_cellErrs (s : State) (n : Nat) (f : Stack → Stack) : (s.modStack n f).cellErrs = s.cellErrs := rfl
@[simp] theorem State.modStack_uncorrectable (s : State) (n : Nat) (f : Stack → Stack) : (s.modStack n f).uncorrectable = s.uncorrectable := rfl
@[simp] theorem State.modStack_regions (s : State) (n : Nat) (f : Stack → Stack) : (s.modStack n f).regions = s.regions := rfl
@[simp] theorem State.modStack_barriers (s : State) (n : Nat) (f : Stack → Stack) : (s.modStack n f).barriers = s.barriers := rfl
@[simp] theorem State.modStack_dieMsgs (s : State) (n : Nat) (f : Stack → Stack) : (s.modStack n f).dieMsgs = s.dieMsgs := rfl
@[simp] theorem State.modStack_org (s : State) (n : Nat) (f : Stack → Stack) : (s.modStack n f).org = s.org := rfl
@[simp] theorem State.modStack_job (s : State) (n : Nat) (f : Stack → Stack) : (s.modStack n f).job = s.job := rfl
@[simp] theorem State.modStack_counters (s : State) (n : Nat) (f : Stack → Stack) : (s.modStack n f).counters = s.counters := rfl
@[simp] theorem State.modStack_faults (s : State) (n : Nat) (f : Stack → Stack) : (s.modStack n f).faults = s.faults := rfl
@[simp] theorem State.modStack_pow (s : State) (n : Nat) (f : Stack → Stack) : (s.modStack n f).pow = s.pow := rfl
@[simp] theorem State.modStack_fab (s : State) (n : Nat) (f : Stack → Stack) : (s.modStack n f).fab = s.fab := rfl
@[simp] theorem State.modStack_oap (s : State) (n : Nat) (f : Stack → Stack) : (s.modStack n f).oap = s.oap := rfl
@[simp] theorem State.modStack_therm (s : State) (n : Nat) (f : Stack → Stack) : (s.modStack n f).therm = s.therm := rfl
@[simp] theorem State.modStack_tray (s : State) (n : Nat) (f : Stack → Stack) : (s.modStack n f).tray = s.tray := rfl
@[simp] theorem State.modStack_flashed (s : State) (n : Nat) (f : Stack → Stack) : (s.modStack n f).flashed = s.flashed := rfl
@[simp] theorem State.modStack_start (s : State) (n : Nat) (f : Stack → Stack) : (s.modStack n f).start = s.start := rfl
@[simp] theorem State.modStack_site (s : State) (n : Nat) (f : Stack → Stack) : (s.modStack n f).site = s.site := rfl
@[simp] theorem State.modStack_rind (s : State) (n : Nat) (f : Stack → Stack) : (s.modStack n f).rind = s.rind := rfl
@[simp] theorem State.modStack_fw (s : State) (n : Nat) (f : Stack → Stack) : (s.modStack n f).fw = s.fw := rfl
@[simp] theorem State.modStack_time (s : State) (n : Nat) (f : Stack → Stack) : (s.modStack n f).time = s.time := rfl
@[simp] theorem State.modStack_sched (s : State) (n : Nat) (f : Stack → Stack) : (s.modStack n f).sched = s.sched := rfl
@[simp] theorem State.modStack_cong (s : State) (n : Nat) (f : Stack → Stack) : (s.modStack n f).cong = s.cong := rfl
@[simp] theorem State.setDie_pending (s : State) (d : Die) (x : DieSt) : (s.setDie d x).pending = s.pending := by
  cases d <;> rfl
@[simp] theorem State.setDie_now (s : State) (d : Die) (x : DieSt) : (s.setDie d x).now = s.now := by
  cases d <;> rfl
@[simp] theorem State.setDie_runNow (s : State) (d : Die) (x : DieSt) : (s.setDie d x).runNow = s.runNow := by
  cases d <;> rfl
@[simp] theorem State.setDie_freeCount (s : State) (d : Die) (x : DieSt) : (s.setDie d x).freeCount = s.freeCount := by
  cases d <;> rfl
@[simp] theorem State.setDie_ftime (s : State) (d : Die) (x : DieSt) : (s.setDie d x).ftime = s.ftime := by
  cases d <;> rfl
@[simp] theorem State.setDie_poison (s : State) (d : Die) (x : DieSt) : (s.setDie d x).poison = s.poison := by
  cases d <;> rfl
@[simp] theorem State.setDie_cellErrs (s : State) (d : Die) (x : DieSt) : (s.setDie d x).cellErrs = s.cellErrs := by
  cases d <;> rfl
@[simp] theorem State.setDie_uncorrectable (s : State) (d : Die) (x : DieSt) : (s.setDie d x).uncorrectable = s.uncorrectable := by
  cases d <;> rfl
@[simp] theorem State.setDie_regions (s : State) (d : Die) (x : DieSt) : (s.setDie d x).regions = s.regions := by
  cases d <;> rfl
@[simp] theorem State.setDie_barriers (s : State) (d : Die) (x : DieSt) : (s.setDie d x).barriers = s.barriers := by
  cases d <;> rfl
@[simp] theorem State.setDie_dieMsgs (s : State) (d : Die) (x : DieSt) : (s.setDie d x).dieMsgs = s.dieMsgs := by
  cases d <;> rfl
@[simp] theorem State.setDie_org (s : State) (d : Die) (x : DieSt) : (s.setDie d x).org = s.org := by
  cases d <;> rfl
@[simp] theorem State.setDie_job (s : State) (d : Die) (x : DieSt) : (s.setDie d x).job = s.job := by
  cases d <;> rfl
@[simp] theorem State.setDie_counters (s : State) (d : Die) (x : DieSt) : (s.setDie d x).counters = s.counters := by
  cases d <;> rfl
@[simp] theorem State.setDie_faults (s : State) (d : Die) (x : DieSt) : (s.setDie d x).faults = s.faults := by
  cases d <;> rfl
@[simp] theorem State.setDie_pow (s : State) (d : Die) (x : DieSt) : (s.setDie d x).pow = s.pow := by
  cases d <;> rfl
@[simp] theorem State.setDie_hbm (s : State) (d : Die) (x : DieSt) : (s.setDie d x).hbm = s.hbm := by
  cases d <;> rfl
@[simp] theorem State.setDie_oap (s : State) (d : Die) (x : DieSt) : (s.setDie d x).oap = s.oap := by
  cases d <;> rfl
@[simp] theorem State.setDie_therm (s : State) (d : Die) (x : DieSt) : (s.setDie d x).therm = s.therm := by
  cases d <;> rfl
@[simp] theorem State.setDie_tray (s : State) (d : Die) (x : DieSt) : (s.setDie d x).tray = s.tray := by
  cases d <;> rfl
@[simp] theorem State.setDie_flashed (s : State) (d : Die) (x : DieSt) : (s.setDie d x).flashed = s.flashed := by
  cases d <;> rfl
@[simp] theorem State.setDie_start (s : State) (d : Die) (x : DieSt) : (s.setDie d x).start = s.start := by
  cases d <;> rfl
@[simp] theorem State.setDie_site (s : State) (d : Die) (x : DieSt) : (s.setDie d x).site = s.site := by
  cases d <;> rfl
@[simp] theorem State.setDie_rind (s : State) (d : Die) (x : DieSt) : (s.setDie d x).rind = s.rind := by
  cases d <;> rfl
@[simp] theorem State.setDie_fw (s : State) (d : Die) (x : DieSt) : (s.setDie d x).fw = s.fw := by
  cases d <;> rfl
@[simp] theorem State.setDie_time (s : State) (d : Die) (x : DieSt) : (s.setDie d x).time = s.time := by
  cases d <;> rfl
@[simp] theorem State.setDie_sched (s : State) (d : Die) (x : DieSt) : (s.setDie d x).sched = s.sched := by
  cases d <;> rfl
@[simp] theorem State.setDie_cong (s : State) (d : Die) (x : DieSt) : (s.setDie d x).cong = s.cong := by
  cases d <;> rfl
@[simp] theorem State.modDie_pending (s : State) (d : Die) (f : DieSt → DieSt) : (s.modDie d f).pending = s.pending := by
  cases d <;> rfl
@[simp] theorem State.modDie_now (s : State) (d : Die) (f : DieSt → DieSt) : (s.modDie d f).now = s.now := by
  cases d <;> rfl
@[simp] theorem State.modDie_runNow (s : State) (d : Die) (f : DieSt → DieSt) : (s.modDie d f).runNow = s.runNow := by
  cases d <;> rfl
@[simp] theorem State.modDie_freeCount (s : State) (d : Die) (f : DieSt → DieSt) : (s.modDie d f).freeCount = s.freeCount := by
  cases d <;> rfl
@[simp] theorem State.modDie_ftime (s : State) (d : Die) (f : DieSt → DieSt) : (s.modDie d f).ftime = s.ftime := by
  cases d <;> rfl
@[simp] theorem State.modDie_poison (s : State) (d : Die) (f : DieSt → DieSt) : (s.modDie d f).poison = s.poison := by
  cases d <;> rfl
@[simp] theorem State.modDie_cellErrs (s : State) (d : Die) (f : DieSt → DieSt) : (s.modDie d f).cellErrs = s.cellErrs := by
  cases d <;> rfl
@[simp] theorem State.modDie_uncorrectable (s : State) (d : Die) (f : DieSt → DieSt) : (s.modDie d f).uncorrectable = s.uncorrectable := by
  cases d <;> rfl
@[simp] theorem State.modDie_regions (s : State) (d : Die) (f : DieSt → DieSt) : (s.modDie d f).regions = s.regions := by
  cases d <;> rfl
@[simp] theorem State.modDie_barriers (s : State) (d : Die) (f : DieSt → DieSt) : (s.modDie d f).barriers = s.barriers := by
  cases d <;> rfl
@[simp] theorem State.modDie_dieMsgs (s : State) (d : Die) (f : DieSt → DieSt) : (s.modDie d f).dieMsgs = s.dieMsgs := by
  cases d <;> rfl
@[simp] theorem State.modDie_org (s : State) (d : Die) (f : DieSt → DieSt) : (s.modDie d f).org = s.org := by
  cases d <;> rfl
@[simp] theorem State.modDie_job (s : State) (d : Die) (f : DieSt → DieSt) : (s.modDie d f).job = s.job := by
  cases d <;> rfl
@[simp] theorem State.modDie_counters (s : State) (d : Die) (f : DieSt → DieSt) : (s.modDie d f).counters = s.counters := by
  cases d <;> rfl
@[simp] theorem State.modDie_faults (s : State) (d : Die) (f : DieSt → DieSt) : (s.modDie d f).faults = s.faults := by
  cases d <;> rfl
@[simp] theorem State.modDie_pow (s : State) (d : Die) (f : DieSt → DieSt) : (s.modDie d f).pow = s.pow := by
  cases d <;> rfl
@[simp] theorem State.modDie_hbm (s : State) (d : Die) (f : DieSt → DieSt) : (s.modDie d f).hbm = s.hbm := by
  cases d <;> rfl
@[simp] theorem State.modDie_oap (s : State) (d : Die) (f : DieSt → DieSt) : (s.modDie d f).oap = s.oap := by
  cases d <;> rfl
@[simp] theorem State.modDie_therm (s : State) (d : Die) (f : DieSt → DieSt) : (s.modDie d f).therm = s.therm := by
  cases d <;> rfl
@[simp] theorem State.modDie_tray (s : State) (d : Die) (f : DieSt → DieSt) : (s.modDie d f).tray = s.tray := by
  cases d <;> rfl
@[simp] theorem State.modDie_flashed (s : State) (d : Die) (f : DieSt → DieSt) : (s.modDie d f).flashed = s.flashed := by
  cases d <;> rfl
@[simp] theorem State.modDie_start (s : State) (d : Die) (f : DieSt → DieSt) : (s.modDie d f).start = s.start := by
  cases d <;> rfl
@[simp] theorem State.modDie_site (s : State) (d : Die) (f : DieSt → DieSt) : (s.modDie d f).site = s.site := by
  cases d <;> rfl
@[simp] theorem State.modDie_rind (s : State) (d : Die) (f : DieSt → DieSt) : (s.modDie d f).rind = s.rind := by
  cases d <;> rfl
@[simp] theorem State.modDie_fw (s : State) (d : Die) (f : DieSt → DieSt) : (s.modDie d f).fw = s.fw := by
  cases d <;> rfl
@[simp] theorem State.modDie_time (s : State) (d : Die) (f : DieSt → DieSt) : (s.modDie d f).time = s.time := by
  cases d <;> rfl
@[simp] theorem State.modDie_sched (s : State) (d : Die) (f : DieSt → DieSt) : (s.modDie d f).sched = s.sched := by
  cases d <;> rfl
@[simp] theorem State.modDie_cong (s : State) (d : Die) (f : DieSt → DieSt) : (s.modDie d f).cong = s.cong := by
  cases d <;> rfl
@[simp] theorem State.setFlow_pending (s : State) (i : Nat) (f : Flow) : (s.setFlow i f).pending = s.pending := rfl
@[simp] theorem State.setFlow_now (s : State) (i : Nat) (f : Flow) : (s.setFlow i f).now = s.now := rfl
@[simp] theorem State.setFlow_runNow (s : State) (i : Nat) (f : Flow) : (s.setFlow i f).runNow = s.runNow := rfl
@[simp] theorem State.setFlow_freeCount (s : State) (i : Nat) (f : Flow) : (s.setFlow i f).freeCount = s.freeCount := rfl
@[simp] theorem State.setFlow_ftime (s : State) (i : Nat) (f : Flow) : (s.setFlow i f).ftime = s.ftime := rfl
@[simp] theorem State.setFlow_poison (s : State) (i : Nat) (f : Flow) : (s.setFlow i f).poison = s.poison := rfl
@[simp] theorem State.setFlow_cellErrs (s : State) (i : Nat) (f : Flow) : (s.setFlow i f).cellErrs = s.cellErrs := rfl
@[simp] theorem State.setFlow_uncorrectable (s : State) (i : Nat) (f : Flow) : (s.setFlow i f).uncorrectable = s.uncorrectable := rfl
@[simp] theorem State.setFlow_regions (s : State) (i : Nat) (f : Flow) : (s.setFlow i f).regions = s.regions := rfl
@[simp] theorem State.setFlow_barriers (s : State) (i : Nat) (f : Flow) : (s.setFlow i f).barriers = s.barriers := rfl
@[simp] theorem State.setFlow_dieMsgs (s : State) (i : Nat) (f : Flow) : (s.setFlow i f).dieMsgs = s.dieMsgs := rfl
@[simp] theorem State.setFlow_org (s : State) (i : Nat) (f : Flow) : (s.setFlow i f).org = s.org := rfl
@[simp] theorem State.setFlow_job (s : State) (i : Nat) (f : Flow) : (s.setFlow i f).job = s.job := rfl
@[simp] theorem State.setFlow_counters (s : State) (i : Nat) (f : Flow) : (s.setFlow i f).counters = s.counters := rfl
@[simp] theorem State.setFlow_faults (s : State) (i : Nat) (f : Flow) : (s.setFlow i f).faults = s.faults := rfl
@[simp] theorem State.setFlow_pow (s : State) (i : Nat) (f : Flow) : (s.setFlow i f).pow = s.pow := rfl
@[simp] theorem State.setFlow_hbm (s : State) (i : Nat) (f : Flow) : (s.setFlow i f).hbm = s.hbm := rfl
@[simp] theorem State.setFlow_oap (s : State) (i : Nat) (f : Flow) : (s.setFlow i f).oap = s.oap := rfl
@[simp] theorem State.setFlow_therm (s : State) (i : Nat) (f : Flow) : (s.setFlow i f).therm = s.therm := rfl
@[simp] theorem State.setFlow_tray (s : State) (i : Nat) (f : Flow) : (s.setFlow i f).tray = s.tray := rfl
@[simp] theorem State.setFlow_flashed (s : State) (i : Nat) (f : Flow) : (s.setFlow i f).flashed = s.flashed := rfl
@[simp] theorem State.setFlow_start (s : State) (i : Nat) (f : Flow) : (s.setFlow i f).start = s.start := rfl
@[simp] theorem State.setFlow_site (s : State) (i : Nat) (f : Flow) : (s.setFlow i f).site = s.site := rfl
@[simp] theorem State.setFlow_rind (s : State) (i : Nat) (f : Flow) : (s.setFlow i f).rind = s.rind := rfl
@[simp] theorem State.setFlow_fw (s : State) (i : Nat) (f : Flow) : (s.setFlow i f).fw = s.fw := rfl
@[simp] theorem State.setFlow_time (s : State) (i : Nat) (f : Flow) : (s.setFlow i f).time = s.time := rfl
@[simp] theorem State.setFlow_sched (s : State) (i : Nat) (f : Flow) : (s.setFlow i f).sched = s.sched := rfl
@[simp] theorem State.setFlow_cong (s : State) (i : Nat) (f : Flow) : (s.setFlow i f).cong = s.cong := rfl
@[simp] theorem State.modFlow_pending (s : State) (i : Nat) (f : Flow → Flow) : (s.modFlow i f).pending = s.pending := rfl
@[simp] theorem State.modFlow_now (s : State) (i : Nat) (f : Flow → Flow) : (s.modFlow i f).now = s.now := rfl
@[simp] theorem State.modFlow_runNow (s : State) (i : Nat) (f : Flow → Flow) : (s.modFlow i f).runNow = s.runNow := rfl
@[simp] theorem State.modFlow_freeCount (s : State) (i : Nat) (f : Flow → Flow) : (s.modFlow i f).freeCount = s.freeCount := rfl
@[simp] theorem State.modFlow_ftime (s : State) (i : Nat) (f : Flow → Flow) : (s.modFlow i f).ftime = s.ftime := rfl
@[simp] theorem State.modFlow_poison (s : State) (i : Nat) (f : Flow → Flow) : (s.modFlow i f).poison = s.poison := rfl
@[simp] theorem State.modFlow_cellErrs (s : State) (i : Nat) (f : Flow → Flow) : (s.modFlow i f).cellErrs = s.cellErrs := rfl
@[simp] theorem State.modFlow_uncorrectable (s : State) (i : Nat) (f : Flow → Flow) : (s.modFlow i f).uncorrectable = s.uncorrectable := rfl
@[simp] theorem State.modFlow_regions (s : State) (i : Nat) (f : Flow → Flow) : (s.modFlow i f).regions = s.regions := rfl
@[simp] theorem State.modFlow_barriers (s : State) (i : Nat) (f : Flow → Flow) : (s.modFlow i f).barriers = s.barriers := rfl
@[simp] theorem State.modFlow_dieMsgs (s : State) (i : Nat) (f : Flow → Flow) : (s.modFlow i f).dieMsgs = s.dieMsgs := rfl
@[simp] theorem State.modFlow_org (s : State) (i : Nat) (f : Flow → Flow) : (s.modFlow i f).org = s.org := rfl
@[simp] theorem State.modFlow_job (s : State) (i : Nat) (f : Flow → Flow) : (s.modFlow i f).job = s.job := rfl
@[simp] theorem State.modFlow_counters (s : State) (i : Nat) (f : Flow → Flow) : (s.modFlow i f).counters = s.counters := rfl
@[simp] theorem State.modFlow_faults (s : State) (i : Nat) (f : Flow → Flow) : (s.modFlow i f).faults = s.faults := rfl
@[simp] theorem State.modFlow_pow (s : State) (i : Nat) (f : Flow → Flow) : (s.modFlow i f).pow = s.pow := rfl
@[simp] theorem State.modFlow_hbm (s : State) (i : Nat) (f : Flow → Flow) : (s.modFlow i f).hbm = s.hbm := rfl
@[simp] theorem State.modFlow_oap (s : State) (i : Nat) (f : Flow → Flow) : (s.modFlow i f).oap = s.oap := rfl
@[simp] theorem State.modFlow_therm (s : State) (i : Nat) (f : Flow → Flow) : (s.modFlow i f).therm = s.therm := rfl
@[simp] theorem State.modFlow_tray (s : State) (i : Nat) (f : Flow → Flow) : (s.modFlow i f).tray = s.tray := rfl
@[simp] theorem State.modFlow_flashed (s : State) (i : Nat) (f : Flow → Flow) : (s.modFlow i f).flashed = s.flashed := rfl
@[simp] theorem State.modFlow_start (s : State) (i : Nat) (f : Flow → Flow) : (s.modFlow i f).start = s.start := rfl
@[simp] theorem State.modFlow_site (s : State) (i : Nat) (f : Flow → Flow) : (s.modFlow i f).site = s.site := rfl
@[simp] theorem State.modFlow_rind (s : State) (i : Nat) (f : Flow → Flow) : (s.modFlow i f).rind = s.rind := rfl
@[simp] theorem State.modFlow_fw (s : State) (i : Nat) (f : Flow → Flow) : (s.modFlow i f).fw = s.fw := rfl
@[simp] theorem State.modFlow_time (s : State) (i : Nat) (f : Flow → Flow) : (s.modFlow i f).time = s.time := rfl
@[simp] theorem State.modFlow_sched (s : State) (i : Nat) (f : Flow → Flow) : (s.modFlow i f).sched = s.sched := rfl
@[simp] theorem State.modFlow_cong (s : State) (i : Nat) (f : Flow → Flow) : (s.modFlow i f).cong = s.cong := rfl
@[simp] theorem State.setPort_pending (s : State) (p : Nat) (x : Port) : (s.setPort p x).pending = s.pending := rfl
@[simp] theorem State.setPort_now (s : State) (p : Nat) (x : Port) : (s.setPort p x).now = s.now := rfl
@[simp] theorem State.setPort_runNow (s : State) (p : Nat) (x : Port) : (s.setPort p x).runNow = s.runNow := rfl
@[simp] theorem State.setPort_freeCount (s : State) (p : Nat) (x : Port) : (s.setPort p x).freeCount = s.freeCount := rfl
@[simp] theorem State.setPort_ftime (s : State) (p : Nat) (x : Port) : (s.setPort p x).ftime = s.ftime := rfl
@[simp] theorem State.setPort_poison (s : State) (p : Nat) (x : Port) : (s.setPort p x).poison = s.poison := rfl
@[simp] theorem State.setPort_cellErrs (s : State) (p : Nat) (x : Port) : (s.setPort p x).cellErrs = s.cellErrs := rfl
@[simp] theorem State.setPort_uncorrectable (s : State) (p : Nat) (x : Port) : (s.setPort p x).uncorrectable = s.uncorrectable := rfl
@[simp] theorem State.setPort_regions (s : State) (p : Nat) (x : Port) : (s.setPort p x).regions = s.regions := rfl
@[simp] theorem State.setPort_barriers (s : State) (p : Nat) (x : Port) : (s.setPort p x).barriers = s.barriers := rfl
@[simp] theorem State.setPort_dieMsgs (s : State) (p : Nat) (x : Port) : (s.setPort p x).dieMsgs = s.dieMsgs := rfl
@[simp] theorem State.setPort_org (s : State) (p : Nat) (x : Port) : (s.setPort p x).org = s.org := rfl
@[simp] theorem State.setPort_job (s : State) (p : Nat) (x : Port) : (s.setPort p x).job = s.job := rfl
@[simp] theorem State.setPort_counters (s : State) (p : Nat) (x : Port) : (s.setPort p x).counters = s.counters := rfl
@[simp] theorem State.setPort_faults (s : State) (p : Nat) (x : Port) : (s.setPort p x).faults = s.faults := rfl
@[simp] theorem State.setPort_pow (s : State) (p : Nat) (x : Port) : (s.setPort p x).pow = s.pow := rfl
@[simp] theorem State.setPort_hbm (s : State) (p : Nat) (x : Port) : (s.setPort p x).hbm = s.hbm := rfl
@[simp] theorem State.setPort_oap (s : State) (p : Nat) (x : Port) : (s.setPort p x).oap = s.oap := rfl
@[simp] theorem State.setPort_therm (s : State) (p : Nat) (x : Port) : (s.setPort p x).therm = s.therm := rfl
@[simp] theorem State.setPort_tray (s : State) (p : Nat) (x : Port) : (s.setPort p x).tray = s.tray := rfl
@[simp] theorem State.setPort_flashed (s : State) (p : Nat) (x : Port) : (s.setPort p x).flashed = s.flashed := rfl
@[simp] theorem State.setPort_start (s : State) (p : Nat) (x : Port) : (s.setPort p x).start = s.start := rfl
@[simp] theorem State.setPort_site (s : State) (p : Nat) (x : Port) : (s.setPort p x).site = s.site := rfl
@[simp] theorem State.setPort_rind (s : State) (p : Nat) (x : Port) : (s.setPort p x).rind = s.rind := rfl
@[simp] theorem State.setPort_fw (s : State) (p : Nat) (x : Port) : (s.setPort p x).fw = s.fw := rfl
@[simp] theorem State.setPort_time (s : State) (p : Nat) (x : Port) : (s.setPort p x).time = s.time := rfl
@[simp] theorem State.setPort_sched (s : State) (p : Nat) (x : Port) : (s.setPort p x).sched = s.sched := rfl
@[simp] theorem State.setPort_cong (s : State) (p : Nat) (x : Port) : (s.setPort p x).cong = s.cong := rfl
@[simp] theorem State.modPort_pending (s : State) (p : Nat) (f : Port → Port) : (s.modPort p f).pending = s.pending := rfl
@[simp] theorem State.modPort_now (s : State) (p : Nat) (f : Port → Port) : (s.modPort p f).now = s.now := rfl
@[simp] theorem State.modPort_runNow (s : State) (p : Nat) (f : Port → Port) : (s.modPort p f).runNow = s.runNow := rfl
@[simp] theorem State.modPort_freeCount (s : State) (p : Nat) (f : Port → Port) : (s.modPort p f).freeCount = s.freeCount := rfl
@[simp] theorem State.modPort_ftime (s : State) (p : Nat) (f : Port → Port) : (s.modPort p f).ftime = s.ftime := rfl
@[simp] theorem State.modPort_poison (s : State) (p : Nat) (f : Port → Port) : (s.modPort p f).poison = s.poison := rfl
@[simp] theorem State.modPort_cellErrs (s : State) (p : Nat) (f : Port → Port) : (s.modPort p f).cellErrs = s.cellErrs := rfl
@[simp] theorem State.modPort_uncorrectable (s : State) (p : Nat) (f : Port → Port) : (s.modPort p f).uncorrectable = s.uncorrectable := rfl
@[simp] theorem State.modPort_regions (s : State) (p : Nat) (f : Port → Port) : (s.modPort p f).regions = s.regions := rfl
@[simp] theorem State.modPort_barriers (s : State) (p : Nat) (f : Port → Port) : (s.modPort p f).barriers = s.barriers := rfl
@[simp] theorem State.modPort_dieMsgs (s : State) (p : Nat) (f : Port → Port) : (s.modPort p f).dieMsgs = s.dieMsgs := rfl
@[simp] theorem State.modPort_org (s : State) (p : Nat) (f : Port → Port) : (s.modPort p f).org = s.org := rfl
@[simp] theorem State.modPort_job (s : State) (p : Nat) (f : Port → Port) : (s.modPort p f).job = s.job := rfl
@[simp] theorem State.modPort_counters (s : State) (p : Nat) (f : Port → Port) : (s.modPort p f).counters = s.counters := rfl
@[simp] theorem State.modPort_faults (s : State) (p : Nat) (f : Port → Port) : (s.modPort p f).faults = s.faults := rfl
@[simp] theorem State.modPort_pow (s : State) (p : Nat) (f : Port → Port) : (s.modPort p f).pow = s.pow := rfl
@[simp] theorem State.modPort_hbm (s : State) (p : Nat) (f : Port → Port) : (s.modPort p f).hbm = s.hbm := rfl
@[simp] theorem State.modPort_oap (s : State) (p : Nat) (f : Port → Port) : (s.modPort p f).oap = s.oap := rfl
@[simp] theorem State.modPort_therm (s : State) (p : Nat) (f : Port → Port) : (s.modPort p f).therm = s.therm := rfl
@[simp] theorem State.modPort_tray (s : State) (p : Nat) (f : Port → Port) : (s.modPort p f).tray = s.tray := rfl
@[simp] theorem State.modPort_flashed (s : State) (p : Nat) (f : Port → Port) : (s.modPort p f).flashed = s.flashed := rfl
@[simp] theorem State.modPort_start (s : State) (p : Nat) (f : Port → Port) : (s.modPort p f).start = s.start := rfl
@[simp] theorem State.modPort_site (s : State) (p : Nat) (f : Port → Port) : (s.modPort p f).site = s.site := rfl
@[simp] theorem State.modPort_rind (s : State) (p : Nat) (f : Port → Port) : (s.modPort p f).rind = s.rind := rfl
@[simp] theorem State.modPort_fw (s : State) (p : Nat) (f : Port → Port) : (s.modPort p f).fw = s.fw := rfl
@[simp] theorem State.modPort_time (s : State) (p : Nat) (f : Port → Port) : (s.modPort p f).time = s.time := rfl
@[simp] theorem State.modPort_sched (s : State) (p : Nat) (f : Port → Port) : (s.modPort p f).sched = s.sched := rfl
@[simp] theorem State.modPort_cong (s : State) (p : Nat) (f : Port → Port) : (s.modPort p f).cong = s.cong := rfl
@[simp] theorem State.setImage_pending (s : State) (t : Nat) (i : Image) : (s.setImage t i).pending = s.pending := rfl
@[simp] theorem State.setImage_now (s : State) (t : Nat) (i : Image) : (s.setImage t i).now = s.now := rfl
@[simp] theorem State.setImage_runNow (s : State) (t : Nat) (i : Image) : (s.setImage t i).runNow = s.runNow := rfl
@[simp] theorem State.setImage_freeCount (s : State) (t : Nat) (i : Image) : (s.setImage t i).freeCount = s.freeCount := rfl
@[simp] theorem State.setImage_ftime (s : State) (t : Nat) (i : Image) : (s.setImage t i).ftime = s.ftime := rfl
@[simp] theorem State.setImage_poison (s : State) (t : Nat) (i : Image) : (s.setImage t i).poison = s.poison := rfl
@[simp] theorem State.setImage_cellErrs (s : State) (t : Nat) (i : Image) : (s.setImage t i).cellErrs = s.cellErrs := rfl
@[simp] theorem State.setImage_uncorrectable (s : State) (t : Nat) (i : Image) : (s.setImage t i).uncorrectable = s.uncorrectable := rfl
@[simp] theorem State.setImage_regions (s : State) (t : Nat) (i : Image) : (s.setImage t i).regions = s.regions := rfl
@[simp] theorem State.setImage_barriers (s : State) (t : Nat) (i : Image) : (s.setImage t i).barriers = s.barriers := rfl
@[simp] theorem State.setImage_dieMsgs (s : State) (t : Nat) (i : Image) : (s.setImage t i).dieMsgs = s.dieMsgs := rfl
@[simp] theorem State.setImage_org (s : State) (t : Nat) (i : Image) : (s.setImage t i).org = s.org := rfl
@[simp] theorem State.setImage_job (s : State) (t : Nat) (i : Image) : (s.setImage t i).job = s.job := rfl
@[simp] theorem State.setImage_counters (s : State) (t : Nat) (i : Image) : (s.setImage t i).counters = s.counters := rfl
@[simp] theorem State.setImage_faults (s : State) (t : Nat) (i : Image) : (s.setImage t i).faults = s.faults := rfl
@[simp] theorem State.setImage_pow (s : State) (t : Nat) (i : Image) : (s.setImage t i).pow = s.pow := rfl
@[simp] theorem State.setImage_fab (s : State) (t : Nat) (i : Image) : (s.setImage t i).fab = s.fab := rfl
@[simp] theorem State.setImage_hbm (s : State) (t : Nat) (i : Image) : (s.setImage t i).hbm = s.hbm := rfl
@[simp] theorem State.setImage_oap (s : State) (t : Nat) (i : Image) : (s.setImage t i).oap = s.oap := rfl
@[simp] theorem State.setImage_therm (s : State) (t : Nat) (i : Image) : (s.setImage t i).therm = s.therm := rfl
@[simp] theorem State.setImage_tray (s : State) (t : Nat) (i : Image) : (s.setImage t i).tray = s.tray := rfl
@[simp] theorem State.setImage_flashed (s : State) (t : Nat) (i : Image) : (s.setImage t i).flashed = s.flashed := rfl
@[simp] theorem State.setImage_start (s : State) (t : Nat) (i : Image) : (s.setImage t i).start = s.start := rfl
@[simp] theorem State.setImage_site (s : State) (t : Nat) (i : Image) : (s.setImage t i).site = s.site := rfl
@[simp] theorem State.setImage_rind (s : State) (t : Nat) (i : Image) : (s.setImage t i).rind = s.rind := rfl
@[simp] theorem State.setImage_time (s : State) (t : Nat) (i : Image) : (s.setImage t i).time = s.time := rfl
@[simp] theorem State.setImage_sched (s : State) (t : Nat) (i : Image) : (s.setImage t i).sched = s.sched := rfl
@[simp] theorem State.setImage_cong (s : State) (t : Nat) (i : Image) : (s.setImage t i).cong = s.cong := rfl
@[simp] theorem State.setUpdate_pending (s : State) (u : UpdateSt) : (s.setUpdate u).pending = s.pending := rfl
@[simp] theorem State.setUpdate_now (s : State) (u : UpdateSt) : (s.setUpdate u).now = s.now := rfl
@[simp] theorem State.setUpdate_runNow (s : State) (u : UpdateSt) : (s.setUpdate u).runNow = s.runNow := rfl
@[simp] theorem State.setUpdate_freeCount (s : State) (u : UpdateSt) : (s.setUpdate u).freeCount = s.freeCount := rfl
@[simp] theorem State.setUpdate_ftime (s : State) (u : UpdateSt) : (s.setUpdate u).ftime = s.ftime := rfl
@[simp] theorem State.setUpdate_poison (s : State) (u : UpdateSt) : (s.setUpdate u).poison = s.poison := rfl
@[simp] theorem State.setUpdate_cellErrs (s : State) (u : UpdateSt) : (s.setUpdate u).cellErrs = s.cellErrs := rfl
@[simp] theorem State.setUpdate_uncorrectable (s : State) (u : UpdateSt) : (s.setUpdate u).uncorrectable = s.uncorrectable := rfl
@[simp] theorem State.setUpdate_regions (s : State) (u : UpdateSt) : (s.setUpdate u).regions = s.regions := rfl
@[simp] theorem State.setUpdate_barriers (s : State) (u : UpdateSt) : (s.setUpdate u).barriers = s.barriers := rfl
@[simp] theorem State.setUpdate_dieMsgs (s : State) (u : UpdateSt) : (s.setUpdate u).dieMsgs = s.dieMsgs := rfl
@[simp] theorem State.setUpdate_org (s : State) (u : UpdateSt) : (s.setUpdate u).org = s.org := rfl
@[simp] theorem State.setUpdate_job (s : State) (u : UpdateSt) : (s.setUpdate u).job = s.job := rfl
@[simp] theorem State.setUpdate_counters (s : State) (u : UpdateSt) : (s.setUpdate u).counters = s.counters := rfl
@[simp] theorem State.setUpdate_faults (s : State) (u : UpdateSt) : (s.setUpdate u).faults = s.faults := rfl
@[simp] theorem State.setUpdate_pow (s : State) (u : UpdateSt) : (s.setUpdate u).pow = s.pow := rfl
@[simp] theorem State.setUpdate_fab (s : State) (u : UpdateSt) : (s.setUpdate u).fab = s.fab := rfl
@[simp] theorem State.setUpdate_hbm (s : State) (u : UpdateSt) : (s.setUpdate u).hbm = s.hbm := rfl
@[simp] theorem State.setUpdate_oap (s : State) (u : UpdateSt) : (s.setUpdate u).oap = s.oap := rfl
@[simp] theorem State.setUpdate_therm (s : State) (u : UpdateSt) : (s.setUpdate u).therm = s.therm := rfl
@[simp] theorem State.setUpdate_tray (s : State) (u : UpdateSt) : (s.setUpdate u).tray = s.tray := rfl
@[simp] theorem State.setUpdate_flashed (s : State) (u : UpdateSt) : (s.setUpdate u).flashed = s.flashed := rfl
@[simp] theorem State.setUpdate_start (s : State) (u : UpdateSt) : (s.setUpdate u).start = s.start := rfl
@[simp] theorem State.setUpdate_site (s : State) (u : UpdateSt) : (s.setUpdate u).site = s.site := rfl
@[simp] theorem State.setUpdate_rind (s : State) (u : UpdateSt) : (s.setUpdate u).rind = s.rind := rfl
@[simp] theorem State.setUpdate_time (s : State) (u : UpdateSt) : (s.setUpdate u).time = s.time := rfl
@[simp] theorem State.setUpdate_sched (s : State) (u : UpdateSt) : (s.setUpdate u).sched = s.sched := rfl
@[simp] theorem State.setUpdate_cong (s : State) (u : UpdateSt) : (s.setUpdate u).cong = s.cong := rfl
@[simp] theorem State.setPortCounters_pending (s : State) (p : Nat) (u : UnitCounters) : (s.setPortCounters p u).pending = s.pending := rfl
@[simp] theorem State.setPortCounters_now (s : State) (p : Nat) (u : UnitCounters) : (s.setPortCounters p u).now = s.now := rfl
@[simp] theorem State.setPortCounters_runNow (s : State) (p : Nat) (u : UnitCounters) : (s.setPortCounters p u).runNow = s.runNow := rfl
@[simp] theorem State.setPortCounters_freeCount (s : State) (p : Nat) (u : UnitCounters) : (s.setPortCounters p u).freeCount = s.freeCount := rfl
@[simp] theorem State.setPortCounters_ftime (s : State) (p : Nat) (u : UnitCounters) : (s.setPortCounters p u).ftime = s.ftime := rfl
@[simp] theorem State.setPortCounters_poison (s : State) (p : Nat) (u : UnitCounters) : (s.setPortCounters p u).poison = s.poison := rfl
@[simp] theorem State.setPortCounters_cellErrs (s : State) (p : Nat) (u : UnitCounters) : (s.setPortCounters p u).cellErrs = s.cellErrs := rfl
@[simp] theorem State.setPortCounters_uncorrectable (s : State) (p : Nat) (u : UnitCounters) : (s.setPortCounters p u).uncorrectable = s.uncorrectable := rfl
@[simp] theorem State.setPortCounters_regions (s : State) (p : Nat) (u : UnitCounters) : (s.setPortCounters p u).regions = s.regions := rfl
@[simp] theorem State.setPortCounters_barriers (s : State) (p : Nat) (u : UnitCounters) : (s.setPortCounters p u).barriers = s.barriers := rfl
@[simp] theorem State.setPortCounters_dieMsgs (s : State) (p : Nat) (u : UnitCounters) : (s.setPortCounters p u).dieMsgs = s.dieMsgs := rfl
@[simp] theorem State.setPortCounters_org (s : State) (p : Nat) (u : UnitCounters) : (s.setPortCounters p u).org = s.org := rfl
@[simp] theorem State.setPortCounters_job (s : State) (p : Nat) (u : UnitCounters) : (s.setPortCounters p u).job = s.job := rfl
@[simp] theorem State.setPortCounters_faults (s : State) (p : Nat) (u : UnitCounters) : (s.setPortCounters p u).faults = s.faults := rfl
@[simp] theorem State.setPortCounters_pow (s : State) (p : Nat) (u : UnitCounters) : (s.setPortCounters p u).pow = s.pow := rfl
@[simp] theorem State.setPortCounters_fab (s : State) (p : Nat) (u : UnitCounters) : (s.setPortCounters p u).fab = s.fab := rfl
@[simp] theorem State.setPortCounters_hbm (s : State) (p : Nat) (u : UnitCounters) : (s.setPortCounters p u).hbm = s.hbm := rfl
@[simp] theorem State.setPortCounters_oap (s : State) (p : Nat) (u : UnitCounters) : (s.setPortCounters p u).oap = s.oap := rfl
@[simp] theorem State.setPortCounters_therm (s : State) (p : Nat) (u : UnitCounters) : (s.setPortCounters p u).therm = s.therm := rfl
@[simp] theorem State.setPortCounters_tray (s : State) (p : Nat) (u : UnitCounters) : (s.setPortCounters p u).tray = s.tray := rfl
@[simp] theorem State.setPortCounters_flashed (s : State) (p : Nat) (u : UnitCounters) : (s.setPortCounters p u).flashed = s.flashed := rfl
@[simp] theorem State.setPortCounters_start (s : State) (p : Nat) (u : UnitCounters) : (s.setPortCounters p u).start = s.start := rfl
@[simp] theorem State.setPortCounters_site (s : State) (p : Nat) (u : UnitCounters) : (s.setPortCounters p u).site = s.site := rfl
@[simp] theorem State.setPortCounters_rind (s : State) (p : Nat) (u : UnitCounters) : (s.setPortCounters p u).rind = s.rind := rfl
@[simp] theorem State.setPortCounters_fw (s : State) (p : Nat) (u : UnitCounters) : (s.setPortCounters p u).fw = s.fw := rfl
@[simp] theorem State.setPortCounters_time (s : State) (p : Nat) (u : UnitCounters) : (s.setPortCounters p u).time = s.time := rfl
@[simp] theorem State.setPortCounters_sched (s : State) (p : Nat) (u : UnitCounters) : (s.setPortCounters p u).sched = s.sched := rfl
@[simp] theorem State.setPortCounters_cong (s : State) (p : Nat) (u : UnitCounters) : (s.setPortCounters p u).cong = s.cong := rfl
@[simp] theorem State.setHbmCounters_pending (s : State) (n : Nat) (u : UnitCounters) : (s.setHbmCounters n u).pending = s.pending := rfl
@[simp] theorem State.setHbmCounters_now (s : State) (n : Nat) (u : UnitCounters) : (s.setHbmCounters n u).now = s.now := rfl
@[simp] theorem State.setHbmCounters_runNow (s : State) (n : Nat) (u : UnitCounters) : (s.setHbmCounters n u).runNow = s.runNow := rfl
@[simp] theorem State.setHbmCounters_freeCount (s : State) (n : Nat) (u : UnitCounters) : (s.setHbmCounters n u).freeCount = s.freeCount := rfl
@[simp] theorem State.setHbmCounters_ftime (s : State) (n : Nat) (u : UnitCounters) : (s.setHbmCounters n u).ftime = s.ftime := rfl
@[simp] theorem State.setHbmCounters_poison (s : State) (n : Nat) (u : UnitCounters) : (s.setHbmCounters n u).poison = s.poison := rfl
@[simp] theorem State.setHbmCounters_cellErrs (s : State) (n : Nat) (u : UnitCounters) : (s.setHbmCounters n u).cellErrs = s.cellErrs := rfl
@[simp] theorem State.setHbmCounters_uncorrectable (s : State) (n : Nat) (u : UnitCounters) : (s.setHbmCounters n u).uncorrectable = s.uncorrectable := rfl
@[simp] theorem State.setHbmCounters_regions (s : State) (n : Nat) (u : UnitCounters) : (s.setHbmCounters n u).regions = s.regions := rfl
@[simp] theorem State.setHbmCounters_barriers (s : State) (n : Nat) (u : UnitCounters) : (s.setHbmCounters n u).barriers = s.barriers := rfl
@[simp] theorem State.setHbmCounters_dieMsgs (s : State) (n : Nat) (u : UnitCounters) : (s.setHbmCounters n u).dieMsgs = s.dieMsgs := rfl
@[simp] theorem State.setHbmCounters_org (s : State) (n : Nat) (u : UnitCounters) : (s.setHbmCounters n u).org = s.org := rfl
@[simp] theorem State.setHbmCounters_job (s : State) (n : Nat) (u : UnitCounters) : (s.setHbmCounters n u).job = s.job := rfl
@[simp] theorem State.setHbmCounters_faults (s : State) (n : Nat) (u : UnitCounters) : (s.setHbmCounters n u).faults = s.faults := rfl
@[simp] theorem State.setHbmCounters_pow (s : State) (n : Nat) (u : UnitCounters) : (s.setHbmCounters n u).pow = s.pow := rfl
@[simp] theorem State.setHbmCounters_fab (s : State) (n : Nat) (u : UnitCounters) : (s.setHbmCounters n u).fab = s.fab := rfl
@[simp] theorem State.setHbmCounters_hbm (s : State) (n : Nat) (u : UnitCounters) : (s.setHbmCounters n u).hbm = s.hbm := rfl
@[simp] theorem State.setHbmCounters_oap (s : State) (n : Nat) (u : UnitCounters) : (s.setHbmCounters n u).oap = s.oap := rfl
@[simp] theorem State.setHbmCounters_therm (s : State) (n : Nat) (u : UnitCounters) : (s.setHbmCounters n u).therm = s.therm := rfl
@[simp] theorem State.setHbmCounters_tray (s : State) (n : Nat) (u : UnitCounters) : (s.setHbmCounters n u).tray = s.tray := rfl
@[simp] theorem State.setHbmCounters_flashed (s : State) (n : Nat) (u : UnitCounters) : (s.setHbmCounters n u).flashed = s.flashed := rfl
@[simp] theorem State.setHbmCounters_start (s : State) (n : Nat) (u : UnitCounters) : (s.setHbmCounters n u).start = s.start := rfl
@[simp] theorem State.setHbmCounters_site (s : State) (n : Nat) (u : UnitCounters) : (s.setHbmCounters n u).site = s.site := rfl
@[simp] theorem State.setHbmCounters_rind (s : State) (n : Nat) (u : UnitCounters) : (s.setHbmCounters n u).rind = s.rind := rfl
@[simp] theorem State.setHbmCounters_fw (s : State) (n : Nat) (u : UnitCounters) : (s.setHbmCounters n u).fw = s.fw := rfl
@[simp] theorem State.setHbmCounters_time (s : State) (n : Nat) (u : UnitCounters) : (s.setHbmCounters n u).time = s.time := rfl
@[simp] theorem State.setHbmCounters_sched (s : State) (n : Nat) (u : UnitCounters) : (s.setHbmCounters n u).sched = s.sched := rfl
@[simp] theorem State.setHbmCounters_cong (s : State) (n : Nat) (u : UnitCounters) : (s.setHbmCounters n u).cong = s.cong := rfl
@[simp] theorem State.notify_pending (s : State) (obj : Nat) : (s.notify obj).pending = s.pending := rfl
@[simp] theorem State.notify_now (s : State) (obj : Nat) : (s.notify obj).now = s.now := rfl
@[simp] theorem State.notify_runNow (s : State) (obj : Nat) : (s.notify obj).runNow = s.runNow := rfl
@[simp] theorem State.notify_freeCount (s : State) (obj : Nat) : (s.notify obj).freeCount = s.freeCount := rfl
@[simp] theorem State.notify_ftime (s : State) (obj : Nat) : (s.notify obj).ftime = s.ftime := rfl
@[simp] theorem State.notify_poison (s : State) (obj : Nat) : (s.notify obj).poison = s.poison := rfl
@[simp] theorem State.notify_cellErrs (s : State) (obj : Nat) : (s.notify obj).cellErrs = s.cellErrs := rfl
@[simp] theorem State.notify_uncorrectable (s : State) (obj : Nat) : (s.notify obj).uncorrectable = s.uncorrectable := rfl
@[simp] theorem State.notify_regions (s : State) (obj : Nat) : (s.notify obj).regions = s.regions := rfl
@[simp] theorem State.notify_barriers (s : State) (obj : Nat) : (s.notify obj).barriers = s.barriers := rfl
@[simp] theorem State.notify_dieMsgs (s : State) (obj : Nat) : (s.notify obj).dieMsgs = s.dieMsgs := rfl
@[simp] theorem State.notify_org (s : State) (obj : Nat) : (s.notify obj).org = s.org := rfl
@[simp] theorem State.notify_job (s : State) (obj : Nat) : (s.notify obj).job = s.job := rfl
@[simp] theorem State.notify_counters (s : State) (obj : Nat) : (s.notify obj).counters = s.counters := rfl
@[simp] theorem State.notify_faults (s : State) (obj : Nat) : (s.notify obj).faults = s.faults := rfl
@[simp] theorem State.notify_pow (s : State) (obj : Nat) : (s.notify obj).pow = s.pow := rfl
@[simp] theorem State.notify_fab (s : State) (obj : Nat) : (s.notify obj).fab = s.fab := rfl
@[simp] theorem State.notify_hbm (s : State) (obj : Nat) : (s.notify obj).hbm = s.hbm := rfl
@[simp] theorem State.notify_therm (s : State) (obj : Nat) : (s.notify obj).therm = s.therm := rfl
@[simp] theorem State.notify_tray (s : State) (obj : Nat) : (s.notify obj).tray = s.tray := rfl
@[simp] theorem State.notify_flashed (s : State) (obj : Nat) : (s.notify obj).flashed = s.flashed := rfl
@[simp] theorem State.notify_start (s : State) (obj : Nat) : (s.notify obj).start = s.start := rfl
@[simp] theorem State.notify_site (s : State) (obj : Nat) : (s.notify obj).site = s.site := rfl
@[simp] theorem State.notify_rind (s : State) (obj : Nat) : (s.notify obj).rind = s.rind := rfl
@[simp] theorem State.notify_fw (s : State) (obj : Nat) : (s.notify obj).fw = s.fw := rfl
@[simp] theorem State.notify_time (s : State) (obj : Nat) : (s.notify obj).time = s.time := rfl
@[simp] theorem State.notify_sched (s : State) (obj : Nat) : (s.notify obj).sched = s.sched := rfl
@[simp] theorem State.notify_cong (s : State) (obj : Nat) : (s.notify obj).cong = s.cong := rfl

end Sys2Proof.Machine
end

