-- ==== Sys2Proof/Laws/Writes.lean ====
section
/-! SUPPORT. What a write with a row of its own comes to: the put operation of its sub-entry, or the code that refuses it; and
what the operations shared by many writes leave alone. -/
namespace Sys2Proof.Machine

theorem leBytes_length (n v : Nat) : (leBytes n v).length = n := by
  induction n generalizing v with
  | zero => rfl
  | succ n ih => simp [leBytes, ih]

theorem leValue_leBytes (n v : Nat) : leValue (leBytes n v) = v % 256 ^ n := by
  induction n generalizing v with
  | zero => simp [leBytes, leValue, Nat.mod_one]
  | succ n ih =>
    have h8 : (BitVec.ofNat 8 v).toNat = v % 256 := by simp [BitVec.toNat_ofNat]
    simp only [leBytes, leValue, ih, h8]
    rw [Nat.pow_succ, Nat.mul_comm (256 ^ n) 256, Nat.mod_mul]

/-- A queued flash write changes the flash queue alone. -/
theorem State.storeValue_eq (s : State) (index sub : Nat) :
    s.storeValue index sub = { s with tray := { s.tray with flash := (s.storeValue index sub).tray.flash } } := by
  unfold State.storeValue State.queueFlash
  split <;> rfl

/-- Showing the cap status changes the shown word and the objects that are due an EVENT alone. -/
theorem State.showCaps_eq (s : State) :
    s.showCaps = { s with pow := { s.pow with shown := s.showCaps.pow.shown },
                          oap := { s.oap with changed := s.showCaps.oap.changed } } := by
  unfold State.showCaps
  split <;> rfl

/-- A write of a number that passes its checks is the put operation of its sub-entry, answered. -/
theorem State.rowWrite_num {s : State} {sid : Nat} {role : Role} {index sub n v : Nat} {e : SubEntry}
    (hc : s.carries role = true) (h : s.rindActive = true) (he : s.writeRefusal sid role index sub = .ok e)
    (hn : e.ty.size = some n) (hv : v < 256 ^ n) : s.rowWrite sid role index sub (leBytes n v) =
      (s.putNum role index sub v).2.answered (s.putNum role index sub v).1 := by
  simp [State.rowWrite, State.performWrite, hc, h, he, lengthFits, hn, leBytes_length, leValue_leBytes,
    Nat.mod_eq_of_lt hv]

/-- The same of a BLOB. -/
theorem State.rowWrite_blob {s : State} {sid : Nat} {role : Role} {index sub : Nat} {v : List Byte} {e : SubEntry}
    (hc : s.carries role = true) (h : s.rindActive = true) (he : s.writeRefusal sid role index sub = .ok e)
    (hn : e.ty.size = none) (hl : lengthFits e index sub v = true) : s.rowWrite sid role index sub v =
      (s.putBlob sid index sub v).2.answered (s.putBlob sid index sub v).1 := by
  simp [State.rowWrite, State.performWrite, hc, h, he, hl, hn]

/-- A write that the access or role check refuses changes the answer alone. -/
theorem State.rowWrite_refused {s : State} {sid : Nat} {role : Role} {index sub c : Nat} {v : List Byte}
    (hc : s.carries role = true) (h : s.rindActive = true) (he : s.writeRefusal sid role index sub = .error c) :
    s.rowWrite sid role index sub v = s.answered { status := c, body := [] } := by
  simp [State.rowWrite, State.performWrite, hc, h, he, State.deny]

/-- While no controller is active, a standby answers BUSY (15 R633). -/
theorem State.rowWrite_standby {s : State} {sid : Nat} {role : Role} {index sub : Nat} {v : List Byte}
    (hc : s.carries role = true) (h : s.rindActive = false) (hs : s.rind.standby.isSome = true) :
    s.rowWrite sid role index sub v = s.answered { status := stBusy, body := leBytes 2 10 } := by
  simp [State.rowWrite, hc, h, hs, State.standbyAnswers]

/-- With no session of the role, or no MGMT port up, the write does not reach the package (15 R650, R652). -/
theorem State.rowWrite_alone {s : State} {sid : Nat} {role : Role} {index sub : Nat} {v : List Byte}
    (hc : s.carries role = false) : s.rowWrite sid role index sub v = s := by
  simp [State.rowWrite, hc]

end Sys2Proof.Machine
end

