-- ==== Sys2Proof/Tests/Slice0.lean ====
section
/-! SUPPORT. Tests of single commands on small states, of well-formedness and of the decoder, and for every statement a state
and operands that meet the hypotheses of each of its clauses. Expected results are worked out by hand from the rules named. -/
namespace Sys2Proof.Tests

set_option Elab.async false

open Sys2Proof.Machine Sys2Proof.Claims

/-! ## States -/

/-- A region that has risen. -/
def region : Region := { Region.reset with risen := true }

/-- An entry that permits reads and writes of this chip's Vats (02 Tables 2.8, 2.9). -/
def ratVats : RatEntry := { base := 0x8000010000000000, limit := 0xC00001FFFFFFF000 }

/-- Own Vat, offset 0x1000, with CHIP 0xFFFF (01 R63). -/
def pc : Word := 0xFFFF010000001000

/-- A core that runs. -/
def core : Core := { Core.reset with run := true, halted := false, pc := pc, rat := [(0, ratVats)] }

/-- The machine with core 0 as `k`. -/
def live (k : Core) : State :=
  { State.reset with cores := [(0, k)], regions := [(0, region)],
                     org := { OrgSt.reset with transitOn := true, computeOn := true },
                     rind := { RindSt.reset with a := .active } }

/-- The machine with MGMT port A up and a session of each role, 1 to 4. -/
def managed (s : State) : State :=
  { s with oap := { s.oap with
      portA := { s.oap.portA with up := true }, nextSession := 4,
      sessions := [freshSession 1 .owner .a 7 0, freshSession 2 .rack .a 7 0, freshSession 3 .host .a 7 0,
                   freshSession 4 .observer .a 7 0] } }

def office : State := managed (live core)

/-- The state after a command; the reset state where it does not complete. -/
def after (o : Out) : State :=
  match o with
  | .next t => t
  | .fault _ => State.reset
  | .refused _ => State.reset

/-- A core with g1 and g2. -/
def two (a b : Word) : Core := ((core.setG 1 a).setG 2 b)

/-! ## Well-formedness: an ill-formed command for each check -/

def packet : Packet :=
  { dstChip := 0, dstOff := 0, srcChip := 0, srcCore := 0, cls := .signal, kind := .ack, vl := 0, hops := 0,
    nonmin := false, ackNow := false, last := false, offSched := false, srcDie := .west, flow := 0,
    epoch := 0, seq := 0, schedId := 0, injectTime := 0, args := [], data := [], poison := [] }

/-- A header flit on VL0 that ends its packet (09 Table 9.1). -/
def flit : Flit := mkFlit 1 0 0 true false 0 (List.replicate 64 0)

/-- A frame of chip 5 under plan 9, from port 0 (08 Table 8.4). -/
def frame : IdFrame :=
  IdFrame.sealed { w0 := 0x0101020000058000, w1 := 0x0707070707070707, w2 := 0x0707070707070707, w3 := 9, w4 := 0, w5 := 0, w6 := 0,
                   w7 := 0 }

def ctl : LinkCtl :=
  { ackSeq := 0, nak := none, xoff := 0, creditsLane := [], creditsPool := 0, allXoff := false,
    received := List.replicate 10 0, drained := List.replicate 10 0, caveLost := [], caveBad := [] }

def trayRegs : TrayRegs :=
  { formatMajor := 1, formatMinor := 0, seq := 1, inlet := 300, outlet := 320, flow := 70, tValid := true, fValid := true,
    mainState := 1, isoCause := 0, modules := [0, 0, 0, 0], stageId := 0, stageState := 0, noticeAck := 0, ackWritten := false,
    pieceStatus := 0, pieceEcho := 0, busErrors := 0 }

def telemetry : Telemetry :=
  { regions := List.replicate 16 0, hbm := 0, fabric := 0, aux := 0, absentRegions := 0, lowest := List.replicate 16 0,
    lowestTotal := 0, parked := 0 }

theorem test_wf_ports : Instr.wf (.identityFrameSend 47) = true ∧ Instr.wf (.identityFrameSend 48) = false ∧
    Instr.wf (.identityTimeout 63) = false ∧ Instr.wf (.trainingRetry 48) = false ∧ Instr.wf (.portMissing 48) = false ∧
    Instr.wf (.linkAckSend 48) = false ∧ Instr.wf (.laneLockLoss 48) = false ∧ Instr.wf (.failoverResend 48) = false ∧
    Instr.wf (.packetDepart 48) = false ∧ Instr.wf (.beaconSend 48) = false ∧ Instr.wf (.creditReturn 48) = false ∧
    Instr.wf (.longLinkCheck 48) = false ∧ Instr.wf (.congestionSample 48) = false ∧
    Instr.wf (.siteLineLost 48 true) = false ∧ Instr.wf (.scheduleSlotStart 48) = false := by decide

theorem test_wf_packets : Instr.wf (.ack packet) = true ∧ Instr.wf (.ack { packet with cls := .adaptive }) = false ∧
    Instr.wf (.ack { packet with data := [0] }) = false ∧
    Instr.wf (.ack { packet with data := List.replicate 8 0 }) = false ∧
    Instr.wf (.writePacket { packet with kind := .write }) = false ∧
    Instr.wf (.messagePacket { packet with kind := .message, cls := .scheduled }) = false ∧
    Instr.wf (.pieceReq { packet with kind := .pieceReq }) = false ∧
    Instr.wf (.piece { packet with kind := .reserved 3 }) = false := by decide

theorem test_wf_frames : Instr.wf (.flitReceive 0 flit) = true ∧ Instr.wf (.flitReceive 48 flit) = false ∧
    Instr.wf (.flitReceive 0 { flit with body := [] }) = false ∧ Instr.wf (.linkControl 0 ctl) = true ∧
    Instr.wf (.linkControl 0 { ctl with received := [] }) = false ∧
    Instr.wf (.linkControl 0 { ctl with creditsLane := List.replicate 11 0 }) = false ∧
    Instr.wf (.identityFrame 0 frame) = true ∧ Instr.wf (.identityFrame 48 frame) = false ∧
    Instr.wf (.linkTrained 48 frame ⟨0, []⟩) = false := by decide

theorem test_wf_lists : Instr.wf (.dieSensorSample []) = false ∧ Instr.wf (.ripenerStep telemetry) = true ∧
    Instr.wf (.ripenerStep { telemetry with lowest := [] }) = false ∧ Instr.wf (.sidebandPoll trayRegs 0) = true ∧
    Instr.wf (.sidebandPoll { trayRegs with stageState := 256 } 0) = false ∧
    Instr.wf (.inBandInterrupt 0 { trayRegs with modules := [0, 0, 0, 0, 0] }) = false ∧
    Instr.wf (.startStepBegin (.images [7])) = false ∧ Instr.wf (.regionRise false [1088]) = false ∧
    Instr.wf (.readMulti 1 .a 0 [{ index := 0x10000, sub := 0 }]) = false ∧
    Instr.wf (.readMulti 1 .a 0 [{ index := 0x1201, sub := 3 }]) = true ∧
    Instr.wf (.hbmTrainingDone (List.replicate 9 { pass := true, failedChannels := 0, rowsRepaired := 0 })) = false := by decide

theorem test_wf_numbers : Instr.wf (.homeAccess (.fill 0 0x400000000000) 0 0) = false ∧
    Instr.wf (.homeAccess (.access 0 0 0) 0 257) = false ∧ Instr.wf (.hbmScrub 0 257) = false ∧
    Instr.wf (.cycleCountOverflow (.core 0) 7 0) = true ∧ Instr.wf (.cycleCountOverflow (.port 0) 4 0) = false ∧
    Instr.wf (.cycleCountOverflow (.port 48) 0 0) = false ∧ Instr.wf (.coreDefectFound 0 34) = false ∧
    Instr.wf (.recoveryResend 0x100000000) = false ∧
    Instr.wf (.imageBlockReceive { index := 0, source := .tray, bytes := [], noSuchBlock := false }) = false ∧
    Instr.wf (.imageBlockReceive { index := 0, source := .tray, bytes := [], noSuchBlock := true }) = true := by decide

/-! ## Decoding: words written out bit by bit from 02 Tables 2.1, 2.2 and 2.13 to 2.18 -/

theorem test_decode_scalar (c : CoreId) :
    decodeWord c 0b00000100100001010011000001000000 = some (.sub c 4 5 6) ∧
    decodeWord c 0b00001000001000101111111111111111 = some (.addi c 1 2 0xFFFF) ∧
    decodeWord c 0b00011100011001001000000000111111 = some (.srai c 3 4 63) ∧
    decodeWord c 0b00100000111111111111111111111111 = some (.lui c 7 0x1FFFFF) ∧
    decodeWord c 0b00101000001000100001100011000001 = some (.fdiv c .d 1 2 3) ∧
    decodeWord c 0b00101000001000100001100111001000 = some (.fcmpLt c .s 1 2 3) ∧
    decodeWord c 0b00101100001000100001100100000011 = some (.fmsub c .d 1 2 3 4) :=
  ⟨rfl, rfl, rfl, rfl, rfl, rfl, rfl⟩

theorem test_decode_memory (c : CoreId) :
    decodeWord c 0b01001101001010100000000000001000 = some (.lhu c 9 10 8) ∧
    decodeWord c 0b01101101011011001111111111111000 = some (.sd c 11 12 0xFFF8) ∧
    decodeWord c 0b01110000001000100001100110000010 = some (.amocas c .w 1 2 3) ∧
    decodeWord c 0b01110000001000100001101000000001 = some (.amofaddBf c 1 2 3) ∧
    decodeWord c 0b10010000001000101111111111111110 = some (.bltu c 1 2 0xFFFE) ∧
    decodeWord c 0b10011000001000000000000100000000 = some (.jal c 1 0x100) :=
  ⟨rfl, rfl, rfl, rfl, rfl, rfl⟩

theorem test_decode_vector_system (c : CoreId) :
    decodeWord c 0b10100000001000100001100100110101 = some (.vmla c .b16 1 2 3 4) ∧
    decodeWord c 0b10101100101001100000000000000000 = some (.vld c 5 6) ∧
    decodeWord c 0b11000000000000000000000000000001 = some (.fenceChip c) ∧
    decodeWord c 0b11000100000000010001000000000010 = some (.acqinv c 1 2) ∧
    decodeWord c 0b11001000000000010001000000011000 = some (.msend c 1 2 3) ∧
    decodeWord c 0b11001100001000100000000000000000 = some (.psub c 1 2) ∧
    decodeWord c 0b11010000001000100001100000100010 = some (.twait c 1 2 3 4) ∧
    decodeWord c 0b11010100000000010000000000000000 = some (.barrier c 1) ∧
    decodeWord c 0b11011000000000010000000000000000 = some (.phase c 1) ∧
    decodeWord c 0b11011100001000000000000010000000 = some (.rdsr c 1 0x10) ∧
    decodeWord c 0b11100000000000000000000001001001 = some (.trap c 9) :=
  ⟨rfl, rfl, rfl, rfl, rfl, rfl, rfl, rfl, rfl, rfl, rfl⟩

/-- Values not listed are no instruction: FUNC 17 of opcode 0x01, IMM16[15:14] = 0b11 of 0x07, SUB 3 of 0x30 (R81). -/
theorem test_decode_undefined (c : CoreId) :
    decodeWord c 0b00000100001000100001110001000000 = none ∧ decodeWord c 0b00011100011001001100000000000001 = none ∧
    decodeWord c 0b11000000000000000000000000000011 = none ∧ decodeTableWord 32 0x04221800 = none :=
  ⟨rfl, rfl, rfl, rfl⟩

/-! ## Single instructions -/

/-- 2^64 - 1 plus 1 wraps to 0 (R790). -/
theorem test_add_wraps : ((after (execAdd 0 3 1 2 (live (two (-1) 1)))).core 0).getG 3 = 0 := by decide +kernel

/-- The quotient of a division by zero is all ones, and its remainder the dividend (Table 2.2). -/
theorem test_div_by_zero : ((after (execDiv 0 3 1 2 (live (two 7 0)))).core 0).getG 3 = -1 ∧
    ((after (execRem 0 3 1 2 (live (two 7 0)))).core 0).getG 3 = 7 := by decide +kernel

/-- A shift takes bits 5:0 of rs2 (R790). -/
theorem test_sll_65 : ((after (execSll 0 3 1 2 (live (two 1 65)))).core 0).getG 3 = 2 := by decide +kernel

/-- A write to g0 is discarded (R73). -/
theorem test_g0 : ((after (execAdd 0 0 1 2 (live (two 1 1)))).core 0).getG 0 = 0 := by decide +kernel

/-- 1.0 + 2.0 = 3.0 in binary32. -/
theorem test_fadd_s : ((after (execFadd 0 .s 3 1 2 (live (two 0x3F800000 0x40000000)))).core 0).getG 3 = 0x40400000 := by
  decide +kernel

/-- A branch back by one word from 0x1000 (R79). -/
theorem test_beq_back : ((after (execBeq 0 1 1 0xFFFF (live core))).core 0).pc = pc - 4 := by decide +kernel

/-- TRAP saves its own address and its code, and enters RUNTIME mode (R151, Table 2.11). -/
theorem test_trap : ((after (execTrap 0 9 (live { core with mode := .job }))).core 0).trapAddr = 9 ∧
    ((after (execTrap 0 9 (live { core with mode := .job }))).core 0).trapPc = pc ∧
    ((after (execTrap 0 9 (live { core with mode := .job }))).core 0).mode = .runtime := by decide +kernel

/-- MRECV on an empty queue returns 0 with clear tags (R138). -/
theorem test_mrecv_empty : ((after (execMrecv 0 1 0 (live (two 5 0)))).core 0).getG 1 = 0 ∧
    ((after (execMrecv 0 1 0 (live (two 5 0)))).core 0).mrecvTags = 0 := by decide +kernel

/-- The product of -128 and -128 in INT8 lanes keeps its low byte, 0 (Table 2.16). -/
theorem test_vmul_bytes :
    laneNat (((after (execVmul 0 .b8 1 2 2 (live (core.setV 2 0x80)))).core 0).getV 1) 8 0 = 0 := by decide +kernel

/-! ## States that meet the hypotheses of the statements: scalar and vector instructions, branches -/

theorem hyps_issue : (live core).canIssue 0 [.g 1, .g 2, .g 3, .g 31] = true ∧ (live core).canIssue 0 [.g 0] = true ∧
    (live core).canIssue 0 [.v 0, .v 1, .v 2, .v 31] = true ∧ (live core).canIssue 0 [.g 31, .v 31] = true ∧
    (live core).canIssue 0 [.v 2, .v (2 + 1), .v 3] = true ∧ (2 : Reg).getLsbD 0 = false ∧
    (live core).canIssue 0 [] = true := by decide +kernel

theorem hyps_FloatNanOperands : ((FFmt.fp32).decode 0x7FC00000).isNan = true ∧ ((FFmt.fp64).decode 0x7FF0000000000001).isNan = true ∧
    ((FFmt.fp32).decode 0x3F800000).isNan = false := by decide +kernel

theorem hyps_DecodeOfEncode : Instr.wf (.addi 0 1 2 0x8000) = true ∧ encode (.addi 0 1 2 0x8000) = some 0x08228000 := by
  decide +kernel

/-! ## Loads, stores, atomics, caches -/

/-- Vat 0, offset 0x2000. -/
def vat : Word := 0xFFFF010000002000

def inVat : State := live (two vat 0x0102030405060708)

/-- The same with the vector register v1 and a core in JOB mode. -/
def inJob : State := live { (two vat 5) with mode := .job }

/-- An address that no entry permits: HBM. -/
def atHbm : State := live (two 0xFFFF000000001000 5)

theorem hyps_AccessesIssue : inVat.checkAccess 0 (vat + (0xFFF8 : BitVec 16).signExtend 64) 1 false false false =
      .ok 0x10000001FF8 false ∧
    inVat.checkAccess 0 (vat + (3 : BitVec 16).signExtend 64) 8 true false false = .ok 0x10000002003 false ∧
    inVat.checkAccess 0 vat 8 true false true = .ok 0x10000002000 false ∧
    inVat.checkAccess 0 vat 64 false true false = .ok 0x10000002000 false ∧
    inVat.checkAccess 0 vat 64 true true false = .ok 0x10000002000 false ∧
    inVat.inCave 0x10000002000 64 = false ∧ inVat.storeRefused 0 0x10000002000 = false ∧
    inVat.inCave 0x10000001FF8 1 = false ∧ inVat.inCave 0x10000002003 8 = false ∧
    inVat.storeRefused 0 0x10000002003 = false ∧ inVat.canIssue 0 [.g 1, .g 2, .g 3] = true ∧
    inVat.canIssue 0 [.g 1, .v 3] = true := by decide +kernel

theorem hyps_RefusedAccessesTrap : (atHbm.core 0).nest = false ∧
    atHbm.checkAccess 0 (0xFFFF000000001000 + (0 : BitVec 16).signExtend 64) 8 false false false = .trap 0x03 ∧
    atHbm.checkAccess 0 (0xFFFF000000001000 + (0 : BitVec 16).signExtend 64) 4 true false false = .trap 0x03 ∧
    atHbm.checkAccess 0 0xFFFF000000001000 64 false true false = .trap 0x03 ∧
    atHbm.checkAccess 0 0xFFFF000000001000 64 true true false = .trap 0x03 ∧
    atHbm.checkAccess 0 0xFFFF000000001000 8 true false true = .trap 0x03 ∧
    (live (two (vat + 4) 0)).checkAccess 0 (vat + 4) 8 true false true = .trap 0x04 := by decide +kernel

theorem hyps_VatAccesses : (inVat.core 0).memops = [] ∧ spaceOf 0x10000002000 = .vat 0 0x2000 ∧
    inVat.vatLost 0x10000002000 = false ∧ inVat.rangePoisoned 0x10000002000 8 = false ∧ 0x10000002000 % 8 = 0 ∧
    (inVat.core 0).line (0x10000002000 / 64) = none ∧ inVat.requestWaits 0 0x10000002000 = false ∧
    inVat.responseWaits 0 0x10000002000 = false ∧ inVat.inCave 0x10000002000 8 = false ∧
    inVat.checkAccess 0 (vat + (0 : BitVec 16).signExtend 64) 8 false false false = .ok 0x10000002000 false ∧
    inVat.checkAccess 0 (vat + (0 : BitVec 16).signExtend 64) 8 true false false = .ok 0x10000002000 false := by
  decide +kernel

/-- HBM through a cacheable entry, of which line 0x40 is held. -/
def cached : State :=
  { live { (two 0xFFFF000000001000 0) with
             rat := [(0, { base := 0x8000000000000000, limit := 0xE00000000000F000 }), (1, ratVats)],
             cache := [(0x40, some { data := 0x1122334455667788, dirty := 0, poison := 0 })] } with
    hbm := { HbmSt.reset with limit := 0x4000000000 } }

/-- A fill that its home has read. -/
def filled : State := live { core with fills := [{ line := 7, speculative := false, read := some (5, 0) }] }

theorem hyps_CacheHitsAndFills : cached.canIssue 0 [.g 1, .g 3] = true ∧
    cached.checkAccess 0 (0xFFFF000000001000 + (0 : BitVec 16).signExtend 64) 8 false false false = .ok 0x1000 true ∧
    cached.inCave 0x1000 8 = false ∧ (cached.core 0).memops = [] ∧ (cached.core 0).fills.length ≤ 32 ∧
    (cached.core 0).line (0x1000 / 64) = some { data := 0x1122334455667788, dirty := 0, poison := 0 } ∧
    takeFirst (fun x => x.line == 7) (filled.core 0).fills =
      some ({ line := 7, speculative := false, read := some (5, 0) }, []) ∧
    ((filled.core 0).cache.filter (fun e => e.1 % 1024 = 7 % 1024)).length < 4 ∧ (filled.core 0).memops = [] ∧
    filled.responseWaits 0 (64 * 7) = false := by
  decide +kernel

def loadDone : MemOp :=
  { id := 3, kind := .load 1 false, pc := pc, addr := vat, off := 0x10000002000, len := 8,
    parts := (accessParts false 0x10000002000 8 false).map (fun p => { p with performed := true }), bytes := [1, 0, 0, 0, 0, 0, 0, 0],
    poisoned := false }

def storeNew : MemOp :=
  { id := 4, kind := .store, pc := pc, addr := vat, off := 0x10000002000, len := 8, parts := accessParts false 0x10000002000 8 false,
    bytes := [1, 2, 3, 4, 5, 6, 7, 8], poisoned := false }

def returning : State := live { core with memops := [loadDone], nextId := 5 }
def storing : State := live { core with memops := [storeNew], nextId := 5 }

theorem hyps_HomesPerformAndReturn : takeFirst (fun x => x.id == 3) (returning.core 0).memops = some (loadDone, []) ∧
    loadDone.allDone = true ∧ loadDone.poisoned = false ∧
    (∀ p ∈ loadDone.parts, returning.responseWaits 0 (loadDone.off + p.rel) = false) ∧
    (storing.core 0).memops.find? (fun x => decide (x.id = 4)) = some storeNew ∧
    (∃ p, storeNew.parts[0]? = some p ∧ p.performed = false ∧ p.cached = false ∧
      (storing.core 0).mayPerform storeNew (storeNew.off + p.rel) p.len = true ∧ spaceOf (storeNew.off + p.rel) = .vat 0 0x2000 ∧
      storing.vatLost (storeNew.off + p.rel) = false ∧ p.rel + p.len ≤ storeNew.bytes.length ∧
      storing.requestWaits 0 (storeNew.off + p.rel) = false) := by
  refine ⟨?_, ?_, ?_, ?_, ?_, ⟨_, rfl, ?_⟩⟩ <;> decide +kernel


/-! ## Special registers, traps, fences, tallies, messages -/

/-- A core in JOB mode. -/
def jobCore : Core := { core with mode := .job }

theorem hyps_SpecialRegisterAccess : (live core).canIssue 0 [.g 1] = true ∧ (live jobCore).canIssue 0 [.g 31] = true ∧
    core.mode = .runtime ∧ jobCore.mode = .job ∧ jobCore.nest = false ∧ core.nest = false ∧
    (0x07 : BitVec 8) ∉ [(0x01 : BitVec 8), 0x02, 0x03, 0x08, 0x09, 0x0A, 0x0B, 0x0C, 0x0D, 0x0E, 0x10, 0x11, 0x12, 0x13,
      0x14, 0x15] ∧
    (0x15 : BitVec 8) ∉ [(0x03 : BitVec 8), 0x08, 0x09, 0x0C, 0x0D, 0x0E, 0x11, 0x13, 0x14] ∧
    ((live (core.setG 1 1)).core 0).getG 1 = 1 ∧ (7 : BitVec 8).toNat < 8 := by decide +kernel

/-- A core with frozen counters. -/
def frozen : Core := { core.setG 1 (-1) with pmu := { Pmu.reset with freeze := true } }

theorem hyps_CounterPageAccess : (live frozen).canIssue 0 [.g 1] = true ∧ ((live frozen).core 0).pmu.freeze = true ∧
    ((live frozen).core 0).mode = .runtime ∧ (live (core.setG 1 (-1))).canIssue 0 [.g 1] = true := by decide +kernel

/-- Interrupts 3 and 5 pending, 5 and 7 enabled. -/
def pending5 : Core := { core with intPending := 0x28, intEnable := 0xA0 }

def poisonedCore : Core := { core with poison := [{ addr := 77, reg := none }] }

def expired : Core := { core with timerCmp := 0 }

theorem hyps_TrapsReturnsAndInterrupts : (live core).canIssue 0 [] = true ∧ decodeWord 0 0 = none ∧
    (live jobCore).canIssue 0 [] = true ∧ (live pending5).coreRuns 0 = true ∧ ((live pending5).core 0).stall ≠ .wfi ∧
    (live pending5).ftimeWord.toNat < ((live pending5).core 0).timerCmp.toNat ∧
    (((live pending5).core 0).intPending &&& ((live pending5).core 0).intEnable).getLsbD 5 = true ∧
    (∀ i, i < 8 → i ≠ 5 → (((live pending5).core 0).intPending &&& ((live pending5).core 0).intEnable).getLsbD i = false) ∧
    (live poisonedCore).coreRuns 0 = true ∧ ((live poisonedCore).core 0).poison = [{ addr := 77, reg := none }] ∧
    (live expired).coreAlive 0 = true ∧ ((live expired).core 0).timerCmp.toNat ≤ (live expired).ftimeWord.toNat ∧
    ((live pending5).core 0).intReady = true ∧ ((live core).core 0).intReady = false := by decide +kernel

/-- A core that has issued a load that has not returned. -/
def loading : Core := { core with memops := [loadDone], nextId := 5 }

/-- A core in its trap handler while an abort of its job runs. -/
def nested : State :=
  { live { core with nest := true } with faults := { FaultSt.reset with inAbort := true } }

theorem hyps_CoresHaltAndStart : nested.canIssue 0 [] = true ∧ (nested.core 0).nest = true ∧
    nested.faults.ladder.step = 0 ∧ nested.faults.inAbort = true ∧
    (live Core.reset).mayControl .rind = true ∧ (live Core.reset).coreAlive 0 = true ∧
    ((live Core.reset).core 0).halted = true ∧ ((live Core.reset).core 0).abortPending = none ∧
    ((live Core.reset).core 0).stall = .none ∧ (live core).mayControl (.core 0) = true ∧
    (live core).coreAlive 0 = true ∧ ((live core).core 0).run = true ∧ ((live core).core 0).halted = false ∧
    ((live core).core 0).unretired = false ∧ (nested.core 0).unretired = false ∧
    (live loading).coreAlive 0 = true ∧ (live loading).mayControl .rind = true ∧ loading.run = true ∧ loading.halted = false ∧
    loading.stall.waits = false ∧ loading.unretired = true := by
  decide +kernel

/-- A core that waits for its Vat's store, and for what it has sent to this chip and to others. -/
def owing : State :=
  { live { core with outMsgs := [{ id := 9, srcChip := 4, srcCore := 0, dst := 0xFFFF010100010C00, words := [(5, false)],
                                   admitted := false }] } with
    fab := { FabSt.reset with west := { DieSt.reset with store := [
      { pkt := { packet with kind := .tinc }, sent := true, sentTime := 0, wait := 0 },
      { pkt := { packet with kind := .message, cls := .service }, sent := true, sentTime := 0, wait := 0 }] } } }

/-- A core with an access in flight. -/
def busyCore : State := live { core with memops := [storeNew], nextId := 5 }

/-- HBM with line 0x40 dirty in its second byte, and the range of that line in g1 and g2. -/
def dirtyLine : State :=
  { live { (two 0xFFFF000000001000 0x40) with
             rat := [(0, { base := 0x8000000000000000, limit := 0xE00000000000F000 }), (1, ratVats)],
             cache := [(0x40, some { data := 0x1122334455667788, dirty := 2, poison := 0 })] } with
    hbm := { HbmSt.reset with limit := 0x4000000000 } }

theorem hyps_FencesAndRanges : (live core).canIssue 0 [] = true ∧ ((live core).core 0).memops = [] ∧
    ((live core).core 0).outMsgs = [] ∧ (live core).ladleAway 0 = false ∧
    (live core).fab.west.store ++ (live core).fab.east.store = [] ∧
    busyCore.canIssue 0 [] = true ∧ (busyCore.core 0).memops ≠ [] ∧ owing.canIssue 0 [] = true ∧
    (owing.core 0).outMsgs.map (fun m => owing.reach m.dst) = [.here] ∧
    (owing.fab.west.store ++ owing.fab.east.store).map (fun u => (u.pkt.srcCore, u.pkt.kind)) =
      [(0, .tinc), (0, .message)] ∧
    (live core).canIssue 0 [.g 1, .g 2] = true ∧ ((live core).core 0).getG 2 = 0 ∧
    dirtyLine.canIssue 0 [.g 1, .g 2] = true ∧ (dirtyLine.core 0).memops = [] ∧
    dirtyLine.rangeOf ((dirtyLine.core 0).getG 1) ((dirtyLine.core 0).getG 2) = some (0x1000, 0x1040) ∧
    (dirtyLine.core 0).rangeBusy (some (0x1000, 0x1040)) = false ∧
    (dirtyLine.core 0).line 0x40 = some { data := 0x1122334455667788, dirty := 2, poison := 0 } ∧
    64 * 0x40 < 0x1040 ∧ 0x1000 < 64 * 0x40 + 64 ∧ (dirtyLine.core 0).permits true (64 * 0x40) 64 = true ∧
    dirtyLine.channelFailed (64 * 0x40) = false := by decide +kernel

/-- g1 names tally 63 of core 1. -/
def tallyArgs : State := live (two 0xFFFF0101000111F8 3)

/-- g1 names tally 63 of core 1 of chip 5, in a package with a number. -/
def awayArgs : State :=
  { live (two 0x00050101000111F8 3) with fab := { FabSt.reset with chip := 4 } }

/-- A core that waits for tally 5 to reach 9, until time 0. -/
def waiter : State := live { core with stall := .twait 3 5 9 (some 0) }

theorem hyps_TallyInstructions : tallyArgs.canIssue 0 [.g 1, .g 2] = true ∧
    tallyOf (addrOff ((tallyArgs.core 0).getG 1)) = some (1, 63) ∧ tallyArgs.reach ((tallyArgs.core 0).getG 1) = .here ∧
    tallyArgs.coreAlive 1 = true ∧ (tallyArgs.core 0).storesPending = false ∧ (tallyArgs.core 1).stall = .none ∧
    awayArgs.canIssue 0 [.g 1, .g 2] = true ∧ tallyOf (addrOff ((awayArgs.core 0).getG 1)) = some (1, 63) ∧
    awayArgs.reach ((awayArgs.core 0).getG 1) = .away 5 ∧ (awayArgs.core 0).storesPending = false ∧
    (awayArgs.core 0).abortClosed = false ∧ awayArgs.unacked 0 .tinc < 32 ∧ awayArgs.storeRoom signalDie = true ∧
    (live core).canIssue 0 [.g 2] = true ∧ (live core).canIssue 0 [.g 3] = true ∧
    (live (two 0 0)).canIssue 0 [.g 1, .g 2, .g 3] = true ∧
    0 ≤ (((live (two 0 0)).core 0).tally 5 - (((live (two 0 0)).core 0).getG 1).setWidth 32).toInt ∧
    (((live (two 1 0)).core 0).tally 5 - (((live (two 1 0)).core 0).getG 1).setWidth 32).toInt < 0 ∧
    waiter.coreRuns 0 = true ∧ (waiter.core 0).stall = .twait 3 5 9 (some 0) ∧ 0 ≤ waiter.now := by decide +kernel

/-- g1 names queue 3 of core 1, g2 the core's Vat; the message tables permit the doorbell. -/
def sender : State :=
  live { (two 0xFFFF010100010C00 vat) with
           rat := [(0, ratVats), (1, { base := 0x8000010100000000, limit := 0xC00001010FFFF000 })] }

/-- The same to chip 5. -/
def sendsAway : State :=
  { live { (two 0x0005010100010C00 vat) with
             rat := [(0, ratVats), (1, { base := 0xC000010100000000, limit := 0xC00001010FFFF000 })] } with
    fab := { FabSt.reset with chip := 4 } }

def outMsg : OutMsg :=
  { id := 9, srcChip := 4, srcCore := 2, dst := 0xFFFF010100010C00, words := [(5, false), (6, true)], admitted := false }

def queued : QMsg :=
  { id := 9, srcChip := 4, srcCore := 2, via := none, len := 2, threshold := 2, held := [], coming := [(5, false), (6, true)],
    arrived := 0, returned := 0, readable := false, ended := false, lastTime := 0 }

def qword : QWord := { data := 3, poison := false, first := true, last := true, trunc := false, parity := false, index := 0 }

/-- A machine in which queue 3 of core 1 holds the messages `ms`. -/
def withQueue (ms : List QMsg) : State :=
  { live core with cores := [(0, core), (1, { core with queues := [(3, { Queue.reset with msgs := ms })] })], now := 100000 }

def admitting : State := { live core with dieMsgs := [(.west, outMsg)] }

theorem hyps_MessagesReachTheirQueue : sender.canIssue 0 [.g 1, .g 2] = true ∧
    (match sender.msendCheck 0 ((sender.core 0).getG 1) ((sender.core 0).getG 2) 256 with
     | .ok off => decide (off = 0x2000) | .error _ => false) = true ∧
    sender.reach ((sender.core 0).getG 1) = .here ∧ (sender.core 0).storesPending = false ∧
    (sender.core 0).abortClosed = false ∧ sender.queueAsleep (addrOff ((sender.core 0).getG 1)) = none ∧
    sendsAway.canIssue 0 [.g 1, .g 2] = true ∧
    (match sendsAway.msendCheck 0 ((sendsAway.core 0).getG 1) ((sendsAway.core 0).getG 2) 256 with
     | .ok off => decide (off = 0x2000) | .error _ => false) = true ∧
    sendsAway.reach ((sendsAway.core 0).getG 1) = .away 5 ∧ (sendsAway.core 0).storesPending = false ∧
    (sendsAway.core 0).abortClosed = false ∧ sendsAway.leaving 0 < 8 ∧ sendsAway.storeRoom (coreDie 0) = true ∧
    admitting.messageWaits (.die .west) 1 = false ∧ (withQueue [queued]).coreAlive 1 = true ∧ queued.coming ≠ [] ∧
    sender.leaving 0 < 8 ∧ admitting.waiting (.die .west) 1 3 = some outMsg ∧ admitting.coreAlive 1 = true ∧
    (admitting.core 1).engineInReset = false ∧ outMsg.words.length ≤ ((admitting.core 1).queue 3).free ∧
    (((withQueue [queued]).core 1).queue 3).msgs[0]? = some queued ∧ (withQueue [queued]).coreAlive 1 = true ∧
    queued.lastTime + 100000 ≤ (withQueue [queued]).now ∧ (withQueue []).canIssue 1 [.g 3] = true ∧
    (((withQueue []).core 1).queue 3).msgs = [] ∧
    (((withQueue [{ queued with held := [qword], readable := true }]).core 1).queue 3).msgs =
      [{ queued with held := [qword], readable := true }] ∧
    qword.parity = parityOf qword.data := by decide +kernel

/-- A core with two Ladle error records and a one in g1. -/
def recorded : Core := { core.setG 1 1 with ladleErrs := [⟨1, 2, 3, 4, 5⟩, ⟨6, 7, 8, 9, 10⟩] }

/-- A core in WFI for which interrupt 5 waits, with frozen counters. -/
def asleep : Core := { pending5 with stall := .wfi, pmu := { Pmu.reset with freeze := true } }

theorem hyps_SpecialRegisterErrors : (live recorded).canIssue 0 [.g 1] = true ∧ recorded.mode = .runtime ∧
    recorded.ladleErrs = [⟨1, 2, 3, 4, 5⟩, ⟨6, 7, 8, 9, 10⟩] ∧ core.ladleErrs = [] ∧ ((live recorded).core 0).getG 1 = 1 ∧
    ((1 : Word).getLsbD 0 = true ∧ (2 : Word).getLsbD 0 = false) ∧ jobCore.pmu.jobWrite = false ∧
    (9 : BitVec 8).toNat > 8 ∧ (9 : BitVec 8).toNat < 0x10 ∧ (-1 : Word).getLsbD 63 = true := by decide +kernel

theorem hyps_InterruptsWake : (live asleep).coreRuns 0 = true ∧ ((live asleep).core 0).nest = false ∧
    ((live asleep).core 0).stall = .wfi ∧ (live asleep).ftimeWord.toNat < ((live asleep).core 0).timerCmp.toNat ∧
    ((live asleep).core 0).pmu.freeze = true ∧ (((live asleep).core 0).intPending &&& ((live asleep).core 0).intEnable).getLsbD 5 = true ∧
    ((live expired).core 0).stall ≠ .wfi ∧ ((live jobCore).core 0).mode = .job ∧ ((live core).core 0).mode = .runtime ∧
    (live core).ftimeWord.toNat < ((live core).core 0).timerCmp.toNat ∧
    (live { loading with nest := true }).canIssue 0 [] = true ∧ { loading with nest := true }.unretired = true := by decide +kernel

/-- The same as `awayArgs` and `sendsAway`, while every region holds what crosses it. -/
def blocked (s : State) : State :=
  { s with org := { s.org with requestPlane := { s.org.requestPlane with held := 0xFFFE } } }

theorem hyps_HeldRegions : (awayArgs.org.dieWaits awayArgs.org.requestPlane signalDie 0 true) = false ∧
    (sendsAway.org.dieWaits sendsAway.org.requestPlane (coreDie 0) 0 true) = false ∧
    ((blocked awayArgs).org.dieWaits (blocked awayArgs).org.requestPlane signalDie 0 true) = true ∧
    ((blocked sendsAway).org.dieWaits (blocked sendsAway).org.requestPlane (coreDie 0) 0 true) = true ∧
    (blocked awayArgs).canIssue 0 [.g 1, .g 2] = true ∧ (blocked awayArgs).storeRoom signalDie = true ∧
    (blocked sendsAway).canIssue 0 [.g 1, .g 2] = true ∧ (blocked sendsAway).storeRoom (coreDie 0) = true ∧
    (blocked awayArgs).reach ((blocked awayArgs).core 0 |>.getG 1) = .away 5 := by decide +kernel

/-! ## Press, Ladle, barriers -/

/-- An INT8 product of one element: A at line 0x10, B at 0x20, D at 0x30, record at 0x200; tally 5 gains 2. -/
def matmul : PressCmd :=
  { w0 := 0x177000000000000 <<< 4 ||| 0xC00000000000, w1 := 0x0010002000000030, w2 := 0,
    w3 := 0x8A01000002000000, sub := 3 }

def convert : PressCmd := { w0 := 0x2008800000000000, w1 := 0x0000000004000030, w2 := 0, w3 := 0x2000000, sub := 3 }
def nop : PressCmd := { w0 := 0, w1 := 0, w2 := 0, w3 := 0x2000000, sub := 3 }

/-- A MATMUL with a format code that no class has. -/
def badCmd : PressCmd := { matmul with w0 := 0x1FF0C00000000000 }

/-- A CONVERT with a reserved bit, and an OPCODE that is. -/
def badConvert : PressCmd := { convert with w0 := 0x2008800000000001 }
def badCode : PressCmd := { nop with w0 := 0x7000000000000000 }

def queueOf (p : PressCmd) : State := live { core with pressQ := [p] }

/-- The descriptors in the own Vat at `vat`: those of `matmul` and of a Ladle COPY. -/
def submitting : State :=
  { live (two vat 0) with
    mem := Memory.write [] 0x10000002000 (wordBytes [matmul.w0, matmul.w1, matmul.w2, matmul.w3]) }

theorem hyps_PressAndLadleSubmission : submitting.canIssue 0 [.g 1, .g 3] = true ∧
    (match submitting.readDescriptor 0 ((submitting.core 0).getG 1) 4 with
      | .ok w => decide (w = [matmul.w0, matmul.w1, matmul.w2, matmul.w3]) | .error _ => false) = true ∧
    fld matmul.w3 31 16 ≤ 0xBFFF ∧ (submitting.core 0).storesPending = false ∧ (submitting.core 0).abortClosed = false ∧
    (submitting.core 0).engineInReset = false ∧
    (submitting.core 0).pressQ.length + (submitting.core 0).pressRun.length < 16 ∧
    (match submitting.readDescriptor 0 ((submitting.core 0).getG 1) 8 with
      | .ok w => decide (w.length = 8) | .error _ => false) = true ∧
    (submitting.core 0).ladleQ.length + (submitting.core 0).ladleRun.length < 32 ∧
    (match (live (two (vat + 32) 0)).readDescriptor 0 (vat + 32) 8 with
      | .ok _ => false | .error n => decide (n = 0x07)) = true ∧
    (match (live (two (vat + 8) 0)).readDescriptor 0 (vat + 8) 4 with
      | .ok _ => false | .error n => decide (n = 0x07)) = true := by decide +kernel

theorem hyps_PressCommandsStart : (queueOf nop).coreAlive 0 = true ∧
    (((queueOf nop).pressSync 0).core 0).pressReady nop.order = true ∧
    (((queueOf matmul).pressSync 0).core 0).pressReady matmul.order = true ∧
    nop.opcode = 0 ∧ ((queueOf nop).pressSync 0).pressCheck 0 nop = 0 ∧ matmul.opcode = 1 ∧ ((queueOf matmul).pressSync 0).pressCheck 0 matmul = 0 ∧
    convert.opcode = 2 ∧ ((queueOf convert).pressSync 0).pressCheck 0 convert = 0 ∧ badCmd.opcode = 1 ∧
    ((queueOf badCmd).pressSync 0).pressCheck 0 badCmd = 3 ∧ badConvert.opcode = 2 ∧
    ((queueOf badConvert).pressSync 0).pressCheck 0 badConvert ≠ 0 ∧ badCode.opcode = 7 ∧
    ((queueOf badCode).pressSync 0).pressCheck 0 badCode ≠ 0 := by decide +kernel

theorem hyps_Int8ProductsAreExact : matmul.opcode = 1 ∧ matmul.cls = some .int8 ∧ matmul.accMode = 0 := by decide +kernel

/-- A MATMUL whose one tile is done, with its line of D to write. -/
def pressRun : PressRun :=
  { PressRun.begin matmul 0 0 false 0 with
    tile := 1, arrayEnd := 1, lines := [{ line := 0x30, data := 7, mask := 0xF, poison := false }] }

/-- 100 cycles later. -/
def running : State :=
  { live { core with pressRun := [pressRun], pressLevel := 8 } with regions := [(0, { region with cycles := 100000 })] }

/-- A Press that asks for the level, and one that does not any more, 512 cycles after a step; `n` is the region's ceiling. -/
def levelling (k : Core) (n : Nat) : State :=
  { live { k with pressRising := true, pressLevel := 2 } with
    regions := [(0, { region with cycles := 512000, ceiling := n })] }

/-- A core in its region at array cycle 512 under ceiling `n`: its Press at `level`, rising or not, with its last step at `at'`. -/
def atLevel (k : Core) (level : Nat) (rising : Bool) (at' n : Nat) : State :=
  { live { k with pressRising := rising, pressLevel := level, pressStepCycle := at' } with
    regions := [(0, { region with cycles := 512000, ceiling := n })] }

/-- A Press as PRESS_LEVEL_STEP finds it. -/
def seen (s : State) : Core := (s.pressSync 0).core 0

theorem hyps_PressLevelBegins :
    (seen (atLevel { core with pressQ := [matmul] } 0 false 0 8)).pressRequests = true ∧
    (seen (atLevel { core with pressQ := [matmul] } 0 false 0 8)).pressRising = false ∧
    (atLevel { core with pressQ := [matmul] } 0 false 0 8).corePowered 0 = true ∧
    (atLevel { core with pressQ := [matmul] } 0 false 0 8).regionParked 0 = false ∧
    (atLevel { core with pressQ := [matmul] } 0 false 0 8).pressCeiling 0 = 8 ∧
    (seen (atLevel { core with pressQ := [matmul] } 5 true 0 4)).pressRequests = true ∧
    (seen (atLevel { core with pressQ := [matmul] } 5 true 0 4)).pressRising = true ∧
    (atLevel { core with pressQ := [matmul] } 5 true 0 4).pressCeiling 0 <
      ((atLevel { core with pressQ := [matmul] } 5 true 0 4).core 0).pressLevel := by decide +kernel

theorem hyps_PressLevelFalls : (seen (atLevel core 2 true 0 8)).pressRequests = false ∧
    (seen (atLevel core 2 true 0 8)).pressRising = true ∧ (seen (atLevel core 2 false 0 8)).pressRequests = false ∧
    (seen (atLevel core 2 false 0 8)).pressRising = false ∧ (seen (atLevel core 2 false 0 8)).pressStays = false ∧
    (seen (atLevel core 2 false 0 8)).pressStepCycle + 512 ≤ (atLevel core 2 false 0 8).arrayCycle 0 ∧
    (atLevel core 2 false 100 8).arrayCycle 0 < (seen (atLevel core 2 false 100 8)).pressStepCycle + 512 ∧
    (seen (atLevel { core with pressQ := [nop] } 2 false 0 8)).pressStays = true ∧
    (seen (atLevel { core with pressQ := [nop] } 2 false 0 8)).pressRequests = false ∧
    (atLevel core 2 true 0 8).pressCeiling 0 = 8 ∧ (atLevel core 2 true 0 8).corePowered 0 = true := by decide +kernel

theorem hyps_PressCommandsEnd : takeFirst (fun x => x.cmd.sub == pressRun.cmd.sub) ((running.pressSync 0).core 0).pressRun =
      some (pressRun, []) ∧ running.coreAlive 0 = true ∧ (running.core 0).engineInReset = false ∧
    (running.core 0).pressHeld = false ∧ (match pressRun.due with | some n => decide (n ≤ running.arrayCycle 0) | none => false) = true ∧
    pressRun.cause = 0 ∧ pressRun.noRecord = false ∧ matmul.tEn = true ∧ matmul.tId = 5 ∧
    (levelling { core with pressQ := [matmul] } 8).corePowered 0 = true ∧
    (((levelling { core with pressQ := [matmul] } 8).pressSync 0).core 0).pressRequests = true ∧
    (levelling { core with pressQ := [matmul] } 8).regionParked 0 = false ∧
    (((levelling { core with pressQ := [matmul] } 8).pressSync 0).core 0).pressRising = true ∧
    (((levelling { core with pressQ := [matmul] } 8).pressSync 0).core 0).pressStepCycle + 512 ≤
      (levelling { core with pressQ := [matmul] } 8).arrayCycle 0 ∧
    ((levelling { core with pressQ := [matmul] } 8).core 0).pressLevel < (levelling { core with pressQ := [matmul] } 8).pressCeiling 0 ∧
    (levelling { core with pressQ := [matmul] } 1).pressCeiling 0 < ((levelling { core with pressQ := [matmul] } 1).core 0).pressLevel ∧
    (((levelling core 8).pressSync 0).core 0).pressRequests = false ∧ (((levelling core 8).pressSync 0).core 0).pressRising = true ∧
    1 < ((levelling core 8).core 0).pressLevel ∧ ((levelling core 8).core 0).pressLevel ≤ (levelling core 8).pressCeiling 0 := by
  decide +kernel

/-- A descriptor of one row of `n` bytes with the operation `op`. -/
def desc (op n : Nat) : LadleDesc :=
  { w := [0x0807060504030201, vat + 1, BitVec.ofNat 64 ((n - 1) * 2 ^ 44 + op * 256), 0, 0, 0, 0, 0], sub := 6 }

def copyDesc : LadleDesc := { desc 0 16 with w := (vat + 0x800) :: (desc 0 16).w.tail }

/-- A LIST whose entries lie at `vat`, of one entry. -/
def listDesc : LadleDesc :=
  { w := [vat + 0x800, vat, BitVec.ofNat 64 (15 * 2 ^ 44 + 2 * 256), 0, 0, 0x100000000, 0, 0], sub := 6 }

def ladling (d : LadleDesc) : State := live { core with ladleQ := [d] }

/-- The list of `listDesc` under way; its one entry names `vat` + 0x400. -/
def listing : State :=
  { live { core with ladleRun := [{ desc := listDesc, ents := [], row := 0, off := 0, issuedAll := false }] } with
    mem := Memory.write [] 0x10000002000 (wordBytes [vat + 0x400, 0]) }

theorem hyps_LadleTakesItsWork : (ladling copyDesc).coreAlive 0 = true ∧ (ladling copyDesc).regionParked 0 = false ∧
    ((ladling copyDesc).core 0).ladleHeld = false ∧ ((ladling copyDesc).core 0).ladleErrs.length < 32 ∧
    ((ladling copyDesc).core 0).ladleRun.all ((ladling copyDesc).mayOverlap copyDesc) = true ∧
    ((ladling copyDesc).core 0).engineInReset = false ∧
    (ladling { desc 1 8 with w := (desc 1 8).w.take 7 ++ [1] }).ladleCheck 0 { desc 1 8 with w := (desc 1 8).w.take 7 ++ [1] } ≠ none ∧
    (ladling { listDesc with w := listDesc.w.take 7 ++ [1] }).ladleCheck 0 { listDesc with w := listDesc.w.take 7 ++ [1] } ≠ none ∧
    copyDesc.op = 0 ∧ (ladling copyDesc).ladleCheck 0 copyDesc = none ∧ (desc 1 8).op = 1 ∧
    (ladling (desc 1 8)).ladleCheck 0 (desc 1 8) = none ∧ listDesc.op = 2 ∧
    (ladling listDesc).ladleCheck 0 listDesc = none ∧
    (ladling { copyDesc with w := copyDesc.w.take 7 ++ [1] }).ladleCheck 0 { copyDesc with w := copyDesc.w.take 7 ++ [1] } =
      some (0x02, 0) ∧
    ((listing.core 0).ladleRun.find? (fun r => !r.issuedAll)).map (fun r => r.desc) = some listDesc ∧
    listDesc.isList = true ∧ listing.rangePoisoned (addrOff listDesc.dst) 16 = false ∧
    listing.loadWord (addrOff listDesc.dst) = vat + 0x400 ∧ fld (listing.loadWord (addrOff listDesc.dst + 8)) 49 32 = 0 ∧
    listing.awayChip (vat + 0x400) = none ∧ listing.awayChip listDesc.src = none ∧
    listDesc.outOfSpan false (vat + 0x400) = none := by decide +kernel

def remoteTx : LadleTx :=
  { id := 9, sub := 6, entry := 0, src := 0, dst := 0, len := 0, path := .write 0 0, acked := true }

def heldLadle : State := live { core with ladleTxs := [remoteTx], ladleHeld := true }

theorem hyps_LadleTransactionsMoveBytes : copyDesc.rows = 1 ∧ copyDesc.planes = 1 ∧ copyDesc.ltEn = false ∧
    (copyDesc.word 6).getLsbD 31 = false ∧ (ladling copyDesc).awayChip copyDesc.dst = none ∧
    spaceOf (addrOff copyDesc.dst) = .vat 0 0x2001 ∧ addrOff copyDesc.dst % 64 + copyDesc.rowBytes ≤ 64 ∧
    (ladling copyDesc).ladleRefuse 0 copyDesc.dst copyDesc.rowBytes true = none ∧
    addrOff copyDesc.dst + copyDesc.rowBytes ≤ 2 ^ 48 ∧ (ladling copyDesc).awayChip copyDesc.src = none ∧
    spaceOf (addrOff copyDesc.src) = .vat 0 0x2800 ∧ addrOff copyDesc.src + copyDesc.rowBytes ≤ 2 ^ 48 ∧
    (ladling copyDesc).ladleRefuse 0 copyDesc.src copyDesc.rowBytes false = none ∧ (desc 1 63).rows = 1 ∧
    (desc 1 63).planes = 1 ∧ (desc 1 63).ltEn = false ∧ ((desc 1 63).word 6).getLsbD 31 = false ∧
    addrOff (desc 1 63).dst % 64 + (desc 1 63).rowBytes ≤ 64 ∧
    (ladling (desc 1 63)).ladleRefuse 0 (desc 1 63).dst (desc 1 63).rowBytes true = none ∧
    (ladling (desc 1 63)).ladleCheck 0 (desc 1 63) = none ∧
    takeFirst (fun t => decide (t.id = 9)) (heldLadle.core 0).ladleTxs = some (remoteTx, []) ∧
    heldLadle.coreAlive 0 = true ∧ (heldLadle.core 0).ladleHeld = true ∧ (heldLadle.core 0).ladleRun = [] := by
  decide +kernel

/-- Context 255 collects two cores of region 0; `n` have arrived. -/
def meeting (n : BitVec 11) : State :=
  { live (two 255 0) with
    barriers := { BarrierSt.reset with
                  ctxs := [(255, { Barrier.reset with valid := true, regions := 1, localCount := 2, arrived := n })] } }

def release : Release := { ctx := 4, gen := 2, region := 0, due := 0 }

def releasing : State :=
  { live { core with stall := .barrier 4 2 } with barriers := { BarrierSt.reset with releases := [release] } }

def engineSend : State :=
  { live core with barriers := { BarrierSt.reset with sends := [{ dstChip := 5, kind := .barrierArrive, args := [4, 0] }] } }

theorem hyps_BarriersCollectAndRelease : (meeting 0).canIssue 0 [.g 1] = true ∧ (((meeting 0).core 0).getG 1).toNat = 255 ∧
    ((meeting 0).ctx 255).valid = true ∧ ((meeting 0).ctx 255).frozen = false ∧ (meeting 0).chipDone 0 = true ∧
    ((meeting 0).core 0).arrivedGen 255 = none ∧ ((meeting 0).ctx 255).cross = false ∧ ((meeting 0).ctx 255).state = 0 ∧
    ((meeting 0).ctx 255).arrived.toNat + 1 < ((meeting 0).ctx 255).localCount.toNat ∧
    ((meeting 1).ctx 255).arrived.toNat + 1 = ((meeting 1).ctx 255).localCount.toNat ∧
    ((meeting 1).ctx 255).regions ≠ 0 ∧ (meeting 1).canIssue 0 [.g 1] = true ∧
    takeFirst (fun (r : Release) => releasing.barriers.releases.all (fun x => decide (r.due ≤ x.due)))
      releasing.barriers.releases = some (release, []) ∧ release.due ≤ releasing.now ∧
    releasing.barriers.lastRelease = none ∧
    engineSend.barriers.sends ≠ [] ∧ engineSend.barriers.lastSend = none ∧ engineSend.storeRoom .west = true ∧
    (live core).mayControl .rind = true ∧ ((live core).ctx 7).idle = true := by decide +kernel

/-- A core that asks for the same barrier while a load of its own waits. -/
def fencing : State :=
  (meeting 0).modCore 0 (fun k => { k with memops := [storeNew], nextId := 5 })

theorem hyps_BarrierFences : fencing.canIssue 0 [.g 1] = true ∧ (fencing.ctx 255).valid = true ∧
    (fencing.ctx 255).frozen = false ∧ fencing.chipDone 0 = false := by decide +kernel

theorem hyps_RegionRelease : (releasing.core 0).stall = .barrier 4 2 ∧ 0 ∈ releasing.org.regionCores 0 ∧
    1023 ∉ releasing.org.regionCores 0 ∧ (releasing.org.regionCores 0).Nodup := by decide +kernel

/-! ## What homes perform for caches, engines and the register windows -/

/-- The set of line 7 is full of clean lines but for one, the least recently used, that is dirty. -/
def fullSet : State :=
  live { filled.core 0 with cache := [(0x407, some { data := 1, dirty := 2, poison := 0 })] ++ [0x807, 0xC07, 0x1007].map (fun n =>
      (n, some { data := 9, dirty := 0, poison := 0 })), recent := [(7, some 0x1007)] }

/-- A load of the line that a fill brings. -/
def loadMiss : MemOp :=
  { id := 3, kind := .load 1 false, pc := pc, addr := 0xFFFF0000000001C8, off := 0x1C8, len := 8,
    parts := accessParts false 0x1C8 8 true, bytes := List.replicate 8 0, poisoned := false }

def missing : State := live { filled.core 0 with memops := [loadMiss] }

theorem hyps_CacheStoresAndLandings : cached.canIssue 0 [.g 1, .g 2] = true ∧
    cached.checkAccess 0 (0xFFFF000000001000 + (0 : BitVec 16).signExtend 64) 8 true false false = .ok 0x1000 true ∧
    cached.storeRefused 0 0x1000 = false ∧
    takeFirst (fun x => x.line == 7) (fullSet.core 0).fills = some ({ line := 7, speculative := false, read := some (5, 0) }, []) ∧
    4 ≤ ((fullSet.core 0).cache.filter (fun e => e.1 % 1024 = 7 % 1024)).length ∧ Tab.wf none (fullSet.core 0).cache = true ∧
    (fullSet.core 0).memops = [] ∧ fullSet.responseWaits 0 (64 * 7) = false ∧ (missing.core 0).memops = [loadMiss] ∧
    loadMiss.parts.map (fun q => (q.cached, q.performed, (0x1C8 + q.rel) / 64)) = [(true, false, 7)] ∧
    ((missing.core 0).cache.filter (fun e => e.1 % 1024 = 7 % 1024)).length < 4 := by decide +kernel

/-- A load of START_PC of core 0 (02 Table 2.7); a fill and a write-back that HBM is to perform. -/
def loadReg : MemOp :=
  { loadDone with off := 0x10100003000, addr := 0xFFFF010100003000, parts := accessParts false 0x10100003000 8 false }

def readingReg : State := live { core with memops := [loadReg], startPc := 0x1234 }

def hbmLines : State :=
  { dirtyLine with cores := [(0, { dirtyLine.core 0 with fills := [{ line := 0x41, speculative := false, read := none }] })] }

theorem hyps_HomesServeLines : (readingReg.core 0).memops.find? (fun x => decide (x.id = 3)) = some loadReg ∧
    loadReg.parts.map (fun q => (q.rel, q.len, q.cached, q.performed)) = [(0, 8, false, false)] ∧
    (readingReg.core 0).mayPerform loadReg 0x10100003000 8 = true ∧ readingReg.requestWaits 0 0x10100003000 = false ∧
    (spaceOf 0x10100003000).isRegs = true ∧ readingReg.vatLost 0x10100003000 = false ∧
    (readingReg.regBytes 0x10100003000 8).length = 8 ∧
    (hbmLines.core 0).fills.find? (fun f => decide (f.line = 0x41)) = some { line := 0x41, speculative := false, read := none } ∧
    Reaches 0 hbmLines (64 * 0x41) ∧ (hbmLines.core 0).line 0x40 = some { data := 0x1122334455667788, dirty := 2, poison := 0 } ∧
    Reaches 0 hbmLines (64 * 0x40) ∧ hbmLines.rangePoisoned (64 * 0x41) 64 = false := by
  have h (n : Nat) (hn : ∀ j, j < 64 → hbmLines.channelFailed (64 * n + j) = false) (a : Nat) (ha : a / 64 = 64 * n / 64) :
      hbmLines.channelFailed a = false := by
    have e : a = 64 * n + a % 64 := by omega
    rw [e]
    exact hn _ (Nat.mod_lt _ (by decide))
  refine ⟨by decide +kernel, by decide +kernel, by decide +kernel, by decide +kernel, by decide +kernel, by decide +kernel,
    by decide +kernel, by decide +kernel, ⟨by decide +kernel, .inr ⟨by decide +kernel, h 0x41 (by decide +kernel), by decide +kernel⟩⟩,
    by decide +kernel, ⟨by decide +kernel, .inr ⟨by decide +kernel, h 0x40 (by decide +kernel), by decide +kernel⟩⟩, by decide +kernel⟩

/-- A COPY of 16 bytes within the Vat under way, its transaction still to read its source. -/
def onChipTx : LadleTx :=
  { remoteTx with id := 4, src := copyDesc.src, dst := copyDesc.dst, len := 16, path := .onChip, acked := false }

def copying (early : Tab (List (Byte × Bool))) : State :=
  live { core with ladleTxs := [{ onChipTx with early := early }],
                   ladleRun := [{ desc := copyDesc, ents := [], row := 0, off := 0, issuedAll := true }] }

/-- A COPY from the Vat to chip 5 whose entry has still to be issued. -/
def awayDesc : LadleDesc := { desc 0 16 with w := (vat + 0x800) :: 0x0005010000002000 :: (desc 0 16).w.drop 2 }

def sendingRun : LadleRun :=
  { desc := awayDesc, row := 0, off := 0, issuedAll := false
    ents := [{ idx := 0, dst := awayDesc.dst, rt := 0, flow := 0, issued := false, rtDone := false }] }

def copyingAway : State :=
  { live { core with ladleRun := [sendingRun] } with fab := { FabSt.reset with chip := 4 } }

theorem hyps_EnginesMoveLines : (running.core 0).pressHeld = false ∧ (running.core 0).engineInReset = false ∧
    ((running.pressSync 0).core 0).pressRun.find? (fun x => x.cmd.sub == pressRun.cmd.sub) = some pressRun ∧
    pressRun.lines[0]? = some { line := 0x30, data := 7, mask := 0xF, poison := false } ∧ running.coreAlive 0 = true ∧
    ((copying []).core 0).ladleTxs.find? (fun t => decide (t.id = 4)) = some onChipTx ∧
    (((copying []).core 0).ladleRun.find? (fun r => r.desc.sub == onChipTx.sub)).map (fun r => r.desc) = some copyDesc ∧
    onChipTx.path = .onChip ∧ copyDesc.isFill = false ∧ mayRead [] (addrOff onChipTx.src) 16 (0x10000002800 / 64) = true ∧
    (copying []).requestWaits 0 0x10000002800 = false ∧ (copying []).responseWaits 0 0x10000002800 = false ∧
    (copying []).vatLost 0x10000002800 = false ∧ addrOff onChipTx.dst % 64 + 16 ≤ 64 ∧
    (copying []).homeAsleep (addrOff onChipTx.dst) = none ∧ (desc 1 8).isFill = true ∧
    unread [(0x10000002800 / 64, List.replicate 64 (7, false))] (addrOff onChipTx.src) 16 = [] ∧
    (copyingAway.core 0).ladleOpen.find? (fun x => x.1.desc.sub == (6 : BitVec 16)) =
      some (sendingRun, { idx := 0, dst := awayDesc.dst, rt := 0, flow := 0, issued := false, rtDone := false }) ∧
    0 < awayDesc.rows * awayDesc.planes ∧ (copyingAway.awayChip awayDesc.dst).isSome = true ∧
    copyingAway.awayChip awayDesc.src = none ∧ (copyingAway.core 0).ladleHeld = false ∧ copyingAway.regionParked 0 = false ∧
    copyingAway.ladleRefuse 0 awayDesc.src 16 false = none := by decide +kernel

/-! ## Power -/

/-- A machine whose loaded job runs. -/
def loaded : State := { office with job := { office.job with state := 2 } }

theorem hyps_PowerWrites : office.rindActive = true ∧ office.carries .rack = true ∧
    office.carries .host = true ∧ loaded.carries .host = true ∧ loaded.carries .rack = true ∧ (30 : BitVec 8).toNat ≤ 30 ∧ 30 < (31 : BitVec 8).toNat ∧
    (0 : BitVec 8).toNat = 0 ∧ 2 < (3 : BitVec 8).toNat ∧ office.pow.effective ≤ 1 ∧ office.pow.hostOrder ≤ 1 ∧
    office.pow.rackOrder ≤ 1 ∧ (2 : BitVec 8).toNat = 2 ∧ office.jobLoaded = false ∧ loaded.jobLoaded = true ∧ loaded.rindActive = true ∧
    loaded.pow.effective ≤ 1 ∧ 800 ≤ (2000 : BitVec 16).toNat ∧ (2000 : BitVec 16).toNat % 25 = 0 ∧
    (801 : BitVec 16).toNat % 25 ≠ 0 ∧ (799 : BitVec 16).toNat < 800 ∧ 2000 < (2001 : BitVec 16).toNat := by decide +kernel

theorem hyps_Grants : ([(5, true), (7, false)] : List (Nat × Bool))[1]? = some (7, false) ∧
    ([(5, true), (7, false)].foldl (fun n d => if d.2 then n + d.1 else n) 0) ≤ 5 := by decide +kernel

def capDue : State := { live core with pow := { PowSt.reset with capPending := true, effCap := 1 } }

/-- A telemetry in which every region draws at least 9 W at its lowest state. -/
def needy : Telemetry := { telemetry with lowest := List.replicate 16 9000000, parked := 0 }

/-- A telemetry in which the package draws more at its lowest state than the budget, and one in which even its parked draw is more. -/
def scarce : Telemetry := { telemetry with lowestTotal := 100000000 }
def dark : Telemetry := { scarce with parked := 100000000 }

def duty : State := { live core with pow := { PowSt.reset with floorMode := 1 } }

/-- Every region parked for a reason that has gone. -/
def parkedAll : State := { live core with pow := { PowSt.reset with parked := 0xFFFF } }

/-- A region below its fixed clock in fixed mode. -/
def slowed : State :=
  { live core with pow := { PowSt.reset with mode := 1 }, regions := [(0, { region with limitCause := 1 })] }

def wasThrottled : State :=
  { live core with pow := { PowSt.reset with throttleOpen := some ⟨0, 1, 1, 8, 800⟩ } }

/-- Regions 3 and 4 parked by a release that has come to region 3. -/
def parkedTwo : State := { live core with pow := { PowSt.reset with parked := 0x18, unparkFrom := 3 } }

/-- Some region with a core would get less than it draws at the lowest operating state. -/
def fallsShort (e : Telemetry) (s : State) : Bool :=
  let u := s.takeCap
  allRegions.any (fun r => u.hasCores r && decide ((shareBudget (u.demandList e) (u.available e)).getD r 0 < e.lowest.getD r 0))

theorem hyps_RipenerGrants : (live core).rindActive = true ∧ capDue.rindActive = true ∧ capDue.pow.capPending = true ∧
    telemetry.lowestTotal ≤ (live core).takeCap.budgetNow ∧ telemetry.parked ≤ (live core).takeCap.budgetNow ∧
    fallsShort telemetry (live core) = false ∧ needy.lowestTotal ≤ (live core).takeCap.budgetNow ∧
    fallsShort needy (live core) = true ∧ (live core).takeCap.budgetNow < scarce.lowestTotal ∧
    scarce.parked ≤ (live core).takeCap.budgetNow ∧ (live core).takeCap.budgetNow < dark.parked := by decide +kernel

theorem hyps_RipenerParks : duty.pow.floorMode = 1 ∧ capDue.pow.floorMode ≠ 1 ∧ parkedAll.pow.parkReason = false ∧
    parkedAll.barriers.lastRelease = none ∧ parkedAll.pow.unparkAt ≤ parkedAll.now ∧ parkedAll.pow.parked = 0xFFFF ∧
    parkedTwo.pow.parkReason = false ∧ parkedTwo.barriers.lastRelease = none ∧ parkedTwo.pow.unparkAt ≤ parkedTwo.now ∧
    parkedTwo.pow.parked ≠ 0xFFFF ∧ parkedTwo.pow.parked.getLsbD ((parkedTwo.pow.unparkFrom + 0) % 16) = true ∧
    slowed.tickThrottle = 1 ∧ wasThrottled.tickThrottle = 0 ∧ wasThrottled.pow.throttleOpen = some ⟨0, 1, 1, 8, 800⟩ ∧
    (live core).tickThrottle = 0 ∧ (live core).pow.throttleOpen = none := by decide +kernel

/-- The limiter holds, and the power has been low for 100 us. -/
def limited : State :=
  { live core with pow := { PowSt.reset with limiter := true, limiterBelow := some 0 }, now := 100000 }

/-- The limiter holds, and the power has just fallen. -/
def limitedNew : State := { limited with pow := { limited.pow with limiterBelow := none } }

/-- The limiter has held every ceiling at 1 for 100 us. -/
def limitedLong : State :=
  { limited with pow := { limited.pow with limiterBelow := none, limiterFloor := some 0 },
                 regions := [(0, { region with ceiling := 1, current := 1000 })] }

def alerted : State :=
  { live core with tray := { (live core).tray with supplyAlert := true }, pow := { PowSt.reset with alertHeld := true } }

/-- The package's own supply raised the alert. -/
def own : State := { alerted with tray := { alerted.tray with supplyReg := true } }

/-- A ceiling that falls, 512 array cycles after a step. -/
def falling : Region := { region with ceilFall := true, ceiling := 2, cycles := 512000 }

def alertEnding : State := { live core with pow := { PowSt.reset with alertHeld := true, alertUntil := some 0 } }

def withRegion (x : Region) : State := { live core with regions := [(0, x)] }

/-- A region that stretches, whose rise is over, and whose NEXT is past. -/
def old : State :=
  { withRegion { region with stretching := true, rising := true, cycles := 3584000, nextPhase := 0x30005 } with
    ftime := 100000000 }

/-- Region `w` waits for the rise of region 0 to end; region 1 may rise, region 2 has not risen. -/
def oldWaiting (w : Nat) : State :=
  { old with regions := old.regions ++ [(1, { region with ceiling := 3, grant := 100 })], pow := { old.pow with riseWait := [w] } }

def phaser (v : Word) : State := live { core.setG 1 v with phaseEn := true }

/-- A region at `mhz` with ceiling `n` that may draw 100 mW. -/
def governed (mhz n : Nat) : State := withRegion { region with grant := 100, current := mhz, ceiling := n }

/-- One whose rise goes on. -/
def climbing : State := withRegion { region with grant := 100, current := 800, ceiling := 2, rising := true }

/-- The same, 512 array cycles after the step before. -/
def climbed : State := withRegion { region with grant := 100, current := 800, ceiling := 2, rising := true, cycles := 512000 }

/-- A clock at ceiling 8 whose rail has been set for the next step. -/
def aimed (mhz : Nat) : State := withRegion { region with grant := 100, current := mhz, target := mhz + 25, ceiling := 8 }

/-- The position of the core of region 0 that a gate write may turn off, and a position whose core runs. -/
def gates : State := live core

theorem hyps_LimiterActs : (live core).pow.limiter = false ∧ (live core).pow.fastLimit < 5280001 ∧
    5280000 ≤ (live core).pow.fastLimit ∧ limited.pow.limiter = true ∧ 5000000 * 100 < limited.pow.fastLimit * 95 ∧
    limited.pow.limiterBelow = some 0 ∧ 0 + 100000 ≤ limited.now ∧ limitedNew.pow.limiter = true ∧
    1 * 100 < limitedNew.pow.fastLimit * 95 ∧ limitedNew.pow.limiterBelow = none ∧ limitedLong.pow.limiter = true ∧
    limitedLong.pow.fastLimit < 5280001 ∧ limitedLong.pow.limiterFloor = some 0 ∧ 0 + 100000 ≤ limitedLong.now ∧
    limitedLong.pow.limiterClock + 10000 ≤ limitedLong.now ∧
    limitedLong.regions.all (fun e => !e.2.risen || decide (e.2.ceiling ≤ 1)) = true ∧
    ((live core).region 0).risen = true := by decide +kernel

theorem hyps_SupplyAlert : alerted.tray.supplyAlert = true ∧ alerted.tray.supplyReg = false ∧ own.tray.supplyAlert = true ∧
    own.tray.supplyReg = true ∧ region.ceilFall = false ∧ region.clockFall = false ∧ 1 < region.ceiling ∧
    825 ≤ { region with current := 825 }.current ∧ falling.ceilFall = true ∧ falling.ceilStep + 512000 ≤ falling.cycles ∧
    1 < falling.ceiling ∧ { falling with cycles := 511999 }.cycles < falling.ceilStep + 512000 ∧
    { region with clockFall := true, clockWait := 1, current := 825 }.clockWait ≤ 1 ∧
    1 < { region with clockFall := true, clockWait := 2 }.clockWait ∧ alertEnding.tray.supplyAlert = false ∧
    alertEnding.pow.alertUntil = some 0 ∧ 0 ≤ alertEnding.now ∧ alerted.now < 10000000 := by decide +kernel

theorem hyps_DroopRisesAndPhases : ((live core).region 0).risen = true ∧
    ((live core).region 0).stretching = false ∧ (old.region 0).stretching = true ∧
    (old.region 0).stretchFrom + 32000 ≤ (old.region 0).cycles ∧ { old.region 0 with cycles := 31999 }.cycles < 0 + 32000 ∧
    (old.region 0).rising = true ∧
    (old.region 0).riseStart + 3584000 ≤ (old.region 0).cycles ∧ old.pow.riseWait = [] ∧
    (climbing.region 0).rising = true ∧ (climbing.region 0).cycles < (climbing.region 0).riseStart + 3584000 ∧
    (oldWaiting 1).pow.riseWait = [1] ∧ (oldWaiting 1).mayRise 1 = true ∧ (oldWaiting 1).risingCount ≤ 6 ∧
    ((oldWaiting 1).region 0).rising = true ∧ (oldWaiting 2).mayRise 2 = false ∧ (old.region 0).nextPhase ≠ 0 ∧
    100000000 ≤ old.pastDue (old.region 0) ∧ (live core).pastDue ((live core).region 0) < 100000000 := by decide +kernel

theorem hyps_Phases : (live core).canIssue 0 [.g 1] = true ∧
    ((live core).core 0).phaseEn = false ∧ (phaser 0x20000).canIssue 0 [.g 1] = true ∧
    ((phaser 0x20000).core 0).phaseEn = true ∧ phaseAhead (((phaser 0x20000).core 0).getG 1 &&& 0xFFFFFFFF) = 0 ∧
    phaseAhead (((phaser 0x20FFF).core 0).getG 1 &&& 0xFFFFFFFF) ≠ 0 := by decide +kernel

/-- The runtime has started. -/
def started (s : State) : State := { s with start := { s.start with ran := true } }

/-- Fixed mode, the limiter, and a parked region. -/
def fixed (s : State) : State := { started s with pow := { s.pow with mode := 1 } }
def limits (s : State) : State := { s with pow := { s.pow with limiter := true } }
def parks (s : State) : State := { s with pow := { s.pow with parked := 1 } }

/-- Eight regions rise; region 8 would. -/
def crowded : State :=
  { governed 900 5 with regions := (List.range 8).map (fun r => (r, { region with rising := true, ceiling := 5 })) ++
      [(8, { region with grant := 100, current := 900, ceiling := 5 })] }

theorem hyps_GovernorForced : (alerted.region 0).risen = true ∧ (alerted.region 0).inReset = false ∧
    alerted.pow.grantsDue = none ∧ alerted.pow.alertHeld = true ∧
    (limits (started (governed 800 8))).lowestForced = false ∧ (limits (started (governed 800 8))).pow.limiter = true ∧
    (limits (started (governed 800 8))).pow.parked.getLsbD 0 = false ∧ 800 ≤ (started (governed 800 8)).topMhz ∧
    (parks (started (governed 900 8))).lowestForced = false ∧ (parks (governed 900 8)).pow.limiter = false ∧
    (parks (governed 900 8)).pow.parked.getLsbD 0 = true := by decide +kernel

theorem hyps_GovernorFalls : (started (governed 900 8)).lowestForced = false ∧ (governed 900 8).pow.limiter = false ∧
    (governed 900 8).pow.parked.getLsbD 0 = false ∧ (governed 900 8).pow.effective ≠ 2 ∧ (governed 900 8).pow.mode = 0 ∧
    ((governed 900 8).region 0).grant < 101 ∧ 800 < ((governed 900 8).region 0).current ∧
    ((governed 800 1).region 0).current ≤ 800 ∧ (fixed (governed 2000 5)).pow.mode = 1 ∧
    (fixed (governed 2000 5)).lowestForced = false ∧
    ((fixed (governed 2000 5)).region 0).current = (fixed (governed 2000 5)).topFor 0 ∧
    98 ≤ ((fixed (governed 2000 8)).region 0).grant ∧ ((fixed (governed 2000 8)).region 0).grant * 97 ≤ 98 * 100 ∧
    (fixed (governed 2000 8)).rindActive = true ∧ { (governed 900 5).rind with a := .starter }.a ≠ .active := by
  decide +kernel

theorem hyps_GovernorRises : 96 * 100 < ((started (governed 900 5)).region 0).grant * 97 ∧
    (started (governed 900 5)).rindActive = true ∧ (started (governed 900 5)).lowestForced = false ∧
    ((started (governed 900 5)).region 0).current ≤ (started (governed 900 5)).topFor 0 ∧
    ((started climbing).region 0).ceiling < 8 ∧ ((started climbing).region 0).rising = true ∧
    (started climbed).lowestForced = false ∧ ((started (governed 900 5)).region 0).rising = false ∧
    (started (governed 900 5)).risingCount < 6 ∧ (started (governed 900 5)).pow.riseWait = [] ∧
    (crowded.region 8).rising = false ∧ (crowded.region 8).ceiling < 8 ∧ 8 ≤ crowded.risingCount ∧
    crowded.lowestForced = false ∧ ((started (aimed 900)).region 0).target = 925 ∧
    ((started (aimed 900)).region 0).raisedAt = none ∧ 900 + 25 ≤ (started (aimed 900)).topFor 0 ∧
    ((started (governed 900 8)).region 0).target ≠ 925 ∧ (started (governed 900 8)).topMhz ≠ 900 := by decide +kernel

theorem hyps_GatesCloseOnlyWhenFree : gates.mayControl .rind = true ∧
    (gates.region 0).gate.getLsbD 0 = true ∧ (gates.region 0).gate.getLsbD 63 = true := by decide +kernel

theorem hyps_GateBits : gates.gateFree 0 0 = false ∧ gates.gateFree 0 63 = true ∧
    (gates.region 0).gateRefused.toNat < 0xFFFF := by decide +kernel

/-! ## HBM -/

/-- Two stacks interleave one channel each; a tail channel lies below them. -/
def smallHbm : HbmSt :=
  { HbmSt.reset with inter := [(0, [0]), (1, [0])], tail := [(0, 1)], limit := 3 * twoGiB }

theorem hyps_OffsetsHaveOnePlace : Layout smallHbm ∧ smallHbm.loc 0x7FFFFFFF = some (0, 1, 0x7FFFFFFF) ∧
    smallHbm.loc 0x80000100 = some (1, 0, 0) := by
  unfold Layout
  decide +kernel

/-- Every fitted stack powered 10 ms ago. -/
def stacksOn : State :=
  { live core with org := { OrgSt.reset with transitOn := true, memoryOn := 0xFF },
                   hbm := { HbmSt.reset with lastPowered := some 0 }, now := 10000000 }

def training : State := { stacksOn with hbm := { HbmSt.reset with trainingSince := some 0 } }

def hbmStep : State := { live core with start := { StartSt.reset with step := 6 } }

theorem hyps_HbmPowersAndTrains : hbmStep.org.transitOn = true ∧ hbmStep.hbmRising = true ∧ hbmStep.hbm.trainingSince = none ∧
    hbmStep.hbm.lastPowered = none ∧ hbmStep.org.fitted.find? (fun n => !hbmStep.org.memoryOn.getLsbD n) = some 0 ∧
    stacksOn.hbm.lastPowered = some 0 ∧ 0 + 10000000 ≤ stacksOn.now ∧ stacksOn.hbm.trainingSince = none ∧
    (∀ n ∈ stacksOn.org.fitted, stacksOn.org.memoryOn.getLsbD n = true) ∧ training.hbm.trainingSince = some 0 ∧
    training.hbm.trainingRecovery = false ∧ 7 ∈ training.org.fitted ∧ training.org.transitOn = true := by decide +kernel

/-- The layout of `smallHbm` in a machine whose two stacks are in use. -/
def hbmUsed : State :=
  { live core with hbm := { smallHbm with stackTab :=
      [(0, { Stack.reset with state := 4, healthy := 3 }), (1, { Stack.reset with state := 4, healthy := 1 })] } }

theorem hyps_HbmErrorsAndTemperature : (hbmUsed.stack 1).state = 4 ∧
    hbmUsed.hbm.nextScrub 1 (hbmUsed.stack 1).healthy (hbmUsed.stack 1).scrub = (some 0x80000100, 1) ∧
    hbmUsed.hbm.loc 0x80000100 = some (1, 0, 0) ∧ Tab.get false hbmUsed.uncorrectable (0x80000100 / 32) = false ∧
    (hbmUsed.stack 0).healthy.getLsbD 1 = true ∧ (hbmUsed.stack 0).failed.getLsbD 1 = false ∧
    hbmUsed.org.record.hbmFitted.getLsbD 7 = true ∧ (State.reset.stack 7).lastValid + 100000000 ≤ { State.reset with now := 100000000 }.now := by
  decide +kernel

/-! ## Start-up, main power, tray -/

def good : StarterResult := { starterOk := true, rindOk := true, selfTest := true, keysMatch := true, bootOk := true }
def bad : StarterResult := { good with selfTest := false }

def atStep (n : Nat) : State :=
  { live core with start := { State.reset.start with step := n, groups := 6 },
                   fab := { FabSt.reset with
                     ports := (List.range 48).map (fun p => (p, { Port.reset with state := stUnused })) } }

def ownB : State := { State.reset with rind := { RindSt.reset with b := .standby }, now := 3000000000 }

def mainOn : State :=
  { atStep 3 with tray := { State.reset.tray with mainPg := true, holdsMain := true, mainReq := 1 } }

def risenAll : State :=
  { atStep 5 with regions := (List.range 16).map (fun r => (r, region)) }

def timed : State := { atStep 9 with now := 3000000000 }

def rising15 : State := { live core with start := { State.reset.start with rising := true, rises := 15 }, regions := [] }

def entry : AppEntry := { seq := 0, time := 0, kind := .hbmRow, location := 7, cause := 1 }

/-- An appendix entry waits for the flash, and a Rack cap. -/
def flashing : State :=
  { live core with tray := { State.reset.tray with flash := [.appendix, .value 0x2001 1], holdup := true, eject := false },
                   org := { OrgSt.reset with pendingEntries := [entry] } }

/-- Copy A has the entry, copy B is to follow; and the cap is next. -/
def flashingB : State := { flashing with org := { flashing.org with copyA := { RecordCopy.reset with entries := [{ entry with seq := 1 }] } } }
def flashingCap : State := { flashing with tray := { flashing.tray with flash := [.value 0x2001 1] } }

/-- Step 0x06 after a training that left no layout, and an end of step 0x07 with a bad lane. -/
def hbmDone : State := { atStep 6 with hbm := { HbmSt.reset with stackTab := [(0, { Stack.reset with state := 6 })] } }

/-- Step 0x05 without COMPUTE. -/
def dark5 : State := { atStep 5 with org := { OrgSt.reset with transitOn := true } }

/-- A trip holds main power back in step 0x03. -/
def tripped3 : State :=
  { atStep 3 with start := { (atStep 3).start with cause := 3 }, therm := { State.reset.therm with heatTrip := true } }

/-- Copy A of the part record is to be rewritten from copy B, which governs. -/
def rewriting : State :=
  { flashing with tray := { flashing.tray with flash := [.record] },
                  org := { OrgSt.reset with copyA := { RecordCopy.reset with bodyOk := false } } }

theorem hyps_StartRunsItsSteps : State.reset.tray.holdsMain = false ∧ .value 0x2001 1 ∉ State.reset.tray.flash ∧
    .value 0x2001 1 ∈ flashing.tray.flash ∧ .value 0x2020 1 ∉ State.reset.tray.flash ∧
    .value 0x4020 1 ∉ State.reset.tray.flash ∧ State.reset.start.failed = false ∧ (atStep 2).start.step = 2 ∧
    (atStep 2).rindActive = true ∧ State.reset.start.step = 1 ∧
    State.reset.rind.a = .starter ∧ State.reset.rind.b = .starter ∧ starterPasses good bad = true ∧
    starterPasses bad good = false ∧ ownB.start.step = 1 ∧ ownB.rind.b = .standby ∧ ownB.rind.ownA = false ∧
    3000000000 ≤ ownB.now ∧ (atStep 1).start.step = 1 ∧ (atStep 1).rindActive = true ∧ mainOn.start.step = 3 ∧
    mainOn.tray.mainPg = true ∧ mainOn.tray.holdsMain = true ∧ (atStep 4).start.step = 4 ∧ risenAll.start.step = 5 ∧
    risenAll.allRisen = true ∧ (atStep 7).start.step = 7 ∧ (atStep 8).start.step = 8 ∧ (atStep 8).portsDecided = true ∧
    timed.start.step = 9 ∧ timed.tablesEnded = true ∧ rising15.start.rising = true ∧ rising15.start.rises < 16 ∧
    rising15.start.lastRise = none ∧ { atStep 8 with start := { (atStep 8).start with groups := 5 } }.start.groups < 6 ∧
    (atStep 8).start.lastGroup = none := by decide +kernel

/-- A machine whose Starter finds a clock absent. -/
def clockless (s : State) : State := { s with tray := { s.tray with refSys := false } }

theorem hyps_StartFindsWhatFails : (clockless State.reset).start.step = 1 ∧ (clockless State.reset).rind.a = .starter ∧
    (clockless State.reset).rind.b = .starter ∧ (clockless State.reset).tray.refSys = false ∧
    (clockless ownB).tray.refSys = false ∧ (clockless ownB).rind.b = .standby ∧ (clockless ownB).now = 3000000000 ∧
    (atStep 2).org.anyBody = true ∧ dark5.start.step = 5 ∧ dark5.org.computeOn = false ∧ hbmDone.start.step = 6 ∧
    hbmDone.trainingEnded = true ∧ hbmDone.computeReady = false ∧ hbmDone.hbmServes = false ∧
    rising15.org.computeOn = true := by decide +kernel

theorem hyps_MainPowerWaits : (managed (atStep 11)).rindActive = true ∧ (managed (atStep 11)).carries .owner = true ∧
    (managed (atStep 11)).tray.holdsMain = false ∧ (managed (atStep 11)).tray.mainReq ≠ 1 ∧
    3 ≤ (managed (atStep 11)).start.step ∧ (managed (atStep 11)).mainAllowed = true ∧
    3 ≤ (managed tripped3).start.step ∧ (managed tripped3).mainAllowed = false ∧ (managed tripped3).start.cause = 3 ∧
    (managed tripped3).tray.mainReq ≠ 1 ∧ (managed tripped3).carries .owner = true ∧ office.start.step < 3 ∧
    (atStep 4).mainFed = true ∧ (atStep 4).tray.holdsMain = false ∧ State.reset.mainFed = false ∧
    State.reset.tray.holdsMain = false := by decide +kernel

theorem hyps_MainPower : mainOn.tray.mainReq = 1 ∧ mainOn.therm.heatTrip = false ∧ (live core).tray.mainReq ≠ 1 ∧
    mainOn.tray.holdsMain = true ∧ office.rindActive = true ∧ office.carries .owner = true ∧
    (managed mainOn).rindActive = true ∧ (managed mainOn).carries .owner = true ∧ (managed mainOn).tray.holdsMain = true ∧ (2 : BitVec 8) ≠ 1 ∧
    (live core).tray.refSys = true ∧ (live core).tray.refFab = true := by decide +kernel

def polling : State :=
  { live core with tray := { State.reset.tray with format := 256, lastSeq := some 1 } }

theorem hyps_RecordIsRewritten : rewriting.rindActive = true ∧ rewriting.tray.holdup = true ∧ rewriting.tray.eject = false ∧
    rewriting.tray.flash = [.record] ∧ rewriting.org.governing = some rewriting.org.copyB := by decide +kernel

theorem hyps_MainPowerAndTray : flashing.rindActive = true ∧ flashing.tray.holdup = true ∧ flashing.tray.eject = false ∧
    flashing.tray.flash = [.appendix, .value 0x2001 1] ∧ flashing.org.pendingEntries = [entry] ∧
    flashing.org.behindB = false ∧ flashingB.org.behindB = true ∧ flashingB.tray.flash = flashing.tray.flash ∧
    flashingB.org.pendingEntries = [entry] ∧ flashingCap.tray.flash = [.value 0x2001 1] ∧ flashingCap.rindActive = true ∧
    flashingCap.tray.holdup = true ∧ flashingCap.tray.eject = false ∧
    { flashing with tray := { flashing.tray with eject := true } }.tray.eject = true ∧
    { trayRegs with formatMajor := 2 }.formatMajor ≠ 1 ∧ trayRegs.formatMajor = 1 ∧ polling.tray.format ≠ 0 ∧
    polling.rind.switching = none ∧ polling.tray.lastSeq = some trayRegs.seq ∧ polling.rindActive = true ∧
    Role.owner ≠ .observer ∧ office.rindActive = true ∧ office.carries .owner = true ∧ 1 < (2 : BitVec 8).toNat ∧
    { polling with tray := { polling.tray with locateUntil := some 0 } }.tray.locateUntil = some 0 := by decide +kernel

/-! ## The Rind pair -/

/-- A active, B standby and healthy since the start, with `n` releases of A. -/
def pair (n : Nat) : State :=
  { atStep 10 with rind := { RindSt.reset with
      a := .active, b := .standby, ownA := true, releasesA := n, healthy := true, healthySince := some 0 },
                   now := 200000000000 }

/-- A has dropped its line; B may claim. -/
def switching : State :=
  { pair 0 with rind := { (pair 0).rind with a := .starter, ownA := false, nextCause := 2 } }

/-- B active, A standby. -/
def swappedRoles : State :=
  { pair 0 with rind := { (pair 0).rind with a := .standby, b := .active, ownA := false, ownB := true } }

def slotIn (n : Nat) : Slot := { Slot.reset with state := n }

/-- A RIND update in which the slots of A and B stand at these states. -/
def updating (x : State) (a b : Nat) (first : Bool) : State :=
  { x with fw := { x.fw with
      images := [(2, { Image.reset with slot0 := slotIn a, slot1 := slotIn b })],
      update := { x.fw.update with type := 2, state := 4, firstDone := first, holdFrom := some 0, bootAt := some 0 } } }

def tests (lag : Nat) : StandbyTests :=
  { lockstepDetected := true, loopbackOk := true, memoryPass := true, memoryErrors := 0, mirrorLag := lag }

theorem hyps_RindPair : (pair 1).rind.active = some .a ∧ (pair 1).rind.releases .a < 2 ∧ 2 ≤ (pair 2).rind.releases .a ∧
    (pair 2).rind.releases .a < 0xFF ∧ switching.rind.standby = some .b ∧ switching.rindActive = false ∧
    switching.standbyHealthy = true ∧ switching.rind.lowFor (Rind.other .b) switching.now = true ∧
    switching.rind.role .a = .starter ∧ switching.beingWritten .a = false ∧ switching.rind.releases .a < 3 ∧
    good.selfTest = true ∧ good.keysMatch = true ∧ good.starterOk = true ∧ (pair 0).rind.standby = some .b ∧
    (tests 100).mirrorLag ≤ 100 ∧ 100 < (tests 101).mirrorLag ∧ (tests 0).memoryErrors = 0 ∧
    (pair 0).rindActive = true ∧ (pair 0).rind.mirror.energyAt + 100000000 ≤ (pair 0).now ∧
    swappedRoles.rind.b = .active ∧ swappedRoles.rind.a = .standby ∧ swappedRoles.healthyFor 60000000000 = true ∧
    swappedRoles.handoverHeld = false ∧ swappedRoles.fw.update.isOpen = false := by decide +kernel

theorem hyps_AtMostOneActive : AtMostOneActive (pair 0) ∧ AtMostOneActive switching ∧ AtMostOneActive swappedRoles ∧
    switching.flashOpen = true ∧ (updating (pair 0) 4 5 false).flashOpen = true ∧ good.rindOk = true := by
  unfold AtMostOneActive
  decide +kernel

theorem hyps_RindPairUpdates : (updating (pair 0) 5 4 false).fw.update.type = 2 ∧
    (updating (pair 0) 5 4 false).fw.update.state = 4 ∧ (updating (pair 0) 5 4 false).rind.active = some .a ∧
    (updating (pair 0) 5 4 false).rind.standby = some .b ∧ (updating (pair 0) 5 4 false).fw.update.firstDone = false ∧
    ((updating (pair 0) 5 4 false).rindImage .b).state = 4 ∧
    (updating (pair 0) 5 4 false).healthyFor 30000000000 = true ∧ (updating (pair 0) 5 4 false).handoverHeld = false ∧
    ((updating (pair 0) 4 5 false).rindImage .a).state = 4 ∧
    heldFor (updating (pair 0) 4 5 false).fw.update.holdFrom 30000000000 (pair 0).now = true ∧
    (updating (pair 0) 5 4 true).fw.update.firstDone = true ∧ ((updating (pair 0) 5 4 true).rindImage .b).state = 4 ∧
    heldFor (updating (pair 0) 4 5 false).fw.update.bootAt 120000000000 (pair 0).now = true := by decide +kernel

/-! ## Ports, plans and routes -/

def planEntry : PlanEntry := { use := 1, peerPort := 0, peerChip := 5, length := 0, peerSerial := List.replicate 16 7 }

def plan : Plan :=
  { blob := [], id := 9, chip := 4, group := 0, member := 0, entries := planEntry :: List.replicate 47
      { planEntry with use := 0 }, signer := [] }

def planned : FabSt := { FabSt.reset with plan := some plan, planId := 9 }

/-- Port 0 as `x`, under `f`. -/
def withPort (f : FabSt) (x : Port) : State := { live core with fab := { f with ports := [(0, x)] }, now := 5000000000 }

/-- A port that entered service with the neighbour of `frame`. -/
def serving : Port :=
  { Port.reset with state := stService, trained := true, service := some (IdFrame.serial frame, 0, 1), limitFrom := some 0 }

/-- One in quarantine whose link is up. -/
def quarantined : Port := { serving with state := stQuarantine, cause := 0x03, service := none }

/-- Port 44 in service under a plan that puts it in site mode. -/
def siteServing : State :=
  { live core with
    fab := { planned with
      plan := some { plan with entries := List.replicate 48 { planEntry with use := 5 } },
      ports := [(44, serving)] } }

/-- Port 44 without a link, under such a plan. -/
def siteWaiting (x : Port) : State := { siteServing with fab := { siteServing.fab with ports := [(44, x)] } }

/-- A package whose port 44 can run in site mode, with a Cave, a receive store and a module that serves. -/
def inCaves (s : State) : State :=
  ({ s with org := { s.org with record := { s.org.record with siteCapable := 0xFFFF } } }).modSitePort 44 (fun x =>
    { x with caveBase := 0x2000000000, storeBase := 0x3000000000, moduleState := 1 })

/-- A frame of another serial; one of protocol 2; one with a bit flipped. -/
def otherSerial : IdFrame := IdFrame.sealed { frame with w1 := 0x0808080808080808, w7 := 0 }
def protoTwo : IdFrame := IdFrame.sealed { frame with w0 := 0x0102020000058000, w7 := 0 }
def flipped : IdFrame := { frame with w3 := 8 }

theorem hyps_PortsMeetTheirNeighbours : (withPort planned serving).org.transitOn = true ∧
    ((withPort planned serving).port 0).state = stService ∧ ((withPort planned serving).port 0).frameSent = none ∧
    (withPort planned serving).tray.refFab = true ∧ ((withPort planned serving).port 0).sendsFrames = true ∧
    IdFrame.crcOk flipped = false ∧ frame.crcOk = true ∧ frame.frameType = 1 ∧ serving.trained = true ∧
    serving.changedBy frame = false ∧ serving.changedBy otherSerial = true ∧ otherSerial.crcOk = true ∧ otherSerial.frameType = 1 ∧ serving.asm = [] ∧
    ((withPort planned quarantined).port 0).state ≠ stService ∧ ((withPort planned quarantined).port 0).trained = true ∧
    (siteWaiting Port.reset).isSite 44 = true ∧ ((siteWaiting Port.reset).port 44).trained = false ∧
    (siteWaiting Port.reset).org.transitOn = true ∧ (siteWaiting Port.reset).tray.refFab = true ∧
    (siteWaiting Port.reset).siteRefusal 44 ≠ none ∧ (inCaves (siteWaiting Port.reset)).siteRefusal 44 = none ∧
    protoTwo.protoMajor ≠ 1 ∧ protoTwo.crcOk = true ∧ protoTwo.frameType = 1 ∧
    (siteServing.port 44).trained = true ∧
    ((withPort planned serving).port 0).lastFrame + 350000000 ≤ (withPort planned serving).now ∧
    siteServing.isSite 44 = true ∧ (siteServing.port 44).state = stService ∧
    ((withPort planned Port.reset).port 0).trained = false ∧ (withPort planned Port.reset).isSite 0 = false ∧
    frame.protoMajor = 1 ∧ frame.serial ≠ (withPort planned Port.reset).ownSerial ∧
    (withPort FabSt.reset Port.reset).planEntry 0 = none ∧ (withPort planned Port.reset).planEntry 0 = some planEntry ∧
    planEntry.use ≠ 0 ∧ planEntry.meets frame = true ∧ 15 ≤ flightLimit planEntry.use + 10 ∧
    frame.planId = (withPort planned Port.reset).fab.planId ∧ frame.planId ≠ 0 ∧ frame.protoMinor = 2 ∧ (withPort planned Port.reset).org.transitOn = true ∧
    (withPort planned Port.reset).tray.refFab = true ∧
    ((withPort planned Port.reset).port 0).lastTry + 1000000000 ≤ (withPort planned Port.reset).now := by decide +kernel

theorem hyps_PortMissing : ((withPort planned { serving with state := stTraining, trained := false }).port 0).state = stTraining ∧
    ((withPort planned { serving with state := stTraining, trained := false }).port 0).trained = false ∧
    ((withPort planned { serving with state := stTraining, trained := false }).port 0).limitFrom =
      some 0 ∧ (withPort planned { serving with state := stTraining, trained := false }).planUses 0 = true ∧
    0 + (withPort planned { serving with state := stTraining, trained := false }).trainLimit 0 ≤
      (withPort planned { serving with state := stTraining, trained := false }).now := by decide +kernel

/-- Two ports whose neighbours are each the other's. -/
def crossed : State :=
  { live core with fab := { planned with
      ports := [(0, { Port.reset with pair := 47, runMinor := 1 }), (47, { Port.reset with pair := 0, runMinor := 2 })],
      shadowPlan := 9 } }

theorem hyps_PlansAndRoutesAreChecked : office.rindActive = true ∧ office.carries .owner = true ∧
    (managed crossed).rindActive = true ∧ (managed crossed).carries .owner = true ∧
    office.planCauseOf [1] office.fab.signer = 0x01 ∧ (managed crossed).swapOk 0 47 = true ∧
    office.swapOk 0 47 = false ∧ (List.replicate 2048 (0 : Byte)).length = 2048 ∧
    blockEntry (List.replicate 2048 (0 : Byte)) 255 &&& 0x000100000000000F = 0 ∧
    blockEntry (1 :: List.replicate 2047 (0 : Byte)) 0 &&& 0x000100000000000F ≠ 0 ∧ (managed crossed).commitCause = 0 ∧
    office.commitCause = 1 := by decide +kernel

/-- What a plan blob holds besides its signatures: version 1, 48 entries, this chip's serial, CHIP 4, PLAN_ID 9, every
entry unused. -/
def planBlob : List Byte :=
  leBytes 8 (2 ^ 56 + 48 * 2 ^ 40 + 4 * 65536) ++ leBytes 8 0 ++ leBytes 8 9 ++ leBytes 8 0 ++ State.reset.ownSerial ++
    List.replicate 16 0 ++ (List.range 48).flatMap (fun i => leBytes 8 (i * 2 ^ 58) ++ List.replicate 24 0) ++
    List.replicate 3373 0

/-- Such a blob is refused for nothing but its signatures, whose check is a free function of the model. -/
theorem hyps_PlanPasses (h : planSigned planBlob [1] = true) :
    { live core with fab := { FabSt.reset with signer := [1] } }.planCauseOf planBlob [1] = 0 := by
  unfold State.planCauseOf
  rw [h]
  decide +kernel

/-! ## Links, packets, flows -/

/-- Packets on lane 3 of one flit and of two, and the first flit of the two for this chip. -/
def flits3 (k : Packet) : List Flit := Packet.toFlits k 3
def oneFlit : Flit := (flits3 { packet with dstChip := 0xFFFF }).getD 0 flit
def twoFlits : Packet := { packet with dstChip := 0xFFFF, kind := .write, cls := .adaptive, dstOff := 0x40, data := List.replicate 64 5,
                                       poison := List.replicate 8 false }
def firstFlit : Flit := (flits3 twoFlits).getD 0 flit
/-- A data flit on lane 3 that ends the packet; the CRC of both flits is 0xA88ACB6C. -/
def lastFlit : Flit := { tag := 0x8C02A88ACB6C, body := List.replicate 64 5, errors := [], badBefore := false, resend := false }
def passing : Flit := (flits3 { twoFlits with dstChip := 9 }).getD 0 flit
def badFlit : Flit := { oneFlit with errors := [0, 16] }
def wrongCrc : Flit := { oneFlit with tag := oneFlit.tag ^^^ 1 }
def stomped : Flit := mkFlit 1 3 0 true true (crcFlit crcStart oneFlit.body 0) oneFlit.body
def wrongClass : Flit := (flits3 { packet with cls := .adaptive }).getD 0 flit

/-- The first of two flits has come on lane 3. -/
def halfway : State :=
  withPort planned { serving with asm := [(3, some (AsmPkt.begin firstFlit 0))], rxSeq := 1, rxOcc := [(3, 1)] }

/-- The receive buffer of port 0 is full. -/
def brimming : State := withPort planned { serving with rxOcc := [(3, 2048), (4, 71680)] }

/-- The port waits for the replay that it asked for. -/
def nakked : State := withPort planned { serving with nakSent := some 0 }

def outPkt (l : Nat) : PortPkt :=
  { pkt := packet, origin := 3, globals := 0, arriving := none, buf := none, lane := l, input := 3, since := 0, missed := false, stomp := none }

/-- Port 0 has two packets in its replay buffer, of one flit each. -/
def sending : Port :=
  { serving with replay := [⟨0, 0, 0, outPkt 0⟩, ⟨1, 1, 0, outPkt 1⟩], txSeq := 2, replayAlloc := 65536 }

def sentOne : Port := { serving with replay := [⟨0, 0, 0, outPkt 0⟩], txSeq := 1, replayAlloc := 65536 }

/-- Port 44 in window mode with every credit granted at hand, but for one of lane 0. -/
def credits (n : Nat) : State :=
  { siteServing with
    fab := { siteServing.fab with
      ports := [(44, { serving with
        creditLane := (List.range 10).map (fun l => (l, if l = 0 then n else 256)), creditPool := poolCredits true,
        peerReceived := List.replicate 10 0, peerDrained := List.replicate 10 0 })] } }

theorem hyps_FlitsArrive : ((withPort planned serving).port 0).state = stService ∧ (withPort planned serving).isSite 0 = false ∧
    ((withPort planned serving).port 0).nakSent = none ∧ Flit.header oneFlit = true ∧ Flit.isData lastFlit = true ∧
    Flit.vl oneFlit < 10 ∧ Flit.bad badFlit = true ∧ Flit.vl badFlit = 3 ∧
    Tab.get none ((withPort planned serving).port 0).asm 3 = none ∧ Flit.bad { lastFlit with badBefore := true } = true ∧
    Flit.header lastFlit = false ∧ Tab.get none (halfway.port 0).asm 3 = some (AsmPkt.begin firstFlit 0) ∧
    (AsmPkt.begin firstFlit 0).early = false ∧ (halfway.port 0).state = stService ∧ (halfway.port 0).nakSent = none ∧
    halfway.isSite 0 = false ∧ Flit.bad oneFlit = false ∧ ¬ 64 * ((brimming.port 0).occTotal + 1) ≤ brimming.depth 0 ∧
    (brimming.port 0).state = stService ∧ brimming.isSite 0 = false ∧ (brimming.port 0).nakSent = none ∧
    64 * (((withPort planned serving).port 0).occTotal + 1) ≤ (withPort planned serving).depth 0 ∧
    64 * ((halfway.port 0).occTotal + 1) ≤ halfway.depth 0 ∧ Flit.bad firstFlit = false ∧ Flit.header firstFlit = true ∧
    Flit.isEnd firstFlit = false ∧ Flit.bad passing = false ∧ Flit.header passing = true ∧ Flit.isEnd passing = false ∧
    (withPort planned serving).cutThrough (AsmPkt.begin firstFlit 0) = false ∧
    (withPort planned serving).cutThrough (AsmPkt.begin passing 0) = true ∧ Flit.isEnd oneFlit = true := by decide +kernel

theorem hyps_PacketsEnd : Flit.isEnd wrongCrc = true ∧ Flit.bad wrongCrc = false ∧ Flit.header wrongCrc = true ∧
    (AsmPkt.begin wrongCrc 0).crcOk wrongCrc = false ∧ (AsmPkt.begin stomped 0).crcOk stomped = true ∧
    Flit.stomp stomped = true ∧ Flit.header stomped = true ∧ Flit.isEnd stomped = true ∧ Flit.bad stomped = false ∧
    (AsmPkt.begin oneFlit 0).crcOk oneFlit = true ∧ Flit.stomp oneFlit = false ∧
    PKind.allows (AsmPkt.begin oneFlit 0).whole.kind (AsmPkt.begin oneFlit 0).whole.cls = true ∧
    (AsmPkt.begin oneFlit 0).whole.kind ≠ .beacon ∧ Flit.stomp wrongClass = false ∧ Flit.isEnd wrongClass = true ∧
    Flit.bad wrongClass = false ∧ Flit.header wrongClass = true ∧ (AsmPkt.begin wrongClass 0).crcOk wrongClass = true ∧
    PKind.allows (AsmPkt.begin wrongClass 0).whole.kind (AsmPkt.begin wrongClass 0).whole.cls = false ∧
    Flit.bad lastFlit = false ∧ Flit.isEnd lastFlit = true ∧ Flit.stomp lastFlit = false ∧
    PKind.allows (AsmPkt.begin firstFlit 0).hdr.kind (AsmPkt.begin firstFlit 0).hdr.cls = true ∧
    (AsmPkt.begin firstFlit 0).hdr.kind ≠ .beacon ∧ (nakked.port 0).state = stService ∧ (nakked.port 0).nakSent = some 0 ∧
    (Flit.header oneFlit && oneFlit.resend) = false := by decide +kernel

theorem crc_firstFlit : crcFlit crcStart firstFlit.body (Flit.poison firstFlit) = 0x0E2F1DCE := by decide +kernel

theorem crc_lastFlit : crcFlit 0x0E2F1DCE lastFlit.body (Flit.poison lastFlit) = 0x57753493 := by decide +kernel

theorem hyps_LastFlitPasses : ((AsmPkt.begin firstFlit 0).add lastFlit).crcOk lastFlit = true := by
  simp only [AsmPkt.crcOk, AsmPkt.add, AsmPkt.begin, crc_firstFlit, crc_lastFlit]
  decide +kernel

theorem hyps_LinksCarryFlitsInOrder : ctl.nak = none ∧ (withPort planned sentOne).isSite 0 = false ∧
    ((withPort planned sentOne).port 0).state = stService ∧
    ((withPort planned sentOne).port 0).replay = [⟨0, 0, 0, outPkt 0⟩] ∧ ctl.ackSeq = 0 ∧
    seqSpan sentOne.seqMod 0 0 < seqSpan sentOne.seqMod 0 sentOne.txSeq ∧
    (withPort planned sentOne).windowMode 0 = false ∧ { ctl with nak := some 1 }.nak = some 1 ∧
    sending.resendSeq ≠ some 1 ∧ sending.sending = none ∧ ((withPort planned sending).port 0).state = stService ∧
    (withPort planned serving).windowMode 0 = false ∧ (credits 255).windowMode 44 = true ∧
    ((credits 255).port 44).state = stService ∧
    ((credits 255).port 44).creditSent = none ∧ ((credits 255).port 44).creditsWrong ((credits 255).isSite 44) = true ∧
    ((credits 256).port 44).creditsWrong ((credits 256).isSite 44) = false := by decide +kernel

/-- The second packet has been resent seven times. -/
def resentOften : Port := { serving with replay := [⟨1, 1, 0, outPkt 1⟩], txSeq := 2, resendSeq := some 1, resends := 7 }

theorem hyps_LinkLoss : resentOften.resendSeq = some 1 ∧ resentOften.resends = 7 ∧ (resentOften.acked 0).replay = resentOften.replay ∧
    ((withPort planned resentOften).port 0).state = stService ∧ (withPort planned resentOften).isSite 0 = false := by decide +kernel

/-- Port 0 with one packet queued. -/
def queuedOut : State := withPort planned { sending with out := [outPkt 8] }

def scheduled : Packet := { packet with cls := .scheduled, kind := .write, schedId := 5 }

/-- Fabric time locked, one slot of the schedule belongs to SCHED_ID 5. -/
def onSlot : State :=
  { withPort planned { sending with
      out := [{ outPkt 6 with pkt := scheduled }], schedActive := [0x80000005] } with
    time := { TimeSt.reset with state := 2 }, ftime := 4096
    sched := { SchedSt.reset with active := true, activeSlots := 1 } }

theorem hyps_PacketsDepart : queuedOut.portUp 0 = true ∧ queuedOut.windowMode 0 = false ∧
    (queuedOut.port 0).out = [outPkt 8] ∧ (queuedOut.port 0).held = [] ∧ (outPkt 8).pkt.cls = .signal ∧
    (queuedOut.port 0).xoffRecv.getLsbD 8 = false ∧ (queuedOut.port 0).sending = none ∧
    (queuedOut.port 0).busyUntil ≤ 100 * queuedOut.now ∧ (queuedOut.port 0).seqRoom (Packet.flits packet) = true ∧ 8 ≤ (outPkt 8).lane ∧ (outPkt 8).lane < 10 ∧
    (outPkt 8).pkt.kind ≠ .beacon ∧ (outPkt 8).arriving = none ∧
    (queuedOut.port 0).replayUsed + 64 * Packet.flits packet ≤ (queuedOut.port 0).replayAlloc ∧
    ((withPort planned { sending with out := [outPkt 1], xoffRecv := 2 }).port 0).xoffRecv.getLsbD 1 = true ∧
    onSlot.sched.active = true ∧ (onSlot.ftime - onSlot.sched.activeStart) % 2048 = 0 ∧
    onSlot.portUp 0 = true ∧ onSlot.isSite 0 = false ∧ (onSlot.port 0).free onSlot.now = true ∧
    onSlot.chooseIf 0 (fun _ => true) [1] = some ({ outPkt 6 with pkt := scheduled }, 1) := by decide +kernel

/-- Die West has a packet to route, under the route entry given for chip 9. -/
def routing (k : Packet) (e : Word) : State :=
  { withPort { planned with chip := 4, routes := [(9, e)], west := { DieSt.reset with toRoute := [⟨2, 2, 0, none, none, k⟩] } }
      { serving with logical := 0 } with cong := { CongSt.reset with enable := 1 } }

def toChip (n : BitVec 16) : Packet := { packet with dstChip := n, cls := .service, kind := .pieceReq }

theorem hyps_Congestion : (routing packet 0).org.transitOn = true ∧ (routing packet 0).cong.enable = 1 ∧
    ((routing packet 0).port 0).congTime = none := by decide +kernel

theorem hyps_PacketsAreRouted : ((routing (toChip 9) (1#64 <<< 63)).die .west).toRoute = [⟨2, 2, 0, none, none, toChip 9⟩] ∧ 2 ≠ ownInput ∧
    5 ≤ ({ packet with dstChip := 9, hops := 5, kind := .tallyWrite } : Packet).hops ∧ PKind.refusable .tallyWrite = true ∧
    (toChip 4).dstChip = (routing (toChip 4) 0).fab.chip ∧ (toChip 9).dstChip ≠ (routing (toChip 9) 0).fab.chip ∧
    5 ≤ ({ packet with dstChip := 9, hops := 5 } : Packet).hops ∧ PKind.refusable packet.kind = false ∧
    (toChip 9).hops < 5 ∧ routeValid ((routing packet 0).route 9) = false ∧
    routeValid ((routing (toChip 9) (1#64 <<< 63)).route 9) = true ∧ (toChip 9).cls = .service ∧
    (routing (toChip 9) (1#64 <<< 63)).detPort ((routing (toChip 9) (1#64 <<< 63)).route 9) = some (0, true) ∧
    ((routing (toChip 9) (1#64 <<< 63)).port 0).held = [] := by decide +kernel

/-- Flow 7 of chip 4 with chip 9: a sink or a source. -/
def flow7 (sink : Bool) : Flow :=
  { Flow.reset with valid := true, sink := sink, peerChip := 9, peerFlow := 0x123, epoch := 2, seq := 5, window := 4096,
                    owner := 0, winEn := true }

def onFlow (f : Flow) (k : Core) : State :=
  { live { k with rat := [(0, { ratVats with limit := 0xD00001FFFFFFF000 })] } with
    fab := { FabSt.reset with chip := 4, flows := [(7, f)], ports := [(0, serving)] }, now := 50000000 }

/-- A packet of flow 7 with sequence 5. -/
def inPkt (kind : PKind) (c : TClass) (off : BitVec 48) (args : List Word) (data : List Byte) : Packet :=
  { packet with srcChip := 9, dstChip := 4, dstOff := off, cls := c, kind := kind, flow := 7, epoch := 2, seq := 5,
                args := args, data := data }

def inWrite : Packet := inPkt .write .adaptive 0x10000002000 [] [1, 2, 3]
def inRead : Packet := inPkt .readReq .adaptive 0x10000002000 [0, 16] []
/-- Tally 3 of core 0, an increment of 6 once 5 packets are accepted. -/
def inTally (n : Word) : Packet := inPkt .tallyWrite .adaptive 0x10100001018 [3 <<< 58 ||| 6 <<< 33 ||| n] []

/-- The hold of die West is full. -/
def holdFullState : State :=
  { onFlow (flow7 true) core with
    fab := { FabSt.reset with
      chip := 4, flows := [(7, flow7 true)], ports := [(0, serving)]
      west := { DieSt.reset with holds := List.replicate 512 ⟨8, inTally 5, 0⟩ } } }

theorem hyps_FlowsDeliverOnce : NextOnFlow (onFlow (flow7 true) core) inWrite ∧
    NextOnFlow (onFlow (flow7 true) core) inRead ∧ NextOnFlow (onFlow (flow7 true) core) (inTally 5) ∧
    NextOnFlow holdFullState (inTally 5) := by
  unfold NextOnFlow
  decide +kernel

theorem hyps_HomesTake : (onFlow (flow7 true) core).inboundError (flowDie 7) 0x10000002000 3 true = none ∧
    DieClear (onFlow (flow7 true) core) 7 ∧ (holdFullState.die (flowDie 7)).moves = [] ∧
    (∀ h ∈ (holdFullState.die (flowDie 7)).holds, h.flow ≠ 7) ∧ vatOwner 0x10000002000 = some 0 ∧
    (onFlow (flow7 true) core).homeAsleep 0x10000002000 = none ∧ (onFlow (flow7 true) core).hears inWrite = true ∧
    ((onFlow (flow7 true) core).region (coreRegion 0)).inReset = false ∧ (onFlow (flow7 true) core).coreServes 0 = true ∧
    (onFlow (flow7 true) core).coreAlive 0 = true ∧ (onFlow (flow7 true) core).org.computeOn = true ∧
    0 < (Packet.arg inRead 1).toNat ∧
    (onFlow (flow7 true) core).inboundError (flowDie 7) 0x10000002000 16 false = none ∧ tallyCore (inTally 5) = 0 ∧
    (onFlow (flow7 true) core).tallyMet 7 (inTally 0) = true ∧ (onFlow (flow7 true) core).tallyMet 7 (inTally 5) = false ∧
    (onFlow (flow7 true) core).holdRoom 7 = true ∧ holdFullState.holdRoom 7 = false ∧
    (flow7 true).fresh 4 = false := by
  unfold DieClear
  decide +kernel

/-- The same with an inbound entry that permits HBM. -/
def hbmInbound : State :=
  { onFlow (flow7 true) core with
    hbm := { HbmSt.reset with limit := 0x4000000000 }
    fab := { FabSt.reset with
      chip := 4, flows := [(7, flow7 true)], ports := [(0, serving)]
      west := { DieSt.reset with
        inbound := [(0, { base := 0x8000000000000000, limit := 0xD0000000FFFFF000 })] } } }

theorem hyps_InboundHbm : NextOnFlow hbmInbound { inWrite with dstOff := 0x1000 } ∧ vatOwner 0x1000 = none ∧
    hbmInbound.inboundError (flowDie 7) 0x1000 3 true = none ∧
    ∀ a, 0x1000 ≤ a → a < 0x1003 → hbmInbound.channelFailed a = false := by
  refine ⟨by unfold NextOnFlow; decide +kernel, by decide +kernel, by decide +kernel, fun a h1 h2 => ?_⟩
  obtain rfl | rfl | rfl : a = 0x1000 ∨ a = 0x1001 ∨ a = 0x1002 := by omega
  all_goals decide +kernel

/-- Flow 7 as a source with bytes in flight. -/
def source7 : Flow := { flow7 false with sentAt := [(3, 0)], bytes := 5000, returned := 1000, ackSeq := 2 }

def atSource : State := onFlow source7 core

def sentTally (t : Option Nat) : SentTally := { flow := 7, pkt := inTally 5, firstSent := 0, refusedAt := t }

/-- A source with a refused tally write, and a sink that holds one. -/
def tallies : State :=
  { onFlow source7 core with
    fab := { FabSt.reset with
      chip := 4, flows := [(7, source7), (8, flow7 true)], ports := [(0, serving)], sentTallies := [sentTally (some 1)]
      west := { DieSt.reset with holds := [⟨8, inTally 5, 0⟩] } } }

theorem hyps_FlowsAcknowledgeAndEnd : ForSource atSource (inPkt .readResp .adaptive 0x10000002000 [] [1]) ∧ atSource.org.computeOn = true ∧
    (atSource.die (flowDie 7)).moves = [] ∧ vatOwner 0x10000002000 = some 0 ∧
    (atSource.region (coreRegion 0)).inReset = false ∧ atSource.coreServes 0 = true ∧
    Packet.arg (inPkt .ack .signal 0 [5, 2000, 1] []) 2 ≠ 0 ∧ source7.offSched = false ∧
    atSource.hears (inPkt .nak .signal 0 [5, 2] []) = true ∧
    below source7.ackSeq ((Packet.arg (inPkt .ack .signal 0 [5, 2000] []) 0).setWidth 32) = true ∧
    (inPkt .ack .signal 0 [5, 2000] []).flow ≠ noFlow ∧ Packet.arg (inPkt .ack .signal 0 [5, 2000] []) 2 = 0 ∧
    ({ inPkt .ack .signal 0 [5] [] with flow := noFlow } : Packet).flow = noFlow ∧ atSource.org.transitOn = true ∧
    (atSource.flow 7).err = 0 ∧ (Packet.arg (inPkt .nak .signal 0 [5, 2] []) 1).toNat ≠ holdFull ∧
    (Packet.arg (inPkt .nak .signal 0 [5, 255] []) 1).toNat = holdFull ∧
    tallies.fab.sentTallies[0]? = some (sentTally (some 1)) ∧ (sentTally (some 1)).refusedAt = some 1 ∧
    1 + 2000 ≤ tallies.now ∧ (sentTally (some 1)).firstSent + 10000000 ≤ tallies.now ∧ (tallies.flow 7).valid = true ∧
    (tallies.die .west).holds[0]? = some ⟨8, inTally 5, 0⟩ ∧ 0 + 10000000 < tallies.now ∧ (tallies.flow 8).valid = true := by
  unfold ForSource
  decide +kernel

def sinkBusy : Flow :=
  { flow7 true with held := [{ inWrite with seq := 6 }], heldSince := [(6, 0)], rxMap := 1, ackPending := true, ackAt := 0, bytes := 100, returned := 90,
                    count := 4 }

theorem hyps_FlowTimers : (onFlow sinkBusy core).flow 7 = sinkBusy ∧ sinkBusy.valid = true ∧ sinkBusy.err = 0 ∧
    0 + 25000000 ≤ (onFlow sinkBusy core).now ∧ (onFlow sinkBusy core).hears (inPkt .audit .signal 0 [99] []) = true ∧ source7.sentAt = [(3, 0)] ∧ source7.sink = false ∧ source7.winEn = true ∧
    source7.auditAt + atSource.auditPeriod ≤ atSource.now ∧ source7.inFlight ≤ source7.window.toNat ∧
    ({ source7 with window := 3999 } : Flow).window.toNat < ({ source7 with window := 3999 } : Flow).inFlight ∧
    (inPkt .audit .signal 0 [99] []).srcChip = sinkBusy.peerChip ∧
    (Packet.arg (inPkt .audit .signal 0 [99] []) 0).toNat < sinkBusy.bytes.toNat ∧
    sinkBusy.bytes.toNat ≤ (Packet.arg (inPkt .audit .signal 0 [100, 90, 4] []) 0).toNat ∧
    sinkBusy.returned.toNat ≤ sinkBusy.bytes.toNat ∧
    (Packet.arg (inPkt .audit .signal 0 [100, 90, 4] []) 1).toNat ≤ sinkBusy.returned.toNat ∧
    sinkBusy.count = (Packet.arg (inPkt .audit .signal 0 [100, 90, 4] []) 2).setWidth 32 := by decide +kernel

/-- Chip 4 leads a barrier of context 3 with chip 9 as `leads` says, and is in an abort context of job 77. -/
def streaming (b : Barrier) : State :=
  { onFlow Flow.reset core with
    barriers := { BarrierSt.reset with ctxs := [(3, b)] }
    faults := { FaultSt.reset with abortWest := { AbortCtx.reset with jobId := 77 } } }

def crossing : Barrier :=
  { Barrier.reset with valid := true, cross := true, leader := true, leaderChip := 4, members := 1, localCount := 1,
                       regions := 1, list := [(0, 9)], gen := 6 }

def unflowed (kind : PKind) (c : TClass) (off : BitVec 48) (args : List Word) : Packet :=
  { inPkt kind c off args [] with flow := noFlow, seq := 0, epoch := 0 }

def resent : Unflowed := { pkt := unflowed .tinc .signal 0 [1], sent := true, sentTime := 0, wait := 100000 }

def resending : State :=
  { streaming crossing with
    fab := { FabSt.reset with
      chip := 4, ports := [(0, serving)]
      west := { DieSt.reset with
        store := [resent] } } }

theorem hyps_StreamsAcceptInOrder :
    (streaming crossing).rxStream .west 9 = { chip := 9, die := .west, low := 0, map := 0, held := [] } ∧
    (streaming crossing).hears (unflowed .tinc .signal 0x10100001018 [7]) = true ∧
    (streaming crossing).queueAsleep (Packet.off (unflowed .message .adaptive 0x10100000400 [2, 8, 9])) = none ∧
    (streaming crossing).org.transitOn = true ∧ (streaming crossing).org.computeOn = true ∧
    tallyOf (Packet.off (unflowed .tinc .signal 0x10100001018 [7])) = some (0, 3) ∧ (streaming crossing).coreServes 0 = true ∧
    ((streaming crossing).region (coreRegion 0)).inReset = false ∧ (streaming crossing).coreAlive 0 = true ∧
    doorbellOf (Packet.off (unflowed .message .adaptive 0x10100000400 [2, 8, 9])) = some (0, 1) ∧
    ((streaming crossing).ctx 3).memberChips.contains 9 = true ∧ crossing.arrived.toNat < crossing.localCount.toNat ∧
    (3 : Word).toNat % 256 = 3 ∧ ((streaming { crossing with leader := false, leaderChip := 9, state := 1 }).ctx 3).state = 1 ∧
    (streaming crossing).faults.abortWest.jobId = 77 ∧ (streaming crossing).faults.abortWest.aborted = false ∧
    (resending.die .west).store[0]? = some resent ∧ resent.sent = true ∧ resent.sentTime + resent.wait ≤ resending.now := by
  decide +kernel

def beaconOf : BeaconData :=
  { t2 := 10, t3 := 20, stratum := 1, bound := 7, valid := true, acrossSite := false,
    reachesPrimary := true, asymmetry := 0 }

/-- The Signal bucket of port 0 is empty, and no token is due yet. -/
def drained0 : State :=
  withPort planned { serving with tokens := [(0, 0), (1, 0)], tokenAt := [(0, 500000000000), (1, 500000000000)] }

/-- Fabric time in holdover, with nothing heard for 2 ms. -/
def adrift : State :=
  { withPort planned serving with
    time := { TimeSt.reset with role := 2, state := 2, stratum := 1, parent := noPort, noParentSince := some 0,
                                noPrimarySince := some 0 } }

def scheduling (st : Word) : State :=
  { managed onSlot with
    sched := { SchedSt.reset with start := st, slots := 1, shadowId := 8, armed := some (8, 1, st) }
    rind := { RindSt.reset with a := .active } }

theorem hyps_TimeAndSchedules : (withPort planned serving).portUp 0 = true ∧ ((withPort planned serving).port 0).beaconSent = none ∧
    ((withPort planned serving).port 0).held = [] ∧
    1 ≤ Tab.get 64 ((((withPort planned serving).refill 0 .west).refill 0 .east).port 0).tokens (portDie 0).code ∧
    (drained0.portUp 0) = true ∧ (drained0.port 0).held = [] ∧ (drained0.port 0).beaconSent = none ∧
    Tab.get 64 (((drained0.refill 0 .west).refill 0 .east).port 0).tokens (portDie 0).code = 0 ∧
    2 ≤ adrift.time.state ∧ (withPort planned serving).time.role ≠ 1 ∧ adrift.time.parent = noPort ∧
    adrift.time.noParentSince = some 0 ∧ adrift.time.noPrimarySince = some 0 ∧ 0 + 1000000 ≤ adrift.now ∧
    adrift.time.role = 2 ∧ adrift.time.stratum ≠ 0 ∧ adrift.org.transitOn = true ∧ adrift.time.role ≠ 1 ∧
    (scheduling 2000000).rindActive = true ∧ (scheduling 2000000).carries .owner = true ∧ (scheduling 2000000).ftimeValid = true ∧
    (scheduling 2000000).ftime + 1000000 ≤ ((scheduling 2000000).sched.start.toNat : Int) ∧
    ((scheduling 5000).sched.start.toNat : Int) < (scheduling 5000).ftime + 1000000 ∧
    1 ≤ (scheduling 5000).sched.slots ∧ (scheduling 5000).sched.slots ≤ 4096 ∧ (State.reset).sched.slots < 1 ∧
    (((4096 : Word).toNat : Int)) ≤ (scheduling 4096).ftime ∧ (scheduling 4097).ftime < ((4097 : Word).toNat : Int) := by
  decide +kernel

/-! ## Thermal control, jobs, RDMA, management ports -/

/-- 128 readings of 60 degrees, but for sensor `i`, which reads `v`. -/
def sensors (i : Nat) (v : Int) : List SensorRead :=
  (List.range 128).map (fun k => { value := if k = i then v else deg 60, checkOk := true })

def withTherm (x : ThermSt) : State := { office with therm := x, now := 90000000000 }

/-- Main power is off for 90 s after a trip, with a flow of 2.5 L/min. -/
def tripped : State :=
  { withTherm { ThermSt.reset with heatTrip := true, tripCause := 1, flow := 25 } with
    tray := { TraySt.reset with mainPg := false, holdsMain := true } }

theorem hyps_TemperatureLimitsAct : (live core).rindActive = true ∧ (sensors 5 (deg 151)).length = 128 ∧
    (sensors 5 (deg 151))[5]? = some { value := deg 151, checkOk := true } ∧
    Tab.get false (live core).therm.masked 127 = false ∧ (live core).therm.heatTrip = false ∧
    Tab.get false { ThermSt.reset with masked := [(127, true)] }.masked 127 = true ∧ tripped.therm.heatTrip = true ∧
    tripped.therm.tripAt + 1000000 ≤ tripped.now ∧ tripped.tray.holdsMain = true ∧ tripped.rindActive = true ∧
    tripped.carries .owner = true ∧ office.carries .owner = true ∧ office.rindActive = true ∧ office.therm.taken < 2000000 ∧
    tripped.tray.mainPg = false ∧ tripped.tray.mainOff + 60000000000 ≤ tripped.now ∧ tripped.tray.coolantFault = false ∧
    2000000 ≤ tripped.therm.taken ∧ (2 : BitVec 8) ≠ 1 ∧
    leakClass 7999 ≠ (withTherm { ThermSt.reset with leakSeen := 1 }).therm.leak ∧
    (withTherm { ThermSt.reset with leakSeen := 1 }).therm.leakSeen = leakClass 7999 ∧
    0 + 100000000 ≤ (withTherm { ThermSt.reset with leakSeen := 1 }).now ∧
    (withTherm ThermSt.reset).therm.leakSeen ≠ leakClass 12001 ∧ (live core).org.computeOn = true ∧
    deg 100 ≤ { ThermSt.reset with junction := deg 100 }.junction ∧
    ({ ThermSt.reset with junction := deg 97 }.junction < deg 100 ∧ deg 97 ≤ { ThermSt.reset with junction := deg 97 }.junction) ∧
    (live core).therm.junction < deg 97 ∧ (live core).therm.hbmHottest < deg 92 ∧ (live core).therm.sustained = false ∧
    (withTherm { ThermSt.reset with above95 := some 0 }).therm.above95 = some 0 ∧ 0 + 60000000000 ≤ tripped.now ∧
    (live core).therm.dataLost = false ∧ tripped.tray.lastReport + 2000000000 ≤ tripped.now ∧
    { ThermSt.reset with stopFrom := some 0 }.stopFrom = some 0 ∧
    5000000000 ≤ ThermSt.reset.stopTimer + (tripped.now - 0) ∧
    { ThermSt.reset with fastStop := true, restoreFrom := some 0 }.fastStop = true ∧ 0 + 1000000000 ≤ tripped.now := by
  decide +kernel

/-- A rising junction, three reversal points waiting. -/
def cycling : ThermSt :=
  { ThermSt.reset with extreme := some (deg 80), rising := some true, junction := deg 60,
                       residue := [deg 20, deg 90, deg 40], bins := [(3, 2)] }

theorem hyps_CyclesAndLife : Tab.wf 0 cycling.bins = true ∧ cycling.residue.length < 256 ∧
    (withTherm cycling).rindActive = true ∧ (live core).therm.extreme = none ∧ cycling.extreme = some (deg 80) ∧
    cycling.rising = some true ∧ deg 1 ≤ deg 80 - cycling.junction ∧
    deg 80 < { cycling with junction := deg 81 }.junction ∧ cycling.lifeUsed ≤ 1000000 := by decide +kernel

/-- Ready for a job, with JOB_ID 77. -/
def ready : State :=
  { managed (live { core with pc := 0x1000, g := core.g }) with
    start := { State.reset.start with step := 0x0A }
    faults := { State.reset.faults with tier := 3 }
    job := { State.reset.job with jobId := 77 } }

def jobRuns : State := { ready with job := { ready.job with state := 1 } }

theorem hyps_StartIsRefused : ready.rindActive = true ∧ ready.carries .host = true ∧ office.rindActive = true ∧
    office.carries .host = true ∧ office.start.step ≠ 0x0A ∧ jobRuns.carries .host = true ∧ State.reset.faults.tier < 3 ∧
    { ready with job := { ready.job with jobId := 0 } }.job.jobId = 0 ∧ jobRuns.jobLoaded = true ∧
    jobRuns.rindActive = true ∧ { ready.faults with dumpState := 1 }.dumpState = 1 ∧ { ready.pow with hold := 1 }.hold = 1 ∧
    { ready.pow with effective := 2 }.effective = 2 := by decide +kernel

theorem hyps_JobsStartAndEnd : ready.rindActive = true ∧ ready.carries .host = true ∧ jobRuns.carries .host = true ∧
    jobRuns.rindActive = true ∧ ready.start.step = 0x0A ∧ 3 ≤ ready.faults.tier ∧
    ready.faults.dumpState ≠ 1 ∧ ready.faults.ladder.step = 0 ∧ ready.pow.hold ≠ 1 ∧ ready.pow.effective ≠ 2 ∧
    ready.jobLoaded = false ∧ ready.job.jobId ≠ 0 ∧ (live core).start.step ≠ 0x0A ∧
    { ready.faults with dumpState := 1 }.dumpState = 1 ∧ { ready.pow with hold := 1 }.hold = 1 ∧
    { ready.pow with effective := 2 }.effective = 2 ∧ jobRuns.jobLoaded = true ∧ jobRuns.faults.inAbort = false ∧
    jobRuns.org.present 0 = true ∧ jobRuns.coreAlive 0 = true ∧ (jobRuns.core 0).run = true ∧
    (jobRuns.core 0).halted = false := by decide +kernel

def connect : List Byte :=
  [0, 3, 0, 0] ++ leBytes 4 0x123 ++ leBytes 4 5 ++ leBytes 4 6 ++ List.replicate 16 9 ++ List.replicate 16 0

def queuePair : QueuePair :=
  { qpn := 4, port := .a, mtu := 1024, peerQpn := 0x123, psn := 5, peerPsn := 6, gid := List.replicate 16 9, rate := 800,
    lastCut := some 0, lastRaise := 0, lastCnp := none }

/-- Key 0x00400001 of index 1 names 32 bytes of Vat 0. -/
def rkey : RKey := { key := 0x400001, access := 3, base := 0x10000002000, len := 32 }

def rdma (n : Nat) : State :=
  { managed (onFlow Flow.reset core) with
    oap := { (managed (onFlow Flow.reset core)).oap with qps := [{ queuePair with lastCut := some n }], keys := [(1, some rkey)] }
    rind := { RindSt.reset with a := .active } }

def keyBytes (a : BitVec 8) : List Byte :=
  leBytes 4 0x800007 ++ [a, 0, 0, 0] ++ leBytes 8 0x10000002000 ++ leBytes 8 32 ++ List.replicate 8 0

theorem hyps_RdmaFollowsItsKeys : connect.length = 48 ∧ leValue ((connect.drop 0).take 1) ≤ 1 ∧
    3 ≤ leValue ((connect.drop 1).take 1) ∧ leValue ((connect.drop 1).take 1) ≤ 5 ∧
    leValue ((connect.drop 2).take 2) = 0 ∧ leValue ((connect.drop 32).take 16) = 0 ∧ (rdma 0).oap.qps.length < 512 ∧
    (List.replicate 512 queuePair).length = 512 ∧ (rdma 0).rindActive = true ∧ (rdma 0).carries .host = true ∧
    (rdma 0).oap.qps.any (fun q => decide (q.qpn = (4 : BitVec 32).toNat)) = true ∧
    (rdma 0).oap.qps.any (fun q => decide (q.qpn = (5 : BitVec 32).toNat)) = false ∧ (keyBytes 0).length = 32 ∧
    leValue (((keyBytes 3).drop 4).take 1) = 3 ∧ leValue (((keyBytes 3).drop 5).take 3) = 0 ∧
    leValue (((keyBytes 3).drop 24).take 8) = 0 ∧ (rdma 0).keyRangeOk 0x10000002000 32 = true ∧
    (rdma 0).keyRangeOk 0x10000300000 32 = false ∧ (rdma 0).livePair 4 = some { queuePair with lastCut := some 0 } ∧
    (rdma 49999999).livePair 4 = some { queuePair with lastCut := some 49999999 } ∧ vatOwner 0x10000002010 = some 0 ∧
    ((rdma 0).region (coreRegion 0)).inReset = false ∧ (rdma 0).coreServes 0 = true ∧
    (rdma 0).rdmaOk queuePair 0x400001 0x10000002010 16 true = true ∧
    (rdma 0).rdmaOk queuePair 0x400001 0x10000002010 17 true = false ∧
    (rdma 0).rdmaOk queuePair 0x400001 0x10000002010 16 false = true ∧ (rdma 0).homeAsleep 0x10000002010 = none ∧
    0 + 50000 ≤ (rdma 0).now ∧ (rdma 49999999).now < 49999999 + 50000 ∧ queuePair.lastRaise + 55000 ≤ (rdma 0).now ∧
    (rdma 0).channelFailed 0x10000002010 = false := by decide +kernel

/-- `rdma` while the regions `b` hold what crosses them on either plane. -/
def rdmaHeld (b : BitVec 16) : State :=
  let r := rdma 0
  { r with
    org := { r.org with
      requestPlane := { r.org.requestPlane with held := b }
      responsePlane := { r.org.responsePlane with held := b } } }

theorem hyps_RdmaWaits : (rdmaHeld 0xFFFE).livePair 4 = some { queuePair with lastCut := some 0 } ∧
    (rdmaHeld 0xFFFE).rdmaOk queuePair 0x400001 0x10000002010 16 true = true ∧
    (rdmaHeld 0xFFFE).rdmaOk queuePair 0x400001 0x10000002010 16 false = true ∧
    (rdmaHeld 0xFFFE).rdmaWaits queuePair 0x10000002010 false = true ∧
    (rdmaHeld 0xFFFE).rdmaWaits queuePair 0x10000002010 true = true ∧
    (rdmaHeld 1).rdmaWaits queuePair 0x10000002010 true = false ∧
    (rdma 0).rdmaWaits queuePair 0x10000002010 false = false ∧
    (rdma 0).rdmaWaits queuePair 0x10000002010 true = false := by decide +kernel

def portUp (a b : Bool) : State :=
  { live core with
    oap := { State.reset.oap with
      portA := { State.reset.oap.portA with up := a, downSince := 0 }
      portB := { State.reset.oap.portB with up := b } }
    now := 700000000000 }

theorem hyps_ManagementPortsServe : (portUp false true).tray.refFab = true ∧ ((portUp false true).mgmtPort .a).up = false ∧
    ((portUp false true).mgmtPort (otherPort .a)).up = true ∧
    ((portUp false true).mgmtPort .a).downSince + 600000000000 ≤ (portUp false true).now ∧
    ((portUp true true).mgmtPort .a).up = true := by decide +kernel

/-! ## Hangs, aborts, dumps, the ladder, domains -/

def withFaults (f : FaultSt) : State := { office with faults := f, now := 300000000 }

/-- Port 3 has sent nothing for a whole window with a packet queued. -/
def hungPort : State :=
  { withFaults { FaultSt.reset with snaps := [(.port 3, { counter := 0, counts := true })] } with
    runNow := 300000000
    fab := { FabSt.reset with ports := [(3, { serving with out := [outPkt 1] })] } }

/-- Core 0 has retired nothing for a whole window. -/
def hungCore : State :=
  { withFaults { FaultSt.reset with snaps := [(.core 0, { counter := 0, counts := true })] } with runNow := 300000000 }

theorem hyps_HangWindowsAndRecords : hungPort.faults.windowStart + hungPort.faults.windowMs * 1000000 ≤ hungPort.now ∧
    hungPort.hangUnits.filter hungPort.isHung = [.port 3] ∧ hungCore.hangUnits.filter hungCore.isHung = [.core 0] ∧
    (withFaults FaultSt.reset).hangUnits.filter (withFaults FaultSt.reset).isHung = [] ∧
    hungPort.runNow - hungPort.faults.windowRun = hungPort.now - hungPort.faults.windowStart ∧
    hungPort.faults.windowNext = none ∧ hungPort.faults.inAbort = false ∧ hungPort.faults.ladder.step = 0 ∧
    office.rindActive = true ∧ office.carries .owner = true ∧ office.carries .host = true ∧ hungCore.faults.inAbort = false ∧
    hungCore.faults.windowStart + hungCore.faults.windowMs * 1000000 ≤ hungCore.now ∧
    (live core).mayControl .rind = true ∧ (live core).org.transitOn = true ∧
    1 ≤ (10000 : BitVec 32).toNat ∧ 10000 < (10001 : BitVec 32).toNat := by decide +kernel

/-- The abort context of a leader with two members. -/
def leading : State :=
  withFaults { FaultSt.reset with
    abortWest := { AbortCtx.reset with valid := true, leader := true, members := 2, jobId := 5, list := [(0, 8), (1, 9)] } }

def abortMsg : EngineSend := { dstChip := 8, kind := .abort, args := [5, 1] }

def abortSending : State := withFaults { FaultSt.reset with inAbort := true, abortSends := [abortMsg] }

theorem hyps_AbortsReachEveryChip : leading.mayControl .rind = true ∧ leading.org.transitOn = true ∧ leading.faults.inAbort = false ∧
    leading.org.present 0 = true ∧ leading.coreAlive 0 = true ∧ (leading.core 0).run = true ∧
    (leading.core 0).halted = false ∧ abortSending.faults.abortSends = [abortMsg] ∧
    abortSending.faults.abortLastSend = none ∧ abortSending.storeRoom .west = true ∧
    abortSending.faults.inAbort = true ∧ jobRuns.jobLoaded = true := by decide +kernel

def sect (k u fl : Nat) : DumpSection := { kind := k, flags := fl, unit := u, time := 0, body := [] }

def dumping : State :=
  withFaults { FaultSt.reset with dumpState := 1, dumpSections := [sect 7 3 0, sect 8 0 0, sect 9 0 0, sect 6 1 4] }

def dumpHeld (n : Nat) : State :=
  { withFaults { FaultSt.reset with dumpState := n, dumpDue := true, dumpSections := [sect 7 3 1] } with now := 600000000000 }

theorem hyps_DumpsAreCollected : (dumpHeld 2).faults.dumpDue = true ∧ (dumpHeld 2).rindSteps = true ∧ (dumpHeld 2).org.transitOn = true ∧
    (dumpHeld 2).carries .owner = true ∧ (dumpHeld 2).carries .host = true ∧ (sect 7 3 0).flags = 0 ∧ (sect 8 0 0).flags = 0 ∧
    (dumpHeld 0).faults.dumpState ≠ 1 ∧ (dumpHeld 0).faults.dumpState ≠ 2 ∧ dumping.faults.dumpState = 1 ∧
    dumping.faults.dumpSections[0]? = some (sect 7 3 0) ∧ (sect 7 3 0).sidePath = true ∧
    dumping.faults.dumpSections[1]? = some (sect 8 0 0) ∧ (sect 8 0 0).sidePath = true ∧
    dumping.faults.dumpSections.length ≤ 4 ∧ dumping.faults.dumpStart + 100000000 ≤ dumping.now ∧
    (dumpHeld 2).rindActive = true ∧ (dumpHeld 2).faults.dumpEnd + 600000000000 ≤ (dumpHeld 2).now := by decide +kernel

def onLadder (n : Nat) (ab : Bool) : State :=
  { withFaults { FaultSt.reset with inAbort := ab, ladder := { FaultSt.reset.ladder with step := n } } with
    now := 3000000000 }

/-- A core that an ENGINE reset still holds. -/
def stuckStep : State :=
  { onLadder 1 true with
    cores := [(0, { core with engineInReset := true })]
    faults := { (onLadder 1 true).faults with ladder := { (onLadder 1 true).faults.ladder with cores := [0] } } }

def offAgain : State :=
  withFaults { FaultSt.reset with ladder := { FaultSt.reset.ladder with step := 5, offSince := some 0 } }

def phases (n : Nat) : State := withFaults { FaultSt.reset with phasesLost := [(7, n)] }

theorem hyps_LadderStepsFollow : Canonical (onLadder 0 true) ∧ (onLadder 0 true).faults.inAbort = true ∧
    (onLadder 0 true).faults.dumpDue = false ∧ (onLadder 0 true).faults.dumpState ≠ 1 ∧
    (onLadder 0 true).faults.ladder.step = 0 ∧ (onLadder 0 true).rindSteps = true ∧
    (onLadder 0 true).faults.ladder.want ≤ 1 ∧ ((onLadder 0 true).core 0).coreInReset = false ∧
    (onLadder 1 true).stepEnded = true ∧ (onLadder 1 true).faults.ladder.want ≤ 1 ∧ stuckStep.stepEnded = false ∧
    stuckStep.faults.ladder.startedAt + 1000000 ≤ stuckStep.now ∧ (onLadder 5 false).stepEnded = false ∧
    (onLadder 5 false).faults.ladder.startedAt + 2000000000 ≤ (onLadder 5 false).now ∧
    office.rindActive = true ∧ office.carries .owner = true ∧ office.carries .host = true ∧
    office.faults.dumpState ≠ 1 ∧ office.faults.inAbort = false ∧ office.rindSteps = true ∧
    (onLadder 0 true).org.transitOn = true ∧ ((onLadder 0 true).region (coreRegion 0)).risen = true ∧
    ((onLadder 0 true).region (coreRegion 0)).inReset = false ∧ (onLadder 1 true).rindSteps = true ∧
    stuckStep.faults.ladder.want ≤ 2 ∧ stuckStep.faults.ladder.step = 1 ∧ requestOk (1 : BitVec 32).toNat = true ∧ requestOk (0 : BitVec 32).toNat = false ∧
    office.jobLoaded = false ∧ jobRuns.jobLoaded = true ∧ jobRuns.carries .owner = true ∧ office.faults.ladder.step = 0 ∧
    { office.pow with hold := 1 }.hold = 1 ∧ (4 : BitVec 32).toNat % 256 ≤ 4 ∧
    offAgain.faults.ladder.offSince = some 0 ∧ 0 + 100000000 ≤ offAgain.now ∧ offAgain.tray.mainReq ≠ 1 ∧
    offAgain.mainAllowed = true ∧ Tab.get 0 (phases 0).faults.phasesLost 7 = 0 ∧
    Tab.get 0 (phases 1).faults.phasesLost 7 = 1 ∧ (0x7FFF : BitVec 32).toNat ≤ 0x7FFF ∧
    0x7FFF < (0x8000 : BitVec 32).toNat := by
  unfold Canonical
  decide +kernel

def oneLine : PressLine := { line := 5, mask := 3, data := 0xABCD, poison := false }

/-- Core 0 with a Press command that holds one line. -/
def withLine : State :=
  live { core with pressRun := [{ pressRun with
    lines := [oneLine] }] }

def drained : State :=
  { live core with org := { (live core).org with regionDrainUntil := [(0, some 5)] } }

theorem hyps_DomainResets : Canonical withLine ∧ withLine.namedCores 0 false 1 = [0] ∧
    (withLine.region (coreRegion 0)).risen = true ∧ (withLine.region (coreRegion 0)).inReset = false ∧
    (withLine.core 0).coreInReset = false ∧ ((live core).core 0).pressRun = [] ∧
    ((withLine.pressSync 0).core 0).pressRun.flatMap (fun x => x.lines) = [oneLine] ∧
    (live core).rindActive = true ∧ drained.org.computeOn = true ∧ drained.now < 5 ∧ 5 ≤ { drained with now := 5 }.now ∧
    ((live core).region 0).risen = true ∧ Canonical drained ∧ Tab.get none drained.org.regionDrainUntil 0 = some 5 ∧
    Canonical (live core) ∧ (live core).org.computeOn = true ∧ (live core).org.defects.contains (34 * 31 + 33) = false ∧
    (live core).org.coreOf (34 * 0 + 8) = none ∧ (live core).org.coreOf (34 * 0 + 5) = some 5 := by
  unfold Canonical
  decide +kernel

theorem hyps_Reset_parts : State.reset.faults.windowMs = 200 ∧ State.reset.pow.window = 4 ∧ State.reset.pow.fixedMhz = 2000 ∧
    State.reset.oap.anchorOwner = [] ∧ State.reset.fw.fabricFetch = 1 := by decide +kernel

/-! ## OAP, firmware, registers -/

def session (n : Nat) (r : Role) : Session := freshSession n r .a 7 0

def cert (r : Option Role) (c : List Byte) : ClientCert := { ed25519Ok := true, mldsaOk := true, role := r, chainsTo := c }

/-- MGMT-A up, an Owner and a Host session, the anchors of both. -/
def oapUp (rs : List OapReq) : State :=
  { live core with
    now := 70000000000
    oap := { State.reset.oap with
      portA := { State.reset.oap.portA with up := true }
      sessions := [session 3 .owner, session 4 .host, session 5 .rack], nextSession := 5
      anchorOwner := [1], anchorHost := [2], requests := rs } }

theorem hyps_SessionsTakeRequests : (oapUp []).rindActive = true ∧ (oapUp []).oap.portA.up = true ∧ ((oapUp []).mgmtPort .a).up = true ∧
    (oapUp []).oap.sessions.length < 32 ∧ (cert (some .host) [2]).role = some .host ∧ (oapUp []).oap.anchor .host ≠ [] ∧
    (cert (some .host) [2]).chainsTo = (oapUp []).oap.anchor .host ∧ (List.replicate 32 (session 3 .owner)).length = 32 ∧
    { cert none [] with mldsaOk := false }.mldsaOk = false ∧ State.reset.oap.sessions = [] ∧ State.reset.oap.anchorOwner = [] ∧
    (cert none []).role = none ∧ (oapUp []).session 3 = some (session 3 .owner) ∧ (session 3 .owner).role = .owner ∧
    ([9] : List Byte) ≠ (oapUp []).oap.anchor .rack ∧ ([1] : List Byte) = (oapUp []).oap.anchor .owner ∧
    (List.replicate 32 (5 : Byte)).length = 32 ∧ ([] : List Byte).length ≠ 32 := by decide +kernel

def reading (sid : Nat) (op : OapOp) : OapReq := { session := sid, port := .a, reqId := 77, at' := 0, op := op }

def kept : OapAnswer := { session := 3, reqId := 77, op := 0x81, status := 0, more := false, body := [6] }

def keeping : State :=
  { oapUp [reading 3 (.read 0x9001 1 0)] with
    oap := { (oapUp [reading 3 (.read 0x9001 1 0)]).oap with sessions := [{ session 3 .owner with replies := [kept] }] } }

def rival (v w : Byte) : State :=
  oapUp [reading 4 (.write 0x9001 1 0 [w] false), reading 5 (.write 0x9001 1 0 [v] false)]

/-- A sub-entry that can be read, and its value. -/
def readable : Except Nat SubEntry → Option (List Byte)
  | .ok e => if e.acc = .wo then none else some e.val
  | .error _ => none

theorem hyps_TickAnswersWhatWaits : keeping.oap.requests = [reading 3 (.read 0x9001 1 0)] ∧ keeping.rindActive = true ∧
    (keeping.session 3).map (fun x => x.replies.find? (fun b => b.reqId == (77 : BitVec 32))) = some (some kept) ∧
    readable ((taking (oapUp [reading 3 (.read 0x9001 1 0)])).subEntry 3 0x9001 1) = some [0] ∧
    readable ((taking (oapUp [reading 3 (.read 0x9001 9 0)])).subEntry 3 0x9001 9) = none ∧
    (rival 1 0).oap.requests = [reading 4 (.write 0x9001 1 0 [0] false), reading 5 (.write 0x9001 1 0 [1] false)] ∧
    (rival 1 0).session 4 = some (session 4 .host) ∧ (rival 1 0).session 5 = some (session 5 .rack) ∧
    (session 4 .host).replies = [] ∧ (1 : BitVec 8).toNat ≤ 1 := by decide +kernel

def openState (u : UpdateSt) : State :=
  { live core with
    rind := { RindSt.reset with a := .active, healthy := true }
    tray := { TraySt.reset with format := 0x100 }
    oap := office.oap
    now := 20000000000
    fw := { State.reset.fw with update := u, server := List.replicate 18 1, recovery := [(1, 2, 0)] } }

/-- A session of 4 blocks from the tray; block 1 is asked for. -/
def receiving (n st : Nat) : UpdateSt :=
  { UpdateSt.reset with state := st, type := 1, source := 1, total := 4, regime := 1, received := [0], asked := some (n, 0) }

def block (i : Nat) (bs : List Byte) : ImageBlock := { index := i, source := .tray, bytes := bs, noSuchBlock := false }

/-- A descriptor of format 1, regime 1, and a block of its body with its code. -/
def descriptor : List Byte := leBytes 8 (2 ^ 56 + 2 ^ 48 + 2 ^ 40) ++ List.replicate 4088 0

/-- Image type 1 has stored a descriptor of regime 2 and a table block, whose entry 0 is 32 bytes of 7; block 2 is asked
for. -/
def blockState : State :=
  { openState { receiving 2 2 with regime := 2, table := 1, received := [0, 1] } with
    fw := { (openState { receiving 2 2 with regime := 2, table := 1, received := [0, 1] }).fw with
      images := [(1, { Image.reset with slot1 := { Slot.reset with
        state := 1
        blocks := [(0, leBytes 8 (2 ^ 56 + 2 ^ 48 + 2 * 2 ^ 40) ++ leBytes 8 0 ++ leBytes 8 2 ++ leBytes 8 (2 ^ 32)),
                   (1, List.replicate 32 7)] } })] } }

theorem hyps_UpdatesTakeTheirBlocks : (openState UpdateSt.reset).rindActive = true ∧
    (openState UpdateSt.reset).carries .owner = true ∧ (openState UpdateSt.reset).openCode 1 5 = 0 ∧ (openState UpdateSt.reset).openCode 1 0 = 0x0D ∧
    (openState UpdateSt.reset).tray.auxPg = true ∧ (openState UpdateSt.reset).tray.format / 256 = 1 ∧
    (openState (receiving 1 2)).fw.update.isOpen = true ∧ (openState UpdateSt.reset).fw.update.isOpen = false ∧
    (openState (receiving 0 1)).fw.update.asked = some (0, 0) ∧ (receiving 1 2).from' = BlockSource.place .tray ∧
    (openState (receiving 0 1)).descCode 1 [] = 6 ∧
    ((blockState.image 1).slot (blockState.targetSlot 1)).blockOk 2 [] = false ∧
    blockState.fw.update.table < 2 ∧ 2 < blockState.fw.update.total ∧ (receiving 1 2).failures + 1 < 8 ∧
    3 ∉ blockState.fw.update.received ∧ 0 + 100000000 ≤ blockState.now ∧ blockState.fw.repairAsked = none ∧
    blockState.fw.update.status ≠ 0x0E ∧ { receiving 1 2 with source := 2, from' := 2 }.needs = some 1 ∧
    blockState.oap.portA.up = true ∧ blockState.fw.server ≠ [] ∧ { receiving 1 2 with asked := none }.needs = some 1 ∧
    (openState UpdateSt.reset).repairing = none := by decide +kernel

/-- A body block passes when its SHA-256, a free function of the model, is the table's. -/
theorem hyps_BlockPasses (h : Config.sha256 (List.replicate 4096 0) = List.replicate 32 7) :
    ((blockState.image 1).slot (blockState.targetSlot 1)).blockOk 2 (List.replicate 4096 0) = true := by
  unfold Slot.blockOk
  rw [h]
  simp only [List.length_replicate]
  decide +kernel

/-- The block table passes exactly when its SHA-384, a free function of the model, is the descriptor's DIGEST. -/
theorem hyps_TablePasses :
    ((blockState.image 1).slot (blockState.targetSlot 1)).digestOk = decide (Config.sha384 (List.replicate 32 7) = []) ∧
    blockState.fw.update.regime = 2 := by
  refine ⟨?_, by decide +kernel⟩
  have hd : descDigest ((blockState.image 1).slot (blockState.targetSlot 1)).desc = [] := by decide +kernel
  have hb : (List.range (descTable ((blockState.image 1).slot (blockState.targetSlot 1)).desc)).flatMap
      (fun k => Tab.get [] ((blockState.image 1).slot (blockState.targetSlot 1)).blocks (k + 1)) = List.replicate 32 7 := by
    decide +kernel
  have hr : descRegime ((blockState.image 1).slot (blockState.targetSlot 1)).desc ≠ 1 := by decide +kernel
  simp only [Slot.digestOk, hr, if_false, hd, hb]

/-- A first block whose descriptor passes, if its signatures verify, which is a free function of the model. -/
theorem hyps_DescriptorPasses (h : descSigned 1 (descriptor.set 4 7) = true) :
    (openState (receiving 0 1)).descCode 1 (descriptor.set 4 7) = 0 := by
  unfold State.descCode
  rw [h]
  decide +kernel

def pieceReq : Packet :=
  { packet with kind := .pieceReq, cls := .service, srcChip := 9, dstChip := 4, args := [2 ^ 56 + 2 ^ 32, 0, 0] }

/-- Chip 9 at port 0; image type 1 complete in slot 0. -/
def serves (n : Nat) : State :=
  { withPort { planned with chip := 4 } { serving with nbChip := n } with
    fw := { State.reset.fw with
      images := [(1, { Image.reset with slot0 := { Slot.reset with state := 5, blocks := [(1, [8])] } })] } }

theorem hyps_Pieces : (serves 9).hears pieceReq = true ∧ (serves 8).hears pieceReq = true ∧
    pieceReq.dstChip = (serves 9).fab.chip ∧ (serves 9).org.transitOn = true ∧
    (∀ p ∈ allPorts, (serves 8).portUp p = true → ((serves 8).port p).nbChip ≠ pieceReq.srcChip.toNat) ∧
    allPorts.find? (fun p => (serves 9).portUp p && decide (((serves 9).port p).nbChip = pieceReq.srcChip.toNat)) = some 0 ∧
    (Packet.arg pieceReq 0).toNat / 2 ^ 56 = 1 ∧ (Packet.arg pieceReq 0).toNat / 2 ^ 32 % 2 ^ 24 = 1 ∧
    ((serves 9).completeSlot 1 (pieceId pieceReq)).map (fun x => Tab.get [] x.blocks 1) = some [8] ∧
    (serves 9).fw.fabricFetch = 1 ∧ ((serves 9).port 0).piecesOut < 16 ∧ (serves 9).rindActive = true := by decide +kernel

theorem hyps_LockTakesItsToken : (openState UpdateSt.reset).fw.locked = false ∧
    (openState UpdateSt.reset).fw.update.type ≠ 2 ∧ (openState UpdateSt.reset).carries .owner = true ∧
    (openState UpdateSt.reset).rindActive = true ∧ 1 < (2 : BitVec 8).toNat ∧
    (openState UpdateSt.reset).tokenOk [] = false := by decide +kernel

/-- A token with the form of Table 17.9. -/
def token : List Byte :=
  leBytes 8 (2 ^ 56 + 2 ^ 48) ++ State.reset.ownSerial ++ State.reset.fw.lockNonce ++ List.replicate (8 + 64 + 3309) 0

/-- An Owner session on a locked package. -/
def lockedUp : State := { office with fw := { office.fw with locked := true } }

/-- It verifies when its certificate and signatures, free functions of the model, do. -/
theorem hyps_TokenVerifies (h1 : Config.namesOwner [] = true) (h2 : ∀ a, Config.chainsTo [] a = true)
    (h3 : ∀ d x, Config.ed25519Ok [] d x = true) (h4 : ∀ d x, Config.mldsaOk [] d x = true) :
    (lockedUp.tokenOk token = true ∧ lockedUp.fw.locked = true ∧ lockedUp.carries .owner = true ∧ lockedUp.rindActive = true ∧
      token.length < 0x1000000) := by
  refine ⟨?_, by decide +kernel, by decide +kernel, by decide +kernel, by decide +kernel⟩
  have hn : bitsOf (wordOf token 0) 31 0 = 0 := by decide +kernel
  unfold State.tokenOk
  simp only [hn, List.take_zero, h1, h2, h3, h4, Bool.and_true, Bool.and_eq_true, decide_eq_true_eq]
  decide +kernel

theorem hyps_RegistersTakeTheirWritableBits : (0x10100003000 : Nat) % 8 = 0 ∧ (live core).regServed 0x10100003000 = true ∧
    (live core).mayWrite .rind 0x10100003000 = true ∧ spaceOf 0x10100003000 = .core 0 0x3000 ∧
    (live core).regServed 0x101000020F0 = true ∧ spaceOf 0x101000020F0 = .core 0 (0x2000 + 16 * 15) ∧
    spaceOf 0x101000020F8 = .core 0 (0x2008 + 16 * 15) ∧
    (live core).regServed 0x10401800008 = true ∧ spaceOf 0x10401800008 = .ioDie .east (0x800000 + 256 * 0 + 8) ∧
    (live core).mayWrite .rind 0x10401800008 = true ∧ (live core).regServed 0x104000024F8 = true ∧
    spaceOf 0x104000024F8 = .ioDie .west (0x2400 + 8 * 31) ∧ (live core).mayWrite .rind 0x104000024F8 = true ∧
    (live core).regServed 0x10200010000 = true ∧ spaceOf 0x10200010000 = .region 0 0x10000 ∧
    (live core).mayWrite .rind 0x10200010000 = true ∧ (0x10100003004 : Nat) % 8 ≠ 0 ∧
    (live core).regServed 0x20000000000 = false := by decide +kernel

/-- Counter 0 of port 3 counts cycles; counter 1 of core 0 counts nothing; managers own the counters. -/
def counting (n : Nat) : State :=
  { office with
    counters := { CounterSt.reset with controlOwner := n, ports := [(3, { UnitCounters.reset with
      ctl := [(0, 0x8000000000000107)] })] } }

theorem hyps_Counters : ((counting 0).portCounters 3).ctlOf 0 = 0x8000000000000107 ∧
    ((0x8000000000000107 : Word).extractLsb' 0 12).toNat = 0x107 ∧
    ((counting 0).core 0).pmu.counts ((counting 0).core 0).mode 1 = false ∧ (counting 0).counters.controlOwner = 0 ∧ (counting 0).carries .owner = true ∧
    (counting 0).carries .host = true ∧ (counting 0).carries .rack = true ∧ (counting 0).rindActive = true ∧
    (counting 1).counters.controlOwner ≠ 0 ∧ (0x8000000000000107 : Word) &&& unitCtlMask 0 = 0x8000000000000107 ∧
    (31 : BitVec 8).toNat ≤ 31 ∧ 31 < (32 : BitVec 8).toNat ∧
    ((0x8000000000000107 : Word).extractLsb' 24 5).toNat ≤ 9 ∧ 9 < ((0x800000000A000107 : Word).extractLsb' 24 5).toNat := by
  decide +kernel

/-- No controller is active; controller A stands by. -/
def standingBy : State := { office with rind := { RindSt.reset with a := .standby, b := .starter } }

theorem hyps_RolesLimitWrites : MadeBy (fun r => .jobStop r) [.host] ∧ Role.rack ∉ [Role.host] ∧ office.rindActive = true ∧
    office.carries .rack = true ∧ standingBy.carries .rack = true ∧ standingBy.rindActive = false ∧
    standingBy.rind.standby.isSome = true ∧ (live core).carries .rack = false := by
  refine ⟨?_, by decide +kernel, by decide +kernel, by decide +kernel, by decide +kernel, by decide +kernel, by decide +kernel,
    by decide +kernel⟩
  unfold MadeBy
  simp

/-- A risen region whose clock and ceiling fall, and one that does neither. -/
def fallingRegion : State :=
  { live core with regions := [(0, { region with clockFall := true, current := 1000, clockWait := 1 }), (1, region)] }

theorem hyps_EmptyQueueLetsTimePass : fallingRegion.pending = [] ∧ (fallingRegion.region 0).risen = true ∧
    (fallingRegion.region 0).clockFall = true ∧ (fallingRegion.region 1).ceilFall = false ∧
    (fallingRegion.region 1).clockFall = false := by decide +kernel

theorem hyps_WholeMachine : Canonical State.reset ∧ State.reset.pending = [] ∧
    (∃ t, step { State.reset with pending := [.timeNoParent] } = .next t) := by
  refine ⟨by unfold Canonical; decide +kernel, rfl, _, rfl⟩
end Sys2Proof.Tests
end

section
/-! SUPPORT. What a retirement leaves of a core, and the machine around a core that is written: shared by the statements
about traps and tallies. -/
namespace Sys2Proof.Machine

open Sys2Proof.Claims

/-! ## Fields that a retirement leaves -/

@[simp] theorem Core.retire_pc (k : Core) : k.retire.pc = k.pc + 4 := by rw [Core.retire_eq]
@[simp] theorem Core.retire_stall (k : Core) : k.retire.stall = .none := by rw [Core.retire_eq]
@[simp] theorem Core.retire_g (k : Core) : k.retire.g = k.g := by rw [Core.retire_eq]
@[simp] theorem Core.retire_v (k : Core) : k.retire.v = k.v := by rw [Core.retire_eq]
@[simp] theorem Core.retire_tallies (k : Core) : k.retire.tallies = k.tallies := by rw [Core.retire_eq]
@[simp] theorem Core.retire_coreInReset (k : Core) : k.retire.coreInReset = k.coreInReset := by rw [Core.retire_eq]

theorem Core.retire_coreProgress (k : Core) : k.retire.coreProgress = k.coreProgress + 1 := by rw [Core.retire_eq]

/-- A retirement is `Retired`, whatever stall the core was in and whatever it wrote to a general register. -/
theorem Core.retired_retire_setG (k : Core) (w : Stall) (rd : Reg) (v : Word) :
    Retired (k.pc + 4) k (({ k with stall := w } : Core).setG rd v).retire := by
  rw [Core.setG_eq]
  refine ⟨by simp, by simp, Core.retire_coreProgress _, ?_⟩
  rw [SameBesideRetire, Core.retire_eq]

theorem Core.retired_retire (k : Core) : Retired (k.pc + 4) k k.retire := by
  refine ⟨k.retire_pc, k.retire_stall, k.retire_coreProgress, ?_⟩
  rw [SameBesideRetire, Core.retire_eq]

/-! ## Frozen counters (18 R770) -/

/-- While FREEZE is set no counter takes its turn. -/
theorem PmuScan.visit_frozen (sc : PmuScan) {p : Pmu} (m : Mode) (ev amount : Nat) (pc addr : Word) (n : Nat)
    (h : p.freeze = true) : sc.visit p m ev amount pc addr n = { sc with below := false } := by
  simp [PmuScan.visit, Pmu.counts, h]

/-- While FREEZE is set an event counts nothing and raises nothing. -/
theorem Core.count_frozen (k : Core) (ev n : Nat) (pc a : Word) (h : k.pmu.freeze = true) : k.count ev n pc a = k := by
  simp [Core.count, PmuScan.visit_frozen _ _ _ _ _ _ _ h, List.range_succ]

theorem Core.retired_frozen (k : Core) (pc : Word) (h : k.pmu.freeze = true) :
    k.retired pc = { k with coreProgress := k.coreProgress + 1 } := by
  simp [Core.retired, Core.count_frozen, h]

/-- With frozen counters a retirement moves pc, ends the stall and counts in CORE_PROGRESS, and that is all. -/
theorem Core.retire_frozen (k : Core) (h : k.pmu.freeze = true) :
    k.retire = { k with pc := k.pc + 4, stall := .none, coreProgress := k.coreProgress + 1 } :=
  Core.retired_frozen { k with pc := k.pc + 4, stall := .none } k.pc h

/-! ## The machine around one core -/

/-- Cores read alike where the tables of cores are the same. -/
theorem State.core_of_cores {s t : State} (h : t.cores = s.cores) (o : CoreId) : t.core o = s.core o := by
  rw [State.core, State.core, h]

theorem State.onlyCore_setCore (s : State) (c : CoreId) (k : Core) : OnlyCore c s (s.setCore c k) :=
  ⟨fun _ ho => State.core_setCore_ne s k ho, fun _ => rfl, rfl⟩

/-- Two writes of one core are as if the base already held the first. -/
theorem State.onlyCore_modCore_setCore (s : State) (c : CoreId) (f : Core → Core) (k : Core) :
    OnlyCore c (s.modCore c f) (s.setCore c k) :=
  ⟨fun _ ho => (State.core_setCore_ne s k ho).trans (State.core_modCore_ne s f ho).symm, fun _ => rfl, rfl⟩

theorem State.onlyCore_setCore_setCore (s : State) (c : CoreId) (k k' : Core) :
    OnlyCore c s ((s.setCore c k).setCore c k') :=
  ⟨fun _ ho => (State.core_setCore_ne _ k' ho).trans (State.core_setCore_ne s k ho), fun _ => rfl, rfl⟩

/-- A core that wrote `rd` and retired, from whatever stall, is `ToReg`. -/
theorem State.toReg_of_retire {s t : State} {c : CoreId} {rd : Reg} {v : Word} (w : Stall)
    (hk : t.core c = (({ s.core c with stall := w } : Core).setG rd v).retire) (ho : OnlyCore c s t) :
    ToReg c rd v s t := by
  have hg : (t.core c).g = (({ s.core c with stall := w } : Core).setG rd v).g := by rw [hk, Core.retire_g]
  have hget (r : Reg) : (t.core c).getG r = (({ s.core c with stall := w } : Core).setG rd v).getG r := by
    simp only [Core.getG, hg]
  refine ⟨⟨(hget rd).trans (Core.getG_setG_same _ _ _), fun r hr => (hget r).trans (Core.getG_setG_ne _ _ hr)⟩,
    fun r => ?_, ?_, ho⟩
  · simp [Core.getV, hk]
  · rw [hk]
    exact Core.retired_retire_setG _ _ _ _

/-- A core that only retired is `ToPc` at the next instruction. -/
theorem State.toPc_of_retire {s t : State} {c : CoreId} (hk : t.core c = (s.core c).retire) (ho : OnlyCore c s t) :
    ToPc c ((s.core c).pc + 4) s t :=
  ⟨by rw [hk, Core.retire_g], by rw [hk, Core.retire_v], by rw [hk]; exact Core.retired_retire _, ho⟩

/-- A stall at an instruction writes the stall of its core alone. -/
theorem State.stallAt_spec (s : State) (c : CoreId) (why : Stall) :
    (s.stallAt c why).core c = { s.core c with stall := why } ∧ OnlyCore c s (s.stallAt c why) :=
  ⟨State.core_modCore_same _ _ _, State.onlyCore_setCore _ _ _⟩

/-- A command that answers a next state gives what holds of it. -/
theorem gives_of_exec {i : Instr} {s t : State} {P : State → Prop} (h : exec i s = .next t) (hP : P t) : Gives i s P :=
  ⟨t, h, hP⟩

end Sys2Proof.Machine
end

section
/-! Traps, the return from one, interrupts and WFI (02 R147, R151 to R153, R800, R802): an equation for each operation, then
the statement. -/
namespace Sys2Proof.Machine

open Sys2Proof.Claims

/-! ## Traps -/

/-- While NEST is clear a trap enters RUNTIME mode. -/
theorem State.trap_of_nest_clear (s : State) (c : CoreId) (cause : Nat) (addr pc : Word) (h : (s.core c).nest = false) :
    s.trap c cause addr pc = s.setCore c ((s.core c).enter cause addr pc) := by
  simp [State.trap, h]

theorem State.entered_enter (s : State) (c : CoreId) (cause : Nat) (addr pc : Word) :
    Entered c cause addr pc s (s.setCore c ((s.core c).enter cause addr pc)) := by
  simp [Entered, Core.enter, State.onlyCore_setCore]

theorem State.entered_trap (s : State) (c : CoreId) (cause : Nat) (addr pc : Word) (h : (s.core c).nest = false) :
    Entered c cause addr pc s (s.trap c cause addr pc) := by
  rw [State.trap_of_nest_clear s c cause addr pc h]
  exact State.entered_enter s c cause addr pc

theorem execTrap_ready (c : CoreId) (n : BitVec 8) (s : State) (h : s.canIssue c [] = true) :
    execTrap c n s = .next (s.trap c 0x06 (n.setWidth 64) (s.core c).pc) := by
  rw [execTrap, State.issue_ready _ _ _ _ h]

theorem execIllegalInstruction_undefined (c : CoreId) (w : BitVec 32) (s : State) (h : s.canIssue c [] = true)
    (hw : decodeWord c w = none) :
    execIllegalInstruction c w s = .next (s.trap c 0x01 (w.setWidth 64) (s.core c).pc) := by
  rw [execIllegalInstruction, State.issue_ready _ _ _ _ h]
  simp [hw, State.illegal]

/-! ## TRET -/

theorem execTret_runtime (c : CoreId) (s : State) (h : s.canIssue c [] = true) (hm : (s.core c).mode = .runtime) :
    execTret c s = .next (s.setCore c (({ (s.core c).leave with stall := .none } : Core).retired (s.core c).pc)) := by
  rw [execTret, State.issue_ready _ _ _ _ h]
  simp [hm]

theorem execTret_job (c : CoreId) (s : State) (h : s.canIssue c [] = true) (hm : (s.core c).mode = .job) :
    execTret c s = .next (s.trap c 0x02 (Claims.wordOf (.tret c)) (s.core c).pc) := by
  rw [execTret, State.issue_ready _ _ _ _ h]
  simp only [hm, State.privileged]
  rfl

/-! ## Interrupts -/

/-- Before TIMER_CMP the timer latches nothing (R800). -/
theorem Core.latchTimer_early (k : Core) {ftime : Word} (h : ftime.toNat < k.timerCmp.toNat) : k.latchTimer ftime = k := by
  simp [Core.latchTimer, Nat.not_le.mpr h]

/-- An interrupt ends no stall but WFI. -/
theorem Core.wake_of_not_wfi (k : Core) (h : k.stall ≠ .wfi) : k.wake = k := by
  unfold Core.wake
  split
  · exact absurd ‹_› h
  · rfl

theorem Core.raiseInt_of_not_wfi (k : Core) (n : Nat) (addr : Word) (h : k.stall ≠ .wfi) :
    k.raiseInt n addr = k.setInt n addr := Core.wake_of_not_wfi (k.setInt n addr) h

theorem Core.wake_of_wfi (k : Core) (h : k.stall = .wfi) (hr : k.intReady = true) : k.wake = k.retire := by
  simp [Core.wake, h, hr]

theorem Core.intReady_of_bit (k : Core) (n : Nat) (h : (k.intPending &&& k.intEnable).getLsbD n = true) :
    k.intReady = true := by
  rw [Core.intReady, decide_eq_true_eq]
  intro h0
  simp [h0] at h

theorem lowestBit_eq_some {b : BitVec 8} {n : Nat} (hn : n < 8) (hb : b.getLsbD n = true)
    (hl : ∀ i, i < n → b.getLsbD i = false) : lowestBit b = some n := by
  rw [lowestBit, List.find?_range_eq_some]
  exact ⟨hb, List.mem_range.mpr hn, fun i hi => by simp [hl i hi]⟩

/-- The core after its WFI, if any, has ended takes the lowest interrupt that it has pending and enabled. -/
theorem execInterruptTake_takes (c : CoreId) (n : Nat) (k : Core) (s : State) (hr : s.coreRuns c = true)
    (hk : ((s.core c).latchTimer s.ftimeWord).wake = k) (hnest : k.nest = false)
    (hl : lowestBit (k.intPending &&& k.intEnable) = some n) :
    execInterruptTake c s = .next (s.setCore c (k.enter (0x20 + n) (Tab.get 0 k.intAddr n) k.pc)) := by
  simp [execInterruptTake, hr, hk, hl, hnest]

/-- An interrupt between two instructions. -/
theorem gives_interruptTake_running (c : CoreId) (n : Nat) (s : State) (hr : s.coreRuns c = true)
    (hnest : (s.core c).nest = false) (hw : (s.core c).stall ≠ .wfi)
    (ht : s.ftimeWord.toNat < (s.core c).timerCmp.toNat)
    (hl : lowestBit ((s.core c).intPending &&& (s.core c).intEnable) = some n) :
    Gives (.interruptTake c) s (Entered c (0x20 + n) (Tab.get 0 (s.core c).intAddr n) (s.core c).pc s) := by
  have hk : ((s.core c).latchTimer s.ftimeWord).wake = s.core c := by
    rw [Core.latchTimer_early _ ht, Core.wake_of_not_wfi _ hw]
  exact gives_of_exec (execInterruptTake_takes c n _ s hr hk hnest hl) (State.entered_enter _ _ _ _ _)

/-- An interrupt that ends a WFI: the WFI retires, and the core enters from the instruction after it. -/
theorem gives_interruptTake_wfi (c : CoreId) (n : Nat) (s : State) (hr : s.coreRuns c = true)
    (hnest : (s.core c).nest = false) (hw : (s.core c).stall = .wfi)
    (ht : s.ftimeWord.toNat < (s.core c).timerCmp.toNat) (hf : (s.core c).pmu.freeze = true)
    (hb : ((s.core c).intPending &&& (s.core c).intEnable).getLsbD n = true)
    (hl : lowestBit ((s.core c).intPending &&& (s.core c).intEnable) = some n) :
    Gives (.interruptTake c) s (fun t => (t.core c).mode = .runtime ∧
      (t.core c).trapCause = BitVec.ofNat 64 (0x20 + n) ∧ (t.core c).trapPc = (s.core c).pc + 4 ∧
      (t.core c).pc = (s.core c).tvec ∧ (t.core c).stall = .none ∧ (t.core c).g = (s.core c).g ∧ OnlyCore c s t) := by
  have hk : ((s.core c).latchTimer s.ftimeWord).wake =
      { s.core c with pc := (s.core c).pc + 4, stall := .none, coreProgress := (s.core c).coreProgress + 1 } := by
    rw [Core.latchTimer_early _ ht, Core.wake_of_wfi _ hw (Core.intReady_of_bit _ n hb), Core.retire_frozen _ hf]
  refine gives_of_exec (execInterruptTake_takes c n _ s hr hk hnest hl) ?_
  simp [Core.enter, State.onlyCore_setCore]

/-! ## Poison, the timer and WFI -/

theorem execPoisonConsumed_cons (c : CoreId) (p : PoisonHit) (rest : List PoisonHit) (s : State)
    (hr : s.coreRuns c = true) (hp : (s.core c).poison = p :: rest) :
    execPoisonConsumed c s =
      .next ((s.setCore c { s.core c with poison := rest }).trap c 0x08 p.addr (s.core c).pc) := by
  simp [execPoisonConsumed, hr, hp]

/-- Consumed poison is dropped from the core, which enters with the poisoned address (R802). -/
theorem gives_poisonConsumed (c : CoreId) (p : PoisonHit) (rest : List PoisonHit) (s : State)
    (hr : s.coreRuns c = true) (hnest : (s.core c).nest = false) (hp : (s.core c).poison = p :: rest) :
    Gives (.poisonConsumed c) s (fun t => (t.core c).mode = .runtime ∧ (t.core c).trapCause = 0x08 ∧
      (t.core c).trapAddr = p.addr ∧ (t.core c).trapPc = (s.core c).pc ∧ (t.core c).pc = (s.core c).tvec ∧
      (t.core c).poison = rest ∧ (t.core c).g = (s.core c).g ∧ OnlyCore c s t) := by
  refine gives_of_exec (execPoisonConsumed_cons c p rest s hr hp) ?_
  rw [State.trap_of_nest_clear _ _ _ _ _ (by simpa using hnest)]
  simp [Core.enter, State.onlyCore_setCore_setCore]

theorem execTimerInterrupt_due (c : CoreId) (s : State) (ha : s.coreAlive c = true)
    (ht : (s.core c).timerCmp.toNat ≤ s.ftimeWord.toNat) (hw : (s.core c).stall ≠ .wfi) :
    execTimerInterrupt c s = .next (s.setCore c ((s.core c).setInt 3 0)) := by
  simp [execTimerInterrupt, ha, ht, Core.raiseInt_of_not_wfi _ _ _ hw]

theorem execWfi_ready (c : CoreId) (s : State) (h : s.canIssue c [] = true)
    (ht : s.ftimeWord.toNat < (s.core c).timerCmp.toNat) (hi : (s.core c).intReady = true) :
    execWfi c s = .next (s.setCore c (s.core c).retire) := by
  rw [execWfi, State.issue_ready _ _ _ _ h]
  simp [Core.latchTimer_early _ ht, hi]

theorem execWfi_waits (c : CoreId) (s : State) (h : s.canIssue c [] = true)
    (ht : s.ftimeWord.toNat < (s.core c).timerCmp.toNat) (hi : (s.core c).intReady = false) :
    execWfi c s = .next (s.setCore c { s.core c with stall := .wfi }) := by
  rw [execWfi, State.issue_ready _ _ _ _ h]
  simp [Core.latchTimer_early _ ht, hi]

/-! ## The statement -/

/-- Settles O13: each command is one entry, one return, one retirement or one write of its core, by the equations above. -/
theorem trapsReturnsAndInterrupts : Obligations.TrapsReturnsAndInterrupts := by
  refine ⟨?trap, ?illegal, ?tret, ?tretJob, ?interrupt, ?interruptWfi, ?poison, ?timer, ?wfi⟩
  case trap =>
    intro c n s h hnest
    exact gives_of_exec (execTrap_ready c n s h) (State.entered_trap _ _ _ _ _ hnest)
  case illegal =>
    intro c w s h hnest hw
    exact gives_of_exec (execIllegalInstruction_undefined c w s h hw) (State.entered_trap _ _ _ _ _ hnest)
  case tret =>
    intro c s h hm
    refine gives_of_exec (execTret_runtime c s h hm) ?_
    rw [Core.retired_eq]
    simp [Core.leave, State.onlyCore_setCore]
  case tretJob =>
    intro c s h hm hnest
    exact gives_of_exec (execTret_job c s h hm) (State.entered_trap _ _ _ _ _ hnest)
  case interrupt =>
    intro c n s hr hnest hw ht hn hb hl
    exact gives_interruptTake_running c n s hr hnest hw ht (lowestBit_eq_some hn hb hl)
  case interruptWfi =>
    intro c n s hr hnest hw ht hf hn hb hl
    exact gives_interruptTake_wfi c n s hr hnest hw ht hf hb (lowestBit_eq_some hn hb hl)
  case poison => exact gives_poisonConsumed
  case timer =>
    intro c s ha ht hw
    refine gives_of_exec (execTimerInterrupt_due c s ha ht hw) ?_
    simp [Core.setInt, State.onlyCore_setCore]
  case wfi =>
    intro c s h ht
    exact ⟨fun hi => gives_of_exec (execWfi_ready c s h ht hi)
        (State.toPc_of_retire (State.core_setCore_same _ _ _) (State.onlyCore_setCore _ _ _)),
      fun hi => gives_of_exec (execWfi_waits c s h ht hi)
        ⟨State.core_setCore_same _ _ _, State.onlyCore_setCore _ _ _⟩⟩

end Sys2Proof.Machine
end

section
/-! What the stores of unflowed packets hold for a core, and what sending one more leaves (09 R425, R426). -/
namespace Sys2Proof.Machine

/-- Packets of core `c` and kind `k` that one die's store still holds. -/
def DieSt.unacked (x : DieSt) (c : CoreId) (k : PKind) : Nat :=
  x.store.countP (fun u => u.pkt.srcCore == c && u.pkt.kind == k)

/-- What a core has unacknowledged is what the two dies hold of it. -/
theorem State.unacked_eq (s : State) (c : CoreId) (k : PKind) :
    s.unacked c k = (s.die .west).unacked c k + (s.die .east).unacked c k := by
  simp [State.unacked, DieSt.unacked, State.die, List.countP_eq_length_filter]

/-- A change of some elements that a count does not see leaves the count. -/
theorem countP_mapIf {α : Type} (p q : α → Bool) (f : α → α) (l : List α) (h : ∀ x, p (f x) = p x) :
    (mapIf q f l).countP p = l.countP p := by
  rw [mapIf, List.countP_map]
  congr 1
  funext x
  simp only [Function.comp]
  split
  · exact h x
  · rfl

/-- A write of one die whose store counts alike leaves every die's count. -/
theorem State.unacked_modDie (s : State) (d e : Die) (f : DieSt → DieSt) (c : CoreId) (k : PKind)
    (h : ∀ x : DieSt, (f x).unacked c k = x.unacked c k) :
    ((s.modDie d f).die e).unacked c k = (s.die e).unacked c k := by
  by_cases he : e = d
  · subst he
    rw [State.modDie, State.die_setDie_same, h]
  · rw [State.modDie, State.die_setDie_ne s _ he]

theorem State.unacked_inject (s : State) (d e : Die) (p : Packet) (c : CoreId) (k : PKind) :
    ((s.inject d p).die e).unacked c k = (s.die e).unacked c k :=
  State.unacked_modDie s d e _ c k (fun _ => rfl)

/-- Sending what a window allows acknowledges nothing. -/
theorem State.unacked_pumpStream (s : State) (d e : Die) (chip : BitVec 16) (c : CoreId) (k : PKind) :
    ((s.pumpStream d chip).die e).unacked c k = (s.die e).unacked c k := by
  unfold State.pumpStream
  dsimp only
  split
  · rfl
  · refine (State.unacked_modDie _ _ _ _ _ _ fun x => ?_).trans ?_
    · exact countP_mapIf _ _ _ x.store (fun _ => rfl)
    · exact foldl_keep (fun t : State => (t.die e).unacked c k) (fun t (u : Unflowed) => t.inject d u.pkt)
        (fun t u => State.unacked_inject t d e u.pkt c k) _ s

/-- A packet that is sent is held until it is acknowledged. -/
theorem State.unacked_sendUnflowed (s : State) (d e : Die) (p : Packet) (c : CoreId) (k : PKind) :
    ((s.sendUnflowed d p).die e).unacked c k =
      (s.die e).unacked c k + if e = d ∧ p.srcCore = c ∧ p.kind = k then 1 else 0 := by
  rw [State.sendUnflowed, State.unacked_pumpStream]
  by_cases he : e = d
  · subst he
    simp [DieSt.unacked, List.countP_append, List.countP_singleton]
  · rw [State.die_setDie_ne _ _ he]
    simp [he]

end Sys2Proof.Machine
end

section
/-! TINC, TINC.L, TREAD and TWAIT (02 R139 to R142; 06 R300): the rules of a tally, an equation for each instruction, then
the statement. -/
namespace Sys2Proof.Machine

open Sys2Proof.Claims

/-! ## Waiting for a tally -/

/-- The difference decides by its sign alone. -/
theorem msb_eq_false_iff_toInt_nonneg (x : BitVec 32) : x.msb = false ↔ 0 ≤ x.toInt := by
  rw [← Bool.not_eq_true, BitVec.msb_eq_toInt, decide_eq_true_eq, Int.not_lt]

/-- A core that waits for no tally is not concerned by one. -/
theorem Core.checkTwait_idle (k : Core) (h : k.stall = .none) : k.checkTwait = k := by
  simp [Core.checkTwait, h]

theorem Core.setG_eq_ite (k : Core) (r : Reg) (v : Word) :
    k.setG r v = { k with g := if r = 0 then k.g else k.g.set r.toNat v (by omega) } := by
  unfold Core.setG
  split <;> rfl

/-- A TWAIT whose tally has reached its target returns it and retires. -/
theorem Core.checkTwait_reached (k : Core) {rd : Reg} {t : BitVec 6} {target : BitVec 32} {d : Option Nat}
    (hs : k.stall = .twait rd t target d) (h : 0 ≤ (k.tally t.toNat - target).toInt) :
    k.checkTwait = (k.setG rd ((k.tally t.toNat).setWidth 64)).retire := by
  have hm := (msb_eq_false_iff_toInt_nonneg _).mpr h
  rw [Core.tally] at hm
  rw [Core.setG_eq_ite]
  simp only [Core.checkTwait, hs, hm, Core.tally, Bool.false_eq_true, if_false]

/-- A TWAIT whose tally has not reached its target waits on. -/
theorem Core.checkTwait_short (k : Core) {rd : Reg} {t : BitVec 6} {target : BitVec 32} {d : Option Nat}
    (hs : k.stall = .twait rd t target d) (h : (k.tally t.toNat - target).toInt < 0) : k.checkTwait = k := by
  have hm : (k.tally t.toNat - target).msb = true := by
    rw [BitVec.msb_eq_toInt, decide_eq_true_eq]
    exact h
  rw [Core.tally] at hm
  simp only [Core.checkTwait, hs, hm, if_true]

theorem Core.checkTwait_tallies (k : Core) : k.checkTwait.tallies = k.tallies := by
  unfold Core.checkTwait
  split
  · dsimp only
    split
    · rfl
    · rw [Core.retire_tallies]
  · rfl

/-! ## Adding to a tally -/

theorem Core.tally_addTally_same (k : Core) (i : Nat) (n : BitVec 32) : (k.addTally i n).tally i = k.tally i + n := by
  rw [Core.tally, Core.addTally, Core.checkTwait_tallies, Tab.get_put_same, Core.tally]

theorem Core.tally_addTally_ne (k : Core) {i m : Nat} (n : BitVec 32) (h : m ≠ i) :
    (k.addTally i n).tally m = k.tally m := by
  rw [Core.tally, Core.addTally, Core.checkTwait_tallies, Tab.get_put_ne _ _ _ h, Core.tally]

/-- An increment to a core that does not stall changes its tallies alone. -/
theorem Core.addTally_idle (k : Core) (i : Nat) (n : BitVec 32) (h : k.stall = .none) :
    k.addTally i n = { k with tallies := Tab.put 0 k.tallies i (k.tally i + n) } :=
  Core.checkTwait_idle { k with tallies := Tab.put 0 k.tallies i (k.tally i + n) } h

/-- An increment reaches a core that is alive. -/
theorem State.tallyAdd_alive (s : State) (o : CoreId) (i : Nat) (n : BitVec 32) (cs : List CoreId)
    (h : s.coreAlive o = true) : s.tallyAdd o i n cs = s.modCore o (fun k => k.addTally i n) := by
  have hr : (s.region (coreRegion o)).inReset = false := by
    simp only [State.coreAlive, Bool.and_eq_true, Bool.not_eq_true'] at h
    exact h.2
  simp [State.tallyAdd, hr, h]

/-- A retirement keeps every core alive that was. -/
theorem State.coreAlive_retire (s : State) (c o : CoreId) : (s.modCore c Core.retire).coreAlive o = s.coreAlive o := by
  have hc : ((s.modCore c Core.retire).core o).coreInReset = (s.core o).coreInReset := by
    by_cases h : o = c
    · subst h
      rw [State.core_modCore_same, Core.retire_coreInReset]
    · rw [State.core_modCore_ne s _ h]
  simp only [State.coreAlive, hc]
  rfl

theorem State.coreServes_of_alive (s : State) (o : CoreId) (h : s.coreAlive o = true) : s.coreServes o = true := by
  simp only [State.coreAlive, Bool.and_eq_true] at h
  exact h.1.1

/-! ## TINC to a tally of this chip -/

theorem execTinc_here (c : CoreId) (rs1 rs2 : Reg) (o : CoreId) (n : Nat) (s : State)
    (h : s.canIssue c [.g rs1, .g rs2] = true) (ht : tallyOf (addrOff ((s.core c).getG rs1)) = some (o, n))
    (hr : s.reach ((s.core c).getG rs1) = .here) (ha : s.coreAlive o = true)
    (hp : (s.core c).storesPending = false) :
    execTinc c rs1 rs2 s = .next ((s.modCore c Core.retire).modCore o
      (fun k => k.addTally n (((s.core c).getG rs2).setWidth 32))) := by
  rw [execTinc, State.issue_ready _ _ _ _ h]
  simp only [ht, hr, State.coreServes_of_alive s o ha, hp]
  rw [State.tallyAdd_alive _ _ _ _ _ (by rw [State.coreAlive_retire]; exact ha)]
  rfl

/-- A core retires and an increment reaches a tally: its own, or another core's. -/
theorem State.retire_then_addTally (s : State) (c o : CoreId) (n : Nat) (v : BitVec 32) :
    let t := (s.modCore c Core.retire).modCore o (fun k => k.addTally n v)
    (t.core o).tally n = (s.core o).tally n + v ∧ (∀ m, m ≠ n → (t.core o).tally m = (s.core o).tally m) ∧
      (t.core c).pc = (s.core c).pc + 4 ∧ (o ≠ c → (s.core o).stall = .none → (t.core o).g = (s.core o).g) ∧
      SameMem s t ∧ (∀ x : CoreId, x ≠ c → x ≠ o → t.core x = s.core x) := by
  intro t
  have hto : t.core o = ((s.modCore c Core.retire).core o).addTally n v := State.core_modCore_same _ _ _
  have hsum (i : Nat) : ((s.modCore c Core.retire).core o).tally i = (s.core o).tally i := by
    by_cases hoc : o = c
    · subst hoc
      rw [State.core_modCore_same, Core.tally, Core.retire_tallies, Core.tally]
    · rw [State.core_modCore_ne s _ hoc]
  refine ⟨?_, fun m hm => ?_, ?_, fun hoc hs => ?_, fun _ => rfl, fun x hxc hxo => ?_⟩
  · rw [hto, Core.tally_addTally_same, hsum]
  · rw [hto, Core.tally_addTally_ne _ _ hm, hsum]
  · by_cases hoc : o = c
    · subst hoc
      rw [hto, State.core_modCore_same, Core.addTally_idle _ _ _ (Core.retire_stall _), Core.retire_pc]
    · rw [State.core_modCore_ne _ _ (Ne.symm hoc), State.core_modCore_same, Core.retire_pc]
  · rw [hto, State.core_modCore_ne s _ hoc, Core.addTally_idle _ _ _ hs]
  · rw [State.core_modCore_ne _ _ hxo, State.core_modCore_ne _ _ hxc]

/-! ## TINC to a tally of another chip -/

/-- The packet that carries an increment of core `c` to another chip. -/
def State.tincPacket (s : State) (c : CoreId) (chip : BitVec 16) (a v : Word) : Packet :=
  s.newPacket chip (addrOff a) c .signal .tinc signalDie [(v.setWidth 32).setWidth 64]

/-- A core that has sent its increment retires and counts it. -/
def Core.retireSent (k : Core) : Core := k.retire.count 0x073 1 k.pc 0

/-- What may hold a remote increment back, when none of its own packets or stores does: the request plane (01 R51). -/
theorem execTinc_away (c : CoreId) (rs1 rs2 : Reg) (o : CoreId) (n : Nat) (chip : BitVec 16) (s : State)
    (h : s.canIssue c [.g rs1, .g rs2] = true) (ht : tallyOf (addrOff ((s.core c).getG rs1)) = some (o, n))
    (hr : s.reach ((s.core c).getG rs1) = .away chip) (hp : (s.core c).storesPending = false)
    (hc : (s.core c).abortClosed = false) (hu : s.unacked c .tinc < 32) (hroom : s.storeRoom signalDie = true) :
    execTinc c rs1 rs2 s = .next (if s.org.dieWaits s.org.requestPlane signalDie c true then s.stallAt c .loadOrFence
      else (s.sendUnflowed signalDie (s.tincPacket c chip ((s.core c).getG rs1) ((s.core c).getG rs2))).modCore c
        Core.retireSent) := by
  rw [execTinc, State.issue_ready _ _ _ _ h]
  simp only [ht, hr, hp, hc, hroom, Nat.not_le.mpr hu, decide_false, Bool.not_true, Bool.false_or]
  split <;> rfl

theorem Core.retireSent_fields (k : Core) :
    k.retireSent.pc = k.pc + 4 ∧ k.retireSent.g = k.g ∧ k.retireSent.tallies = k.tallies := by
  rw [Core.retireSent, Core.count_eq]
  exact ⟨k.retire_pc, k.retire_g, k.retire_tallies⟩

/-- The store of the Signal class's die holds one increment more. -/
theorem State.unacked_tincPacket (s : State) (c : CoreId) (chip : BitVec 16) (a v : Word) :
    (s.sendUnflowed signalDie (s.tincPacket c chip a v)).unacked c .tinc = s.unacked c .tinc + 1 := by
  simp only [State.unacked_eq, State.unacked_sendUnflowed, State.tincPacket, State.newPacket, signalDie]
  simp
  omega

/-- What a sent increment leaves: one packet more that is unacknowledged, the retirement, and nothing else of any core. -/
theorem State.sent_tinc (s : State) (c : CoreId) (chip : BitVec 16) (a v : Word) :
    let t := (s.sendUnflowed signalDie (s.tincPacket c chip a v)).modCore c Core.retireSent
    t.unacked c .tinc = s.unacked c .tinc + 1 ∧ (t.core c).pc = (s.core c).pc + 4 ∧ (t.core c).g = (s.core c).g ∧
      (t.core c).tallies = (s.core c).tallies ∧ SameMem s t ∧ (∀ x : CoreId, x ≠ c → t.core x = s.core x) := by
  intro t
  have hcores := State.core_of_cores (s.cores_sendUnflowed signalDie (s.tincPacket c chip a v))
  have htc : t.core c = (s.core c).retireSent := by rw [State.core_modCore_same, hcores]
  obtain ⟨hpc, hg, htal⟩ := (s.core c).retireSent_fields
  rw [htc]
  refine ⟨s.unacked_tincPacket c chip a v, hpc, hg, htal, fun _ => ?_, fun x hx => ?_⟩
  · rw [State.mem_modCore, State.mem_sendUnflowed]
  · rw [State.core_modCore_ne _ _ hx, hcores]

/-! ## TINC.L, TREAD and TWAIT -/

theorem execTincL_ready (c : CoreId) (rs2 : Reg) (n : BitVec 8) (s : State) (h : s.canIssue c [.g rs2] = true)
    (hp : (s.core c).storesPending = false) : execTincL c rs2 n s = .next (s.setCore c
      ((s.core c).retire.addTally (n.toNat % 64) (((s.core c).getG rs2).setWidth 32))) := by
  rw [execTincL, State.issue_ready _ _ _ _ h]
  simp [hp]

/-- A core that retires and adds to its own tally sets that tally alone. -/
theorem State.coreSets_retire_addTally (s : State) (c : CoreId) (i : Nat) (v : BitVec 32) :
    CoreSets c (fun k k' => k'.tally i = k.tally i + v ∧ ∀ m, m ≠ i → k'.tally m = k.tally m) s
      (s.setCore c ((s.core c).retire.addTally i v)) := by
  have hidle := Core.addTally_idle (s.core c).retire i v (Core.retire_stall _)
  have htal (m : Nat) : (s.core c).retire.tally m = (s.core c).tally m := by simp [Core.tally]
  rw [CoreSets, State.core_setCore_same]
  refine ⟨?_, ?_, ?_, ?_, ⟨?_, fun m hm => ?_⟩, State.onlyCore_setCore _ _ _⟩
  · rw [hidle, Core.retire_g]
  · rw [hidle, Core.retire_v]
  · rw [hidle, Core.retire_pc]
  · rw [hidle, Core.retire_stall]
  · rw [Core.tally_addTally_same, htal]
  · rw [Core.tally_addTally_ne _ _ hm, htal]

theorem execTread_ready (c : CoreId) (rd : Reg) (n : BitVec 8) (s : State) (h : s.canIssue c [.g rd] = true) :
    execTread c rd n s = .next (s.setCore c
      ((s.core c).setG rd (((s.core c).tally (n.toNat % 64)).setWidth 64)).retire) := by
  rw [execTread, State.issue_ready _ _ _ _ h]
  rfl

/-- The stall of a TWAIT: its destination, its tally, its target and its deadline. -/
def State.twaitStall (s : State) (c : CoreId) (rd rs1 rs2 : Reg) (n : BitVec 8) : Stall :=
  .twait rd (n.setWidth 6) (((s.core c).getG rs1).setWidth 32)
    (if (s.core c).getG rs2 = 0 then none else some (s.runNow + 1000 * ((s.core c).getG rs2).toNat))

theorem execTwait_ready (c : CoreId) (rd rs1 rs2 : Reg) (n : BitVec 8) (s : State)
    (h : s.canIssue c [.g rs1, .g rs2, .g rd] = true) : execTwait c rd rs1 rs2 n s = .next (s.setCore c
      ({ (s.core c).settleDrops with stall := s.twaitStall c rd rs1 rs2 n } : Core).checkTwait) := by
  have hz : ((s.core c).getG rs2).toNat = 0 ↔ (s.core c).getG rs2 = 0 := by
    rw [← BitVec.toNat_inj]
    rfl
  rw [execTwait, State.issue_ready _ _ _ _ h]
  simp only [State.twaitStall, hz]

theorem gives_twait_reached (c : CoreId) (rd rs1 rs2 : Reg) (n : BitVec 8) (s : State)
    (h : s.canIssue c [.g rs1, .g rs2, .g rd] = true)
    (hd : 0 ≤ ((s.core c).tally (n.toNat % 64) - ((s.core c).getG rs1).setWidth 32).toInt) :
    Gives (.twait c rd rs1 rs2 n) s (ToReg c rd (((s.core c).tally (n.toNat % 64)).setWidth 64)
      (s.modCore c Core.settleDrops)) := by
  have hn : (n.setWidth 6).toNat = n.toNat % 64 := BitVec.toNat_setWidth 6 n
  refine gives_of_exec (execTwait_ready c rd rs1 rs2 n s h) ?_
  rw [Core.checkTwait_reached _ rfl (by rw [hn]; exact hd), hn]
  refine State.toReg_of_retire (s.twaitStall c rd rs1 rs2 n) ?_ (State.onlyCore_modCore_setCore s c _ _)
  rw [State.core_setCore_same, State.core_modCore_same]
  rfl

theorem gives_twait_short (c : CoreId) (rd rs1 rs2 : Reg) (n : BitVec 8) (s : State)
    (h : s.canIssue c [.g rs1, .g rs2, .g rd] = true)
    (hd : ((s.core c).tally (n.toNat % 64) - ((s.core c).getG rs1).setWidth 32).toInt < 0) :
    Gives (.twait c rd rs1 rs2 n) s (fun t => (t.core c).pc = (s.core c).pc ∧
      (t.core c).stall = s.twaitStall c rd rs1 rs2 n ∧ (t.core c).g = (s.core c).g ∧ OnlyCore c s t) := by
  have hn : (n.setWidth 6).toNat = n.toNat % 64 := BitVec.toNat_setWidth 6 n
  refine gives_of_exec (execTwait_ready c rd rs1 rs2 n s h) ?_
  rw [Core.checkTwait_short _ rfl (by rw [hn]; exact hd), State.core_setCore_same]
  exact ⟨rfl, rfl, rfl, State.onlyCore_setCore _ _ _⟩

theorem execTwaitTimeout_due (c : CoreId) (rd : Reg) (n : BitVec 6) (w : BitVec 32) (deadline : Nat) (s : State)
    (hr : s.coreRuns c = true) (hs : (s.core c).stall = .twait rd n w (some deadline)) (hd : deadline ≤ s.runNow) :
    execTwaitTimeout c s =
      .next (s.setCore c ((s.core c).setG rd (((s.core c).tally n.toNat).setWidth 64)).retire) := by
  simp [execTwaitTimeout, hs, hr, hd]

/-! ## The statement -/

/-- Settles O16: an increment is an `addTally` or a packet more in the store, a read and a TWAIT that ends are one
retirement into `rd`. -/
theorem tallyInstructions : Obligations.TallyInstructions := by
  refine ⟨?here, ?away, ?tincL, ?tread, ?twait, ?timeout⟩
  case here =>
    intro c rs1 rs2 o n s h ht hr ha hp
    exact gives_of_exec (execTinc_here c rs1 rs2 o n s h ht hr ha hp) (s.retire_then_addTally c o n _)
  case away =>
    intro c rs1 rs2 o n chip s h ht hr hp hc hu hroom
    have hexec := execTinc_away c rs1 rs2 o n chip s h ht hr hp hc hu hroom
    refine ⟨fun hw => ?_, fun hw => ?_⟩
    · exact gives_of_exec (by rw [exec_tinc, hexec, hw]; rfl) (s.sent_tinc c chip _ _)
    · exact gives_of_exec (by rw [exec_tinc, hexec, hw]; rfl) (s.stallAt_spec c .loadOrFence)
  case tincL =>
    intro c rs2 n s h hp
    exact gives_of_exec (execTincL_ready c rs2 n s h hp) (s.coreSets_retire_addTally c _ _)
  case tread =>
    intro c rd n s h
    exact gives_of_exec (execTread_ready c rd n s h)
      (State.toReg_of_retire (s.core c).stall (State.core_setCore_same _ _ _) (State.onlyCore_setCore _ _ _))
  case twait =>
    intro c rd rs1 rs2 n s h
    exact ⟨gives_twait_reached c rd rs1 rs2 n s h, gives_twait_short c rd rs1 rs2 n s h⟩
  case timeout =>
    intro c rd n w deadline s hr hs hd
    exact gives_of_exec (execTwaitTimeout_due c rd n w deadline s hr hs hd)
      (State.toReg_of_retire (s.core c).stall (State.core_setCore_same _ _ _) (State.onlyCore_setCore _ _ _))

end Sys2Proof.Machine
end

section
/-! Writes of the time unit (09 R431 to R434): choosing a parent and slewing move fabric time by no more than a beacon's
allowance, and leave ports, cores and memory alone. -/
namespace Sys2Proof.Machine

/-! ## Writing the time unit -/

/-- A write of the time state may advance EPOCH and report object 0x4010, and leaves all else. -/
theorem State.setTime_eq (s : State) (t : TimeSt) : ∃ epoch changed,
    s.setTime t = { s with time := { t with epoch := epoch }, oap := { s.oap with changed := changed } } := by
  unfold State.setTime
  split
  · exact ⟨t.epoch, s.oap.changed, rfl⟩
  · exact ⟨s.time.epoch + 1, s.oap.changed ++ [0x4010], rfl⟩

/-- What holds of the time unit once a parent has been chosen: the role is kept, the clock of the slew stands or starts now, and
time that had been acquired is not being acquired again. -/
def TimeSt.Chosen (s : State) (t : TimeSt) : Prop :=
  t.role = s.time.role ∧ (t.slewAt = s.time.slewAt ∨ t.slewAt = s.now) ∧ (2 ≤ s.time.state → t.state ≠ 1)

theorem State.timeUnder_chosen (s : State) (p : Nat) : TimeSt.Chosen s (s.timeUnder p) := by
  refine ⟨rfl, ?_, fun h => ?_⟩
  · by_cases hp : s.time.parent = noPort
    · exact .inr (if_pos hp)
    · exact .inl (if_neg hp)
  · simp only [State.timeUnder]
    (repeat' split) <;> omega

theorem State.timeAlone_chosen (s : State) : TimeSt.Chosen s s.timeAlone := by
  unfold State.timeAlone
  dsimp only
  split
  · exact ⟨rfl, .inl rfl, fun h => by omega⟩
  · refine ⟨rfl, .inl rfl, fun h => ?_⟩
    dsimp only
    (repeat' split) <;> omega

/-- Choosing a parent leaves all but the time unit and the objects due an EVENT. -/
theorem State.follow_eq (s : State) : ∃ t changed, TimeSt.Chosen s t ∧
    s.follow = { s with time := t, oap := { s.oap with changed := changed } } := by
  have setChosen (t : TimeSt) (h : TimeSt.Chosen s t) : ∃ u changed, TimeSt.Chosen s u ∧
      s.setTime t = { s with time := u, oap := { s.oap with changed := changed } } := by
    obtain ⟨epoch, changed, ht⟩ := s.setTime_eq t
    exact ⟨{ t with epoch := epoch }, changed, h, ht⟩
  unfold State.follow
  split
  · exact ⟨s.time, s.oap.changed, ⟨rfl, .inl rfl, fun h => by omega⟩, rfl⟩
  · split
    · exact setChosen _ (s.timeUnder_chosen _)
    · exact setChosen _ s.timeAlone_chosen

@[simp] theorem State.follow_ftime (s : State) : s.follow.ftime = s.ftime := by
  obtain ⟨t, changed, -, h⟩ := s.follow_eq
  rw [h]

@[simp] theorem State.follow_fab (s : State) : s.follow.fab = s.fab := by
  obtain ⟨t, changed, -, h⟩ := s.follow_eq
  rw [h]

@[simp] theorem State.follow_now (s : State) : s.follow.now = s.now := by
  obtain ⟨t, changed, -, h⟩ := s.follow_eq
  rw [h]

theorem State.follow_chosen (s : State) : TimeSt.Chosen s s.follow.time := by
  obtain ⟨t, changed, ht, h⟩ := s.follow_eq
  rw [h]
  exact ht

/-! ## Slewing (R432) -/

theorem natAbs_clampInt_le (d : Int) (m : Nat) : (clampInt d m).natAbs ≤ m := by
  unfold clampInt
  (repeat' split) <;> omega

/-- Once time is acquired, a slew moves it by the clamped offset and starts the clock of the next one. -/
theorem State.slew_acquired (s : State) (off : Int) (h : s.time.state ≠ 1) :
    s.slew off = { s with ftime := s.ftime + clampInt off ((s.now - s.time.slewAt) / 1000 : Nat),
                          time := { s.time with slewAt := s.now } } := by
  simp [State.slew, h]

/-- Whether it steps or slews, fabric time and the time unit are all that differs, but for the objects due an EVENT. -/
theorem State.slew_eq (s : State) (off : Int) : ∃ ft t changed,
    s.slew off = { s with ftime := ft, time := t, oap := { s.oap with changed := changed } } := by
  unfold State.slew
  dsimp only
  split
  · obtain ⟨epoch, changed, h⟩ := ({ s with ftime := s.ftime + off } : State).setTime_eq
      { s.time with state := if s.time.bound ≤ s.time.limit then 2 else 0, slewAt := s.now }
    exact ⟨_, _, changed, h⟩
  · exact ⟨_, _, s.oap.changed, rfl⟩

@[simp] theorem State.slew_fab (s : State) (off : Int) : (s.slew off).fab = s.fab := by
  obtain ⟨ft, t, changed, h⟩ := s.slew_eq off
  rw [h]

@[simp] theorem State.slew_tray (s : State) (off : Int) : (s.slew off).tray = s.tray := by
  obtain ⟨ft, t, changed, h⟩ := s.slew_eq off
  rw [h]

/-- A slew of acquired time moves it by at most 1 ns for each us since the last one. -/
theorem State.slew_bounded (s : State) (off : Int) (h : s.time.state ≠ 1) :
    ((s.slew off).ftime - s.ftime).natAbs ≤ (s.now - s.time.slewAt) / 1000 := by
  have hmoved : (s.slew off).ftime - s.ftime = clampInt off ((s.now - s.time.slewAt) / 1000 : Nat) := by
    rw [s.slew_acquired off h]
    show s.ftime + _ - s.ftime = _
    omega
  rw [hmoved]
  exact natAbs_clampInt_le off _

/-- A slew towards a parent chosen just before moves time by no more than the allowance that stood before the choice: a choice
that restarts the clock leaves no allowance. -/
theorem State.follow_slew_bounded (s : State) (off : Int) (h : 2 ≤ s.time.state) :
    ((s.follow.slew off).ftime - s.ftime).natAbs ≤ (s.now - s.time.slewAt) / 1000 := by
  obtain ⟨-, hclock, hstate⟩ := s.follow_chosen
  have hb := s.follow.slew_bounded off (hstate h)
  rw [State.follow_ftime, State.follow_now] at hb
  refine Nat.le_trans hb (Nat.div_le_div_right ?_)
  rcases hclock with hc | hc
  · exact Nat.le_of_eq (congrArg (s.now - ·) hc)
  · rw [hc, Nat.sub_self]
    exact Nat.zero_le _

end Sys2Proof.Machine
end

section
/-! Beacons (09 R431, R432; 10 R475, R476): what hearing one leaves at its port, and how one is sent through the limiter of
the Signal class (R416). -/
namespace Sys2Proof.Machine

open Sys2Proof.Claims

/-- Ports read alike where the fabric is the same. -/
theorem State.port_of_fab {s t : State} (h : t.fab = s.fab) (p : Nat) : t.port p = s.port p := by
  rw [State.port, State.port, h]

@[simp] theorem State.port_modPort_same (s : State) (p : Nat) (f : Port → Port) : (s.modPort p f).port p = f (s.port p) :=
  State.port_setPort_same _ _ _

theorem State.port_modPort_ne (s : State) {p o : Nat} (f : Port → Port) (h : o ≠ p) :
    (s.modPort p f).port o = s.port o := State.port_setPort_ne _ _ h

theorem State.port_notify (s : State) (obj p : Nat) : (s.notify obj).port p = s.port p :=
  State.port_of_fab (s.notify_fab obj) p

/-! ## Hearing a beacon -/

/-- A site port's write leaves all but the site ports and the objects due an EVENT. -/
theorem State.setSitePort_eq (s : State) (p : Nat) (x : SitePort) : ∃ site changed,
    s.setSitePort p x = { s with site := site, oap := { s.oap with changed := changed } } := by
  unfold State.setSitePort
  dsimp only
  split
  · exact ⟨_, s.oap.changed, rfl⟩
  · exact ⟨_, _, rfl⟩

theorem State.checkAsym_eq (s : State) (p : Nat) (peer : Int) : ∃ site changed,
    s.checkAsym p peer = { s with site := site, oap := { s.oap with changed := changed } } := by
  unfold State.checkAsym
  split
  · exact ⟨s.site, s.oap.changed, rfl⟩
  · exact s.setSitePort_eq p _

/-- A port with the figures of a beacon that arrives at fabric time `now`, and the offset that it completes, if any. -/
def Port.hear (x : Port) (b : BeaconData) (off : Option Int) (now : Int) : Port :=
  { x with offset := off.getD x.offset, beaconRecv := now, nbStratum := b.stratum, nbBound := b.bound, nbValid := b.valid,
           nbPrimary := b.reachesPrimary, nbSite := b.acrossSite }

/-- The state in which the parent is chosen afresh after a beacon. -/
def State.heard (s : State) (p : Nat) (b : BeaconData) : State :=
  (s.checkAsym p b.asymmetry).modPort p (fun x => x.hear b (s.offsetBy p b) s.ftime)

theorem State.heard_eq (s : State) (p : Nat) (b : BeaconData) : ∃ site changed,
    s.heard p b = ({ s with site := site, oap := { s.oap with changed := changed } } : State).setPort p
      ((s.port p).hear b (s.offsetBy p b) s.ftime) := by
  obtain ⟨site, changed, h⟩ := s.checkAsym_eq p b.asymmetry
  refine ⟨site, changed, ?_⟩
  rw [State.heard, h]
  rfl

theorem State.heard_port (s : State) (p : Nat) (b : BeaconData) :
    (s.heard p b).port p = (s.port p).hear b (s.offsetBy p b) s.ftime := by
  obtain ⟨site, changed, h⟩ := s.heard_eq p b
  rw [h, State.port_setPort_same]

@[simp] theorem State.heard_ftime (s : State) (p : Nat) (b : BeaconData) : (s.heard p b).ftime = s.ftime := by
  obtain ⟨site, changed, h⟩ := s.heard_eq p b
  rw [h, State.setPort_ftime]

@[simp] theorem State.heard_time (s : State) (p : Nat) (b : BeaconData) : (s.heard p b).time = s.time := by
  obtain ⟨site, changed, h⟩ := s.heard_eq p b
  rw [h, State.setPort_time]

@[simp] theorem State.heard_now (s : State) (p : Nat) (b : BeaconData) : (s.heard p b).now = s.now := by
  obtain ⟨site, changed, h⟩ := s.heard_eq p b
  rw [h, State.setPort_now]

theorem State.heard_quiet (s : State) (p : Nat) (b : BeaconData) : Quiet s (s.heard p b) := by
  simp [Quiet, State.heard]

/-- A beacon that arrives at a port in service is heard and the parent chosen; time is slewed only where the beacon completes
an offset and the package is not the primary. -/
theorem execBeacon_up (p : BitVec 6) (b : BeaconData) (s : State) (h : s.portUp p.toNat = true) :
    ∃ t, execBeacon p b s = .next t ∧ (t = (s.heard p.toNat b).follow ∨
      ∃ d, s.offsetBy p.toNat b = some d ∧ s.time.role ≠ 1 ∧ t = (s.heard p.toNat b).follow.slew d) := by
  have hexec : execBeacon p b s = match s.offsetBy p.toNat b with
      | some d => .next (if (s.heard p.toNat b).follow.time.role ≠ 1 ∧ (s.heard p.toNat b).follow.time.parent = p.toNat
          then (s.heard p.toNat b).follow.slew d else (s.heard p.toNat b).follow)
      | none => .next (s.heard p.toNat b).follow := by
    rw [execBeacon, h]
    rfl
  obtain ⟨hrole, -, -⟩ := (s.heard p.toNat b).follow_chosen
  rw [State.heard_time] at hrole
  rw [hexec, hrole]
  cases hoff : s.offsetBy p.toNat b with
  | none => exact ⟨_, rfl, .inl rfl⟩
  | some d =>
    refine ⟨_, rfl, ?_⟩
    split
    next hs => exact .inr ⟨d, rfl, hs.1, rfl⟩
    next => exact .inl rfl

/-- A beacon that reports no receipt completes no offset. -/
theorem State.offsetBy_unreported (s : State) (p : Nat) (b : BeaconData) (h : b.t2 = 0) : s.offsetBy p b = none := by
  simp [State.offsetBy, h]

/-- With one own beacon on its way, that is the one answered. -/
theorem State.offsetBy_only (s : State) (p : Nat) (b : BeaconData) (t1 : Int) (h : b.t2 ≠ 0)
    (ht : (s.port p).beaconTimes = [t1]) : s.offsetBy p b =
      some (((b.t2 - t1) - (s.ftime - b.t3) - (if s.isSite p then (s.sitePort p).asymmetry else 0)) / 2) := by
  simp [State.offsetBy, Port.beaconAnswered, beaconOffset, h, ht]

theorem gives_beacon (p : BitVec 6) (b : BeaconData) (s : State) (hup : s.portUp p.toNat = true) :
    Gives (.beacon p b) s (fun t => (t.port p.toNat).nbStratum = b.stratum ∧ (t.port p.toNat).nbBound = b.bound ∧
      (t.port p.toNat).nbValid = b.valid ∧ (t.port p.toNat).beaconRecv = s.ftime ∧
      (b.t2 = 0 → (t.port p.toNat).offset = (s.port p.toNat).offset ∧ t.ftime = s.ftime) ∧
      (∀ t1, b.t2 ≠ 0 → (s.port p.toNat).beaconTimes = [t1] → (t.port p.toNat).offset =
        ((b.t2 - t1) - (s.ftime - b.t3) - (if s.isSite p.toNat then (s.sitePort p.toNat).asymmetry else 0)) / 2) ∧
      (2 ≤ s.time.state → (t.ftime - s.ftime).natAbs ≤ (s.now - s.time.slewAt) / 1000) ∧
      (s.time.role = 1 → t.ftime = s.ftime) ∧ Quiet s t) := by
  obtain ⟨t, hexec, ht⟩ := execBeacon_up p b s hup
  have hfab : t.fab = (s.heard p.toNat b).fab := by
    rcases ht with rfl | ⟨d, -, -, rfl⟩ <;> simp
  have hport : t.port p.toNat = (s.port p.toNat).hear b (s.offsetBy p.toNat b) s.ftime := by
    rw [State.port_of_fab hfab, State.heard_port]
  have hstay (hn : s.offsetBy p.toNat b = none ∨ s.time.role = 1) : t.ftime = s.ftime := by
    rcases ht with rfl | ⟨d, hd, hrole, -⟩
    · simp
    · rcases hn with hn | hn
      · simp [hn] at hd
      · exact absurd hn hrole
  have hquiet : Quiet s t := by
    obtain ⟨hc, hm⟩ := s.heard_quiet p.toNat b
    rcases ht with rfl | ⟨d, -, -, rfl⟩ <;> simp [Quiet, hc, hm]
  refine gives_of_exec hexec ?_
  rw [hport]
  refine ⟨rfl, rfl, rfl, rfl, fun h0 => ?unreported, fun t1 h0 h1 => ?only, fun hst => ?slewed,
    fun hrole => hstay (.inr hrole), hquiet⟩
  case unreported =>
    have hnone := s.offsetBy_unreported p.toNat b h0
    exact ⟨by rw [hnone]; rfl, hstay (.inl hnone)⟩
  case only =>
    rw [s.offsetBy_only p.toNat b t1 h0 h1]
    rfl
  case slewed =>
    rcases ht with rfl | ⟨d, -, -, rfl⟩
    · simp
    · simpa using (s.heard p.toNat b).follow_slew_bounded d (by simpa using hst)

/-! ## The limiter of the Signal class (R416) -/

/-- A port whose bucket of die `d` has gained the tokens due by `now`. -/
def Port.gain (x : Port) (d : Die) (now per : Nat) : Port :=
  { x with tokens := Tab.put 64 x.tokens d.code
             (Nat.min 64 (Tab.get 64 x.tokens d.code + (10 * now - Tab.get 0 x.tokenAt d.code) / per)),
           tokenAt := Tab.put 0 x.tokenAt d.code
             (Tab.get 0 x.tokenAt d.code + (10 * now - Tab.get 0 x.tokenAt d.code) / per * per) }

theorem State.port_refill (s : State) (p : Nat) (d : Die) :
    (s.refill p d).port p = (s.port p).gain d s.now (s.tokenTime p) := State.port_modPort_same _ _ _

/-- The token time depends on a port by the name it bears alone. -/
theorem State.tokenTime_setPort (s : State) (p : Nat) (x : Port) (h : x.logical = (s.port p).logical) :
    (s.setPort p x).tokenTime p = s.tokenTime p := by
  have hl : (s.setPort p x).logicalOf p = s.logicalOf p := by
    simp [State.logicalOf, h]
  have he : (s.setPort p x).planEntry p = s.planEntry p := by
    rw [State.planEntry, hl]
    rfl
  have hu : (s.setPort p x).portUse p = s.portUse p := by
    rw [State.portUse, he, State.portUse]
  rw [State.tokenTime, State.flitTime, State.isSite, hu]
  rfl

/-- Both buckets of a port refilled. -/
def State.refillBoth (s : State) (p : Nat) : State := (s.refill p .west).refill p .east

theorem State.port_refillBoth (s : State) (p : Nat) : (s.refillBoth p).port p =
    ((s.port p).gain .west s.now (s.tokenTime p)).gain .east s.now (s.tokenTime p) := by
  have ht : (s.refill p .west).tokenTime p = s.tokenTime p := s.tokenTime_setPort p _ rfl
  rw [State.refillBoth, State.port_refill, State.port_refill, ht]
  rfl

/-- The tokens that the port's own die has there now. -/
def State.ownTokens (s : State) (p : Nat) : Nat := Tab.get 64 ((s.refillBoth p).port p).tokens (portDie p).code

/-- Noting that a beacon was sent changes no bucket. -/
theorem State.ownTokens_beaconSent (s : State) (p : Nat) (at' : Option Nat) :
    (s.setPort p { s.port p with beaconSent := at' }).ownTokens p = s.ownTokens p := by
  have ht := s.tokenTime_setPort p { s.port p with beaconSent := at' } rfl
  rw [State.ownTokens, State.ownTokens, State.port_refillBoth, State.port_refillBoth, ht, State.port_setPort_same]
  rfl

/-- With nothing held, the limiters only gain their tokens. -/
theorem State.releaseHeld_empty (s : State) (p : Nat) (h : (s.port p).held = []) : s.releaseHeld p = s.refillBoth p := by
  rw [State.releaseHeld, h]
  rfl

/-- A flit of the port's own die in the Signal class. -/
def PortPkt.OwnSignal (e : PortPkt) (p : Nat) : Prop :=
  e.pkt.cls = .signal ∧ e.origin = ownInput ∧ e.pkt.srcDie = portDie p ∧ Packet.flits e.pkt = 1

/-- A port that queues `e` and spends its tokens of die `d`. -/
def Port.spendOn (x : Port) (d : Die) (e : PortPkt) : Port :=
  { x with out := x.out ++ [e],
           tokens := Tab.put 64 x.tokens d.code (Tab.get 64 x.tokens d.code - Packet.flits e.pkt) }

/-- A port whose limiter holds `e` and counts it. -/
def Port.holdBack (x : Port) (e : PortPkt) : Port := { x with held := x.held ++ [e], limited := x.limited + 1 }

/-- With nothing held before it, such a flit is queued for a token, or held. -/
theorem State.enqueue_ownSignal (s : State) (p : Nat) (e : PortPkt) (he : e.OwnSignal p) (h : (s.port p).held = []) :
    s.enqueue p e = if 1 ≤ s.ownTokens p then ((s.refillBoth p).modPort p (fun x => x.spendOn (portDie p) e)).noteQueued p
      else (s.refillBoth p).modPort p (fun x => x.holdBack e) := by
  obtain ⟨hcls, horigin, hdie, hflits⟩ := he
  have hheld : ((s.refillBoth p).port p).held = [] := by
    rw [State.port_refillBoth]
    exact h
  simp only [State.enqueue, s.releaseHeld_empty p h, hcls, horigin, hdie, hflits, hheld, decide_true, Bool.and_self,
    List.any_nil, Bool.not_false, Bool.true_and, decide_eq_true_eq, if_true, State.modPort, Port.spendOn, Port.holdBack,
    State.ownTokens]

theorem State.port_enqueue_token (s : State) (p : Nat) (e : PortPkt) (he : e.OwnSignal p) (h : (s.port p).held = [])
    (ht : 1 ≤ s.ownTokens p) : ((s.enqueue p e).port p).beaconSent = (s.port p).beaconSent ∧
      ((s.enqueue p e).port p).out = (s.port p).out ++ [e] := by
  rw [s.enqueue_ownSignal p e he h, if_pos ht, State.noteQueued, State.port_modPort_same, State.port_modPort_same,
    State.port_refillBoth]
  simp only [Port.spendOn, Port.gain, and_self]

theorem State.port_enqueue_limited (s : State) (p : Nat) (e : PortPkt) (he : e.OwnSignal p) (h : (s.port p).held = [])
    (ht : s.ownTokens p = 0) : ((s.enqueue p e).port p).beaconSent = (s.port p).beaconSent ∧
      ((s.enqueue p e).port p).out = (s.port p).out ∧
      ((s.enqueue p e).port p).limited = (s.port p).limited + 1 ∧ ((s.enqueue p e).port p).held = [e] := by
  rw [s.enqueue_ownSignal p e he h, if_neg (by omega), State.port_modPort_same, State.port_refillBoth]
  simp only [Port.holdBack, Port.gain, h, List.nil_append, and_self]

/-! ## Sending a beacon -/

/-- The beacon that port `p` sends now. -/
def State.ownBeacon (s : State) (p : Nat) : PortPkt :=
  s.ownAt p { s.newPacket (BitVec.ofNat 16 (s.port p).nbChip) 0 noCore .signal .beacon (portDie p)
      [s.ftimeWord, BitVec.ofInt 64 (s.port p).beaconRecv,
       BitVec.ofInt 64 (if s.isSite p then (s.sitePort p).asymmetry else 0)] with injectTime := BitVec.ofInt 48 s.ftime } 8

theorem State.ownBeacon_ownSignal (s : State) (p : Nat) : (s.ownBeacon p).OwnSignal p := ⟨rfl, rfl, rfl, rfl⟩

/-- What a beacon carries to VL8: its kind and the fabric time. -/
theorem State.ownBeacon_carries (s : State) (p : Nat) : (s.ownBeacon p).pkt.kind = .beacon ∧ (s.ownBeacon p).lane = 8 ∧
    (s.ownBeacon p).pkt.args.head? = some s.ftimeWord := ⟨rfl, rfl, rfl⟩

/-- The port has noted that it sends a beacon now. -/
def State.beaconNoted (s : State) (p : Nat) : State := s.setPort p { s.port p with beaconSent := some s.now }

theorem execBeaconSend_due (p : BitVec 6) (s : State) (hup : s.portUp p.toNat = true)
    (hdue : ∀ y, (s.port p.toNat).beaconSent = some y → y + 10000 ≤ s.now) :
    execBeaconSend p s = .next ((s.beaconNoted p.toNat).enqueue p.toNat (s.ownBeacon p.toNat)) := by
  cases hb : (s.port p.toNat).beaconSent with
  | none =>
    simp only [execBeaconSend, hup, hb]
    rfl
  | some y =>
    simp only [execBeaconSend, hup, hb, hdue y hb]
    rfl

theorem State.beaconNoted_port (s : State) (p : Nat) :
    (s.beaconNoted p).port p = { s.port p with beaconSent := some s.now } := State.port_setPort_same _ _ _

theorem State.beaconNoted_enqueue_quiet (s : State) (p : Nat) (e : PortPkt) : Quiet s ((s.beaconNoted p).enqueue p e) := by
  simp [Quiet, State.beaconNoted]

theorem gives_beaconSend_token (p : BitVec 6) (s : State) (hup : s.portUp p.toNat = true)
    (hheld : (s.port p.toNat).held = []) (hdue : ∀ y, (s.port p.toNat).beaconSent = some y → y + 10000 ≤ s.now)
    (ht : 1 ≤ s.ownTokens p.toNat) :
    Gives (.beaconSend p) s (fun t => (t.port p.toNat).beaconSent = some s.now ∧
      (∃ x : PortPkt, (t.port p.toNat).out = (s.port p.toNat).out ++ [x] ∧
        (x.pkt.kind = .beacon ∧ x.lane = 8 ∧ x.pkt.args.head? = some s.ftimeWord)) ∧ Quiet s t) := by
  have hx := s.beaconNoted_port p.toNat
  obtain ⟨hsent, hout⟩ := (s.beaconNoted p.toNat).port_enqueue_token p.toNat (s.ownBeacon p.toNat)
    (s.ownBeacon_ownSignal _) (by rw [hx]; exact hheld) (by rw [State.beaconNoted, State.ownTokens_beaconSent]; exact ht)
  rw [hx] at hsent hout
  exact gives_of_exec (execBeaconSend_due p s hup hdue)
    ⟨hsent, ⟨_, hout, s.ownBeacon_carries _⟩, s.beaconNoted_enqueue_quiet _ _⟩

theorem gives_beaconSend_limited (p : BitVec 6) (s : State) (hup : s.portUp p.toNat = true)
    (hheld : (s.port p.toNat).held = []) (hdue : ∀ y, (s.port p.toNat).beaconSent = some y → y + 10000 ≤ s.now)
    (ht : s.ownTokens p.toNat = 0) :
    Gives (.beaconSend p) s (fun t => (t.port p.toNat).beaconSent = some s.now ∧
      (t.port p.toNat).out = (s.port p.toNat).out ∧ (t.port p.toNat).limited = (s.port p.toNat).limited + 1 ∧
      (∃ x : PortPkt, (t.port p.toNat).held = [x] ∧
        (x.pkt.kind = .beacon ∧ x.lane = 8 ∧ x.pkt.args.head? = some s.ftimeWord)) ∧ Quiet s t) := by
  have hx := s.beaconNoted_port p.toNat
  obtain ⟨hsent, hout, hlimited, hhold⟩ := (s.beaconNoted p.toNat).port_enqueue_limited p.toNat (s.ownBeacon p.toNat)
    (s.ownBeacon_ownSignal _) (by rw [hx]; exact hheld) (by rw [State.beaconNoted, State.ownTokens_beaconSent]; exact ht)
  rw [hx] at hsent hout hlimited
  exact gives_of_exec (execBeaconSend_due p s hup hdue)
    ⟨hsent, hout, hlimited, ⟨_, hhold, s.ownBeacon_carries _⟩, s.beaconNoted_enqueue_quiet _ _⟩

end Sys2Proof.Machine
end

section
/-! Time without a parent, the primary's second (09 R433, R434; log 129), schedules (R442), then the statement. -/
namespace Sys2Proof.Machine

open Sys2Proof.Claims

/-! ## Without a parent, and primaries -/

theorem execTimeNoParent_due (x : Nat) (s : State) (hsince : s.time.noParentSince = some x) (hrole : s.time.role ≠ 1)
    (hparent : s.time.parent = noPort) (hbackup : ¬(s.time.role = 2 ∧ s.time.stratum = 0)) (hdue : x + 1000000 ≤ s.now) :
    execTimeNoParent s = .next (s.setTime { s.time with
      bound := s.time.bound + 10, noParentSince := some (x + 1000000),
      state := if s.time.state < 2 ∨ s.time.limit < s.time.bound + 10 then 0 else 3 }) := by
  simp [execTimeNoParent, hsince, hrole, hparent, hbackup, Nat.not_lt.mpr hdue]

theorem execBackupPrimaryClaim_due (x : Nat) (s : State) (hsince : s.time.noPrimarySince = some x)
    (hrole : s.time.role = 2) (hstratum : s.time.stratum ≠ 0) (htransit : s.org.transitOn = true)
    (hdue : x + 1000000 ≤ s.now) : execBackupPrimaryClaim s = .next (s.setTime { s.time with
      stratum := 0, bound := 2, parent := noPort, state := 2, limit := 20, noParentSince := none, slewAt := s.now }) := by
  simp [execBackupPrimaryClaim, hsince, hrole, hstratum, htransit, Nat.not_lt.mpr hdue]

/-- A command that writes the time unit alone gives what holds of the unit, whatever its EPOCH. -/
theorem gives_setTime {c : Instr} {s : State} {t : TimeSt} {P : TimeSt → Prop} (hexec : exec c s = .next (s.setTime t))
    (hP : ∀ epoch, P { t with epoch := epoch }) :
    Gives c s (fun u => P u.time ∧ u.ftime = s.ftime ∧ Quiet s u) := by
  obtain ⟨epoch, changed, h⟩ := s.setTime_eq t
  rw [h] at hexec
  exact gives_of_exec hexec ⟨hP epoch, rfl, rfl, rfl⟩

/-! ## The primary's second -/

/-- The signed distance from fabric time to its nearest second. -/
def State.secondOffset (s : State) : Int :=
  if s.ftime % 1000000000 < 500000000 then -(s.ftime % 1000000000) else 1000000000 - s.ftime % 1000000000

/-- The state once a pulse has been noted. -/
def State.ppsNoted (s : State) : State := { s with tray := { s.tray with pps := some s.now } }

/-- The primary slews towards the nearest second; any other package notes the pulse. -/
theorem execPpsInPulse_eq (s : State) : execPpsInPulse s =
    .next (if s.time.role = 1 ∧ s.org.transitOn = true then s.ppsNoted.slew s.secondOffset else s.ppsNoted) := by
  unfold execPpsInPulse
  split <;> rfl

/-- A positive remainder within the allowance is taken off whole. -/
theorem clampInt_neg_within (r : Int) (m : Nat) (h0 : 0 ≤ r) (h : r ≤ m) : clampInt (-r) m = -r := by
  rw [clampInt, if_neg (by omega), if_neg (by omega)]

theorem gives_ppsInPulse (s : State) : Gives .ppsInPulse s (fun t => t.tray = { s.tray with pps := some s.now } ∧
    (s.time.role ≠ 1 ∨ s.org.transitOn = false → t.ftime = s.ftime) ∧
    (s.time.role = 1 → s.org.transitOn = true → s.time.state ≠ 1 →
      (t.ftime - s.ftime).natAbs ≤ (s.now - s.time.slewAt) / 1000 ∧
      (s.ftime % 1000000000 ≤ ((s.now - s.time.slewAt) / 1000 : Nat) → s.ftime % 1000000000 < 500000000 →
        t.ftime = s.ftime - s.ftime % 1000000000)) ∧ Quiet s t) := by
  refine gives_of_exec (execPpsInPulse_eq s) ?_
  by_cases hp : s.time.role = 1 ∧ s.org.transitOn = true
  · rw [if_pos hp]
    refine ⟨State.slew_tray _ _, fun hn => ?_, fun _ _ hst => ⟨s.ppsNoted.slew_bounded _ hst, fun hr hhalf => ?_⟩, ?_⟩
    · simp [hp] at hn
    · have hmod : 0 ≤ s.ftime % 1000000000 := Int.emod_nonneg _ (by decide)
      rw [s.ppsNoted.slew_acquired _ hst, State.secondOffset, if_pos hhalf]
      exact congrArg (s.ftime + ·) (clampInt_neg_within _ _ hmod hr)
    · exact ⟨State.cores_slew _ _, State.mem_slew _ _⟩
  · rw [if_neg hp]
    exact ⟨rfl, fun _ => rfl, fun hr ht => absurd ⟨hr, ht⟩ hp, rfl, rfl⟩

/-! ## Schedules (R442) -/

/-- COMMIT is a sub-entry that the owner may write. -/
theorem State.scheduleCommit_allowed (s : State) : s.writeRefusal 0 .owner 0x4300 4 = .ok (woSub .u8 [.owner]) := rfl

theorem execScheduleCommit_owner (s : State) (ha : s.rindActive = true) (hc : s.carries .owner = true) :
    exec (.scheduleCommit .owner 1) s = .next ((s.wSchedCommit 1).2.answered (s.wSchedCommit 1).1) := by
  have hrow : s.rowWrite 0 .owner 0x4300 4 (leBytes 1 1) = (s.wSchedCommit 1).2.answered (s.wSchedCommit 1).1 :=
    State.rowWrite_num hc ha s.scheduleCommit_allowed rfl (by decide)
  rw [exec_scheduleCommit, execScheduleCommit, ← hrow]
  rfl

/-- A start at least 1 ms ahead in valid time, and 1 to 4096 slots, arm the shadow. -/
theorem State.wSchedCommit_armed (s : State) (hv : s.ftimeValid = true)
    (hstart : s.ftime + 1000000 ≤ (s.sched.start.toNat : Int)) (hlow : 1 ≤ s.sched.slots) (hhigh : s.sched.slots ≤ 4096) :
    s.wSchedCommit 1 = State.done { s with sched :=
      { s.sched with armed := some (s.sched.shadowId, s.sched.slots, s.sched.start) } } := by
  simp [State.wSchedCommit, hv, Int.not_lt.mpr hstart, Nat.ne_of_gt hlow, Nat.not_lt.mpr hhigh]

theorem State.wSchedCommit_denied (s : State) (h : s.ftimeValid = false ∨
    (s.sched.start.toNat : Int) < s.ftime + 1000000 ∨ s.sched.slots < 1 ∨ 4096 < s.sched.slots) :
    s.wSchedCommit 1 = s.deny stInvalid := by
  refine if_pos ?_
  rcases h with h | h | h | h
  · simp [h]
  · simp [h]
  · simp [Nat.lt_one_iff.mp h]
  · simp [h]

/-- A fold that changes each port once changes each port of the list, and no other. -/
theorem State.port_foldl_modPort (f : Port → Port) (p : Nat) (l : List Nat) (hl : l.Nodup) (s : State) :
    (l.foldl (fun s q => s.modPort q f) s).port p = if p ∈ l then f (s.port p) else s.port p := by
  induction l generalizing s with
  | nil => rfl
  | cons q l ih =>
    obtain ⟨hq, hl⟩ := List.nodup_cons.mp hl
    rw [List.foldl_cons, ih hl]
    by_cases hp : p = q
    · subst hp
      simp [hq]
    · simp [hp, State.port_modPort_ne s f hp]

/-- Every port takes its shadow table. -/
def State.takeShadows (s : State) (slots : Nat) : State :=
  allPorts.foldl (fun (s : State) p => s.modPort p (fun x => { x with schedActive := slotEntries x.schedShadow slots })) s

theorem State.port_takeShadows (s : State) (slots p : Nat) (h : p < 48) :
    ((s.takeShadows slots).port p).schedActive = slotEntries (s.port p).schedShadow slots := by
  have hmem : p ∈ allPorts := List.mem_range.mpr h
  rw [State.takeShadows, State.port_foldl_modPort _ p allPorts List.nodup_range, if_pos hmem]

theorem State.takeShadows_sched (s : State) (slots : Nat) : (s.takeShadows slots).sched = s.sched := by
  rw [State.takeShadows]
  exact foldl_keep State.sched _ (fun t q => t.modPort_sched q _) _ _

theorem State.takeShadows_quiet (s : State) (slots : Nat) : Quiet s (s.takeShadows slots) := by
  rw [State.takeShadows]
  exact ⟨foldl_keep State.cores _ (fun t q => t.cores_modPort q _) _ _,
    foldl_keep State.mem _ (fun t q => t.mem_modPort q _) _ _⟩

/-- The schedule unit once an armed schedule has become active. -/
def SchedSt.activated (c : SchedSt) (id : Word) (slots : Nat) (start : Word) : SchedSt :=
  { c with activeId := id, activeSlots := slots, activeStart := (start.toNat : Int), active := true, armed := none,
           epoch := c.epoch + 1 }

theorem execScheduleActivate_due (id : Word) (slots : Nat) (start : Word) (s : State)
    (h : s.sched.armed = some (id, slots, start)) (hdue : (start.toNat : Int) ≤ s.ftime) :
    execScheduleActivate s =
      .next ((({ s with sched := s.sched.activated id slots start } : State).takeShadows slots).notify 0x4300) := by
  simp only [execScheduleActivate, h, if_neg (Int.not_lt.mpr hdue)]
  rfl

theorem execScheduleActivate_early (id : Word) (slots : Nat) (start : Word) (s : State)
    (h : s.sched.armed = some (id, slots, start)) (hearly : s.ftime < (start.toNat : Int)) :
    execScheduleActivate s = .next s := by
  simp only [execScheduleActivate, h, if_pos hearly]

theorem gives_scheduleActivate (id : Word) (slots : Nat) (start : Word) (s : State)
    (h : s.sched.armed = some (id, slots, start)) (hdue : (start.toNat : Int) ≤ s.ftime) :
    Gives .scheduleActivate s (fun t => t.sched.active = true ∧ t.sched.activeId = id ∧
      t.sched.activeSlots = slots ∧ t.sched.activeStart = start.toNat ∧ t.sched.armed = none ∧
      (∀ p, p < 48 → (t.port p).schedActive = slotEntries (s.port p).schedShadow slots) ∧ Quiet s t) := by
  refine gives_of_exec (execScheduleActivate_due id slots start s h hdue) ?_
  rw [State.notify_sched, State.takeShadows_sched]
  refine ⟨rfl, rfl, rfl, rfl, rfl, fun p hp => ?_, ?_⟩
  · rw [State.port_notify, State.port_takeShadows _ _ _ hp]
    rfl
  · simpa only [Quiet, State.cores_notify, State.mem_notify] using
      State.takeShadows_quiet { s with sched := s.sched.activated id slots start } slots

/-! ## The statement -/

/-- Settles O40: a beacon is a port's new figures, a choice of parent and a bounded slew; each other command is one write of
the time unit, of the limiter's port or of the schedule unit, by the equations above. -/
theorem timeAndSchedules : Obligations.TimeAndSchedules := by
  refine ⟨gives_beacon, ?send, ?noParent, ?claim, gives_ppsInPulse, ?commit, ?activate⟩
  case send =>
    intro p s hup hheld hdue
    exact ⟨gives_beaconSend_token p s hup hheld hdue, gives_beaconSend_limited p s hup hheld hdue⟩
  case noParent =>
    intro x s hsince hrole hparent hbackup hdue
    obtain ⟨t, hexec, ⟨hbound, hstate⟩, hrest⟩ := gives_setTime (c := .timeNoParent)
      (P := fun t => t.bound = s.time.bound + 10 ∧
        t.state = if s.time.state < 2 ∨ s.time.limit < s.time.bound + 10 then 0 else 3)
      (execTimeNoParent_due x s hsince hrole hparent hbackup hdue) (fun _ => ⟨rfl, rfl⟩)
    exact ⟨t, hexec, hbound, hstate, hrest⟩
  case claim =>
    intro x s hsince hrole hstratum htransit hdue
    obtain ⟨t, hexec, ⟨hzero, hstate, hparent⟩, hrest⟩ := gives_setTime (c := .backupPrimaryClaim)
      (P := fun t => t.stratum = 0 ∧ t.state = 2 ∧ t.parent = noPort)
      (execBackupPrimaryClaim_due x s hsince hrole hstratum htransit hdue) (fun _ => ⟨rfl, rfl, rfl⟩)
    exact ⟨t, hexec, hzero, hstate, hparent, hrest⟩
  case commit =>
    intro s ha hc
    have hexec := execScheduleCommit_owner s ha hc
    refine ⟨fun hv hstart hlow hhigh => ?_, fun hbad => ?_⟩
    · rw [s.wSchedCommit_armed hv hstart hlow hhigh] at hexec
      exact gives_of_exec hexec ⟨rfl, rfl, rfl, rfl⟩
    · rw [s.wSchedCommit_denied hbad] at hexec
      exact hexec
  case activate =>
    intro id slots start s h
    exact ⟨gives_scheduleActivate id slots start s h,
      fun hearly => gives_of_exec (execScheduleActivate_early id slots start s h hearly) rfl⟩

end Sys2Proof.Machine
end

section
/-! What the orders leave of the power unit (11 R502, R504; R531): the frames of the operations that parking and powering COMPUTE
off are made of, then the state that each effective order comes to. -/
namespace Sys2Proof.Machine

open Sys2Proof.Claims

/-! ## Frames of the power unit -/

@[simp] theorem State.storeValue_pow (s : State) (index sub : Nat) : (s.storeValue index sub).pow = s.pow := by
  rw [State.storeValue_eq]

@[simp] theorem State.storeValue_job (s : State) (index sub : Nat) : (s.storeValue index sub).job = s.job := by
  rw [State.storeValue_eq]

/-- Showing the cap status writes the shown word of the power unit alone. -/
theorem State.showCaps_pow (s : State) : s.showCaps.pow = { s.pow with shown := s.showCaps.pow.shown } :=
  congrArg State.pow s.showCaps_eq

@[simp] theorem State.showCaps_org (s : State) : s.showCaps.org = s.org := by
  rw [State.showCaps_eq]

@[simp] theorem State.jobPark_pow (s : State) : s.jobPark.pow = s.pow := by
  unfold State.jobPark
  dsimp only
  split
  · rfl
  · split <;> rfl

@[simp] theorem State.showCauses_pow (s : State) : s.showCauses.pow = s.pow := by
  unfold State.showCauses
  split <;> rfl

theorem State.evalTier_eq (s : State) : ∃ faults oap, s.evalTier = { s with faults := faults, oap := oap } := by
  unfold State.evalTier
  dsimp only
  generalize (if s.faults.tierLost = true then (tierOf s.lackingBits).min s.faults.tier else tierOf s.lackingBits) = tier
  split
  · exact ⟨_, s.oap, rfl⟩
  · exact ⟨_, _, rfl⟩

@[simp] theorem State.evalTier_pow (s : State) : s.evalTier.pow = s.pow := by
  obtain ⟨faults, oap, h⟩ := s.evalTier_eq
  rw [h]

@[simp] theorem State.evalTier_org (s : State) : s.evalTier.org = s.org := by
  obtain ⟨faults, oap, h⟩ := s.evalTier_eq
  rw [h]

@[simp] theorem State.noLadder_pow (s : State) : s.noLadder.pow = s.pow := rfl
@[simp] theorem State.noLadder_org (s : State) : s.noLadder.org = s.org := rfl

@[simp] theorem State.setRegionState_pow (s : State) (r code : Nat) : (s.setRegionState r code).pow = s.pow := by
  unfold State.setRegionState
  split <;> rfl

@[simp] theorem State.setRegionState_computeOn (s : State) (r code : Nat) :
    (s.setRegionState r code).org.computeOn = s.org.computeOn := by
  unfold State.setRegionState
  split <;> rfl

/-! ## Parking and COMPUTE off -/

/-- A package with a reason to park is parked whole. -/
theorem State.park_pow (s : State) : ∃ shown, s.park.pow =
    if s.pow.parkReason then { s.pow with parked := 0xFFFF, tickCauses := s.pow.tickCauses ||| 0x20, shown := shown }
    else s.pow := by
  unfold State.park
  split
  · exact ⟨_, by rw [State.showCaps_pow, State.jobPark_pow, State.showCauses_pow]⟩
  · exact ⟨0, rfl⟩

@[simp] theorem State.msgDone_pow (s : State) (via : Option Die) (srcChip : BitVec 16) (srcCore : CoreId) (id : Nat) :
    (s.msgDone via srcChip srcCore id).pow = s.pow := by
  cases via with
  | none => rfl
  | some d => exact State.modDie_pow _ _ _

/-- A purge of a core's messages answers their senders, which is no matter of power. -/
@[simp] theorem State.purge_pow (s : State) (c : CoreId) : (s.purge c).2.pow = s.pow := by
  have hdies (u : State) : (u.purgeDies c).2.pow = u.pow :=
    foldl_keep State.pow _ (fun u _ => u.msgDone_pow _ _ _ _) _ _
  have hcoming (u : State) : (u.purgeComing c).2.pow = u.pow :=
    (foldl_keep State.pow _ (fun u _ => u.msgDone_pow _ _ _ _) _ _).trans
      (foldl_keep State.pow _ (fun u _ => u.msgDone_pow _ _ _ _) _ _)
  calc (s.purge c).2.pow = ((s.purgeSenders c).2.purgeDies c).2.pow := hcoming _
    _ = (s.purgeSenders c).2.pow := hdies _
    _ = s.pow := rfl

@[simp] theorem State.havoc_pow (s : State) (off n : Nat) : (s.havoc off n).pow = s.pow := rfl
@[simp] theorem State.dropSnaps_pow (s : State) (p : HangUnit → Bool) : (s.dropSnaps p).pow = s.pow := rfl

@[simp] theorem State.coreClear_pow (s : State) (c : CoreId) : (s.coreClear c).pow = s.pow := by
  unfold State.coreClear
  dsimp only
  rw [State.havoc_pow, State.modCore_pow, State.dropSnaps_pow]

/-- Every core as the loss of COMPUTE clears it, one after the other. -/
def State.clearCores (s : State) : State := allCores.foldl (fun s c => (s.purge c).2.coreClear c) s

@[simp] theorem State.clearCores_pow (s : State) : s.clearCores.pow = s.pow := by
  rw [State.clearCores]
  exact foldl_keep State.pow _ (fun u c => by rw [State.coreClear_pow, State.purge_pow]) _ _

/-- Every region shows that it has no power. -/
def State.regionsOff (s : State) : State := (List.range 16).foldl (fun s r => s.setRegionState r 3) s

@[simp] theorem State.regionsOff_pow (s : State) : s.regionsOff.pow = s.pow := by
  rw [State.regionsOff]
  exact foldl_keep State.pow _ (fun u r => u.setRegionState_pow r 3) _ _

@[simp] theorem State.regionsOff_computeOn (s : State) : s.regionsOff.org.computeOn = s.org.computeOn := by
  rw [State.regionsOff]
  exact foldl_keep (fun u : State => u.org.computeOn) _ (fun u r => u.setRegionState_computeOn r 3) _ _

/-- COMPUTE off clears what waits for a rise and for a grant, and no more of the power unit. -/
theorem State.computeDown_spec (s : State) : s.computeDown.org.computeOn = false ∧
    ∃ shown, s.computeDown.pow = { s.pow with riseWait := [], grantsDue := none, shown := shown } := by
  obtain ⟨u, hpow, hon, hdown⟩ : ∃ u : State, u.pow = { s.clearCores.pow with riseWait := [], grantsDue := none } ∧
      u.org.computeOn = false ∧ s.computeDown = u.regionsOff.showCaps := by
    unfold State.computeDown State.clearCores
    refine ⟨_, ?_, ?_, rfl⟩
    · rfl
    · rfl
  rw [hdown, State.showCaps_org, State.regionsOff_computeOn, State.showCaps_pow, State.regionsOff_pow, hpow,
    State.clearCores_pow]
  exact ⟨hon, _, rfl⟩

/-- OFF is in effect: COMPUTE has no power, and the whole package is parked. -/
def State.PoweredOff (s : State) : Prop := s.pow.effective = 2 ∧ s.org.computeOn = false ∧ s.pow.parked = 0xFFFF

theorem State.PoweredOff.showCaps {s : State} (h : s.PoweredOff) : s.showCaps.PoweredOff := by
  rw [State.PoweredOff, State.showCaps_org, State.showCaps_pow]
  exact h

/-- With no job loaded, OFF parks the package and powers COMPUTE off (11 R504). -/
theorem State.powerOff_idle (s : State) (heff : s.pow.effective = 2) (h : s.jobLoaded = false) : s.powerOff.PoweredOff := by
  obtain ⟨u, hueff, hparked, hoff⟩ : ∃ u : State, u.pow.effective = s.pow.effective ∧ u.pow.parked = 0xFFFF ∧
      s.powerOff = u.computeDown.noLadder.evalTier := by
    rw [State.powerOff, h]
    refine ⟨_, ?_, ?_, rfl⟩
    · rfl
    · rfl
  obtain ⟨hon, shown, hpow⟩ := u.computeDown_spec
  rw [State.PoweredOff, hoff, State.evalTier_pow, State.evalTier_org, State.noLadder_pow, State.noLadder_org, hpow]
  exact ⟨hueff.trans heff, hon, hparked⟩

/-! ## Orders -/

/-- The higher of the two orders. -/
def PowSt.ordered (p : PowSt) : Nat := Nat.max p.rackOrder p.hostOrder

/-- Orders that differ are recorded, and the higher is the effective power state. -/
def State.takeOrders (s : State) : State :=
  let s1 := if s.pow.rackOrder = s.pow.hostOrder then s
    else s.orderRecord 2 s.pow.rackOrder s.pow.hostOrder s.pow.ordered (if s.pow.hostOrder < s.pow.rackOrder then 1 else 2)
  { s1 with pow := { s1.pow with effective := s.pow.ordered } }

theorem State.takeOrders_eq (s : State) : ∃ log total changed, s.takeOrders =
    { s with pow := { s.pow with effective := s.pow.ordered, orderLog := log, orderTotal := total },
             oap := { s.oap with changed := changed } } := by
  unfold State.takeOrders
  dsimp only
  split
  · exact ⟨s.pow.orderLog, s.pow.orderTotal, s.oap.changed, rfl⟩
  · exact ⟨_, _, _, rfl⟩

theorem State.takeOrders_effective (s : State) : s.takeOrders.pow.effective = s.pow.ordered := by
  obtain ⟨log, total, changed, h⟩ := s.takeOrders_eq
  rw [h]

theorem State.takeOrders_jobLoaded (s : State) : s.takeOrders.jobLoaded = s.jobLoaded := by
  obtain ⟨log, total, changed, h⟩ := s.takeOrders_eq
  rw [h]
  rfl

/-- An order of ON or PARK is taken, with a reason to park where it asks a loaded job to park. -/
theorem State.applyOrders_on (s : State) (heff : s.pow.effective ≠ 2) (h : s.pow.ordered ≠ 2) : ∃ u log total,
    s.applyOrders = u.park.jobPark.showCaps ∧
    u.pow = { s.pow with effective := s.pow.ordered, orderLog := log, orderTotal := total,
                         parkOrder := decide (s.pow.ordered = 1) && s.jobLoaded } ∧ Quiet s u := by
  have happly : s.applyOrders = (({ s.takeOrders with pow := { s.takeOrders.pow with
      parkOrder := decide (s.pow.ordered = 1) && s.takeOrders.jobLoaded } }).park.jobPark).showCaps := by
    have hmax : s.pow.rackOrder.max s.pow.hostOrder ≠ 2 := h
    simp only [State.applyOrders, heff, hmax, if_false]
    rfl
  obtain ⟨log, total, changed, htake⟩ := s.takeOrders_eq
  rw [htake] at happly
  exact ⟨_, log, total, happly, rfl, rfl, rfl⟩

/-- An order of OFF that is new powers the package off. -/
theorem State.applyOrders_off (s : State) (heff : s.pow.effective ≠ 2) (h : s.pow.ordered = 2) :
    s.applyOrders = s.takeOrders.powerOff.showCaps := by
  have hmax : s.pow.rackOrder.max s.pow.hostOrder = 2 := h
  simp only [State.applyOrders, heff, hmax, if_false, if_true, State.takeOrders, h]

/-- Orders below OFF stand as written, the higher is in effect, and PARK parks the package of a loaded job. -/
theorem State.applyOrders_on_spec (s : State) (heff : s.pow.effective ≤ 1) (h : s.pow.ordered ≤ 1) :
    s.applyOrders.pow.rackOrder = s.pow.rackOrder ∧ s.applyOrders.pow.hostOrder = s.pow.hostOrder ∧
    s.applyOrders.pow.effective = s.pow.ordered ∧
    (s.applyOrders.pow.effective = 1 → s.jobLoaded = true → s.applyOrders.pow.parked = 0xFFFF) ∧
    Quiet s s.applyOrders := by
  obtain ⟨u, log, total, happly, hpow, hcores, hmem⟩ := s.applyOrders_on (by omega) (by omega)
  obtain ⟨shown, hpark⟩ := u.park_pow
  have hquiet : Quiet s u.park.jobPark.showCaps := by
    simp [Quiet, hcores, hmem]
  rw [happly, State.showCaps_pow, State.jobPark_pow, hpark]
  by_cases hreason : u.pow.parkReason = true
  · rw [if_pos hreason, hpow]
    exact ⟨rfl, rfl, rfl, fun _ _ => rfl, hquiet⟩
  · have hnone (h1 : s.pow.ordered = 1) (hj : s.jobLoaded = true) : u.pow.parked = 0xFFFF :=
      absurd (by simp [PowSt.parkReason, hpow, h1, hj]) hreason
    rw [hpow] at hnone
    rw [if_neg hreason, hpow]
    exact ⟨rfl, rfl, rfl, hnone, hquiet⟩

/-- A new order of OFF with no job loaded. -/
theorem State.applyOrders_poweredOff (s : State) (heff : s.pow.effective ≠ 2) (h : s.pow.ordered = 2)
    (hidle : s.jobLoaded = false) : s.applyOrders.PoweredOff := by
  rw [s.applyOrders_off heff h]
  exact (s.takeOrders.powerOff_idle (s.takeOrders_effective.trans h) (s.takeOrders_jobLoaded.trans hidle)).showCaps

end Sys2Proof.Machine
end

section
/-! Writes of caps, window, orders, hold and frequency mode (11 R502, R504, R513; Tables 11.3 to 11.5): an equation for each
write, what each put operation leaves, then the statement. -/
namespace Sys2Proof.Machine

open Sys2Proof.Claims

/-! ## Each write is the put operation of its sub-entry, answered -/

/-- The state after a write that was performed or refused: its answer stands. -/
def State.afterWrite (o : WriteOut) : State := o.2.answered o.1

section
variable {s : State} (ha : s.rindActive = true)
include ha

theorem execCapWrite_rack (hc : s.carries .rack = true) (v : BitVec 32) :
    exec (.capWrite .rack v) s = .next (State.afterWrite (s.putCap true v.toNat)) :=
  congrArg Host.Outcome.next (State.rowWrite_num (e := wrNum .rwp .u32 [.rack] s.pow.rackCap) hc ha rfl rfl v.isLt)

theorem execCapWrite_host (hc : s.carries .host = true) (v : BitVec 32) :
    exec (.capWrite .host v) s = .next (State.afterWrite (s.putCap false v.toNat)) :=
  congrArg Host.Outcome.next (State.rowWrite_num (e := wrNum .rwp .u32 [.host] s.pow.hostCap) hc ha rfl rfl v.isLt)

theorem execCapWindowWrite_rack (hc : s.carries .rack = true) (v : BitVec 8) :
    exec (.capWindowWrite .rack v) s = .next (State.afterWrite (s.putWindow v.toNat)) :=
  congrArg Host.Outcome.next (State.rowWrite_num (e := wrNum .rwp .u8 [.rack] s.pow.window) hc ha rfl rfl v.isLt)

theorem execRackOrderWrite_rack (hc : s.carries .rack = true) (v : BitVec 8) :
    exec (.rackOrderWrite .rack v) s = .next (State.afterWrite (s.putRackOrder v.toNat)) :=
  congrArg Host.Outcome.next (State.rowWrite_num (e := wrNum .rwp .u8 [.rack] s.pow.rackOrder) hc ha rfl rfl v.isLt)

theorem execHostOrderWrite_host (hc : s.carries .host = true) (v : BitVec 8) :
    exec (.hostOrderWrite .host v) s = .next (State.afterWrite (s.putHostOrder v.toNat)) :=
  congrArg Host.Outcome.next (State.rowWrite_num (e := wrNum .rw .u8 [.host] s.pow.hostOrder) hc ha rfl rfl v.isLt)

theorem execHoldWrite_rack (hc : s.carries .rack = true) (v : BitVec 8) :
    exec (.holdWrite .rack v) s = .next (State.afterWrite (s.putHold v.toNat)) :=
  congrArg Host.Outcome.next (State.rowWrite_num (e := wrNum .rwp .u8 [.rack] s.pow.hold) hc ha rfl rfl v.isLt)

/-- MODE takes the low byte, which is the whole value where that is a mode. -/
theorem execFrequencyModeWrite_mode (hc : s.carries .host = true) (v : BitVec 16) (hv : v.toNat ≤ 1) :
    exec (.frequencyModeWrite .host false v) s = .next (State.afterWrite (s.putMode v.toNat)) :=
  congrArg Host.Outcome.next
    (State.rowWrite_num (e := wrNum .rwp .u8 [.host] s.pow.mode) hc ha rfl rfl (Nat.lt_of_le_of_lt hv (by decide)))

theorem execFrequencyModeWrite_mhz (hc : s.carries .host = true) (v : BitVec 16) :
    exec (.frequencyModeWrite .host true v) s = .next (State.afterWrite (s.putMhz v.toNat)) :=
  congrArg Host.Outcome.next (State.rowWrite_num (e := wrNum .rwp .u16 [.host] s.pow.fixedMhz) hc ha rfl rfl v.isLt)

end

/-! ## What performs a write, and what refuses one -/

@[simp] theorem State.answered_pow (s : State) (a : Ans) : (s.answered a).pow = s.pow := rfl

section
variable {c : Instr} {s : State} {o : WriteOut} (h : exec c s = .next (State.afterWrite o))
include h

/-- A performed write is answered OK, and what holds of the state that it leaves holds of the answer's. -/
theorem written_of_done {u : State} {P : State → Prop} (ho : o = u.done)
    (hP : P (u.answered { status := stOk, body := [] })) : Written c s P := by
  subst ho
  exact ⟨_, h, rfl, hP⟩

theorem denied_of_deny {code : Nat} (ho : o = s.deny code) : Denied c s code [] := by
  subst ho
  exact h

/-- A write that puts a value into the power unit and queues it for flash does nothing else. -/
theorem written_stored {p q : PowSt} {index sub : Nat}
    (ho : o = (({ s with pow := p } : State).storeValue index sub).done) (hp : p = q) :
    Written c s (fun t => t.pow = q ∧ Quiet s t) :=
  written_of_done h ho
    ⟨(State.storeValue_pow _ _ _).trans hp, State.cores_storeValue _ _ _, State.mem_storeValue _ _ _⟩

/-- An order that leaves both below OFF: the orders stand, the higher is in effect, and PARK parks a loaded job's package. -/
theorem written_orderOn {b : State} (ho : o = b.applyOrders.done) (hjob : b.jobLoaded = s.jobLoaded) (hquiet : Quiet s b)
    (heff : b.pow.effective ≤ 1) (hrack : b.pow.rackOrder ≤ 1) (hhost : b.pow.hostOrder ≤ 1) :
    Written c s (fun t => t.pow.rackOrder = b.pow.rackOrder ∧ t.pow.hostOrder = b.pow.hostOrder ∧
      t.pow.effective = b.pow.ordered ∧ (t.pow.effective = 1 → s.jobLoaded = true → t.pow.parked = 0xFFFF) ∧ Quiet s t) := by
  obtain ⟨hr, hh, he, hpark, hcores, hmem⟩ := b.applyOrders_on_spec heff (Nat.max_le.mpr ⟨hrack, hhost⟩)
  obtain ⟨hbcores, hbmem⟩ := hquiet
  rw [hjob] at hpark
  exact written_of_done h ho ⟨hr, hh, he, hpark, hcores.trans hbcores, hmem.trans hbmem⟩

/-- An order of OFF with no job loaded. -/
theorem written_orderOff {b : State} (ho : o = b.applyOrders.done) (hidle : b.jobLoaded = false)
    (heff : b.pow.effective ≤ 1) (hoff : b.pow.ordered = 2) :
    Written c s (fun t => t.pow.effective = 2 ∧ t.org.computeOn = false ∧ t.pow.parked = 0xFFFF) :=
  written_of_done h ho (b.applyOrders_poweredOff (by omega) hoff hidle)

end

/-- A write of which more is known than asked. -/
theorem written_imp {c : Instr} {s : State} {P Q : State → Prop} (h : Written c s P) (hi : ∀ t, P t → Q t) :
    Written c s Q := by
  obtain ⟨t, hexec, hanswer, hP⟩ := h
  exact ⟨t, hexec, hanswer, hi t hP⟩

/-! ## The put operations -/

theorem State.putWindow_taken (s : State) {v : Nat} (hlow : 1 ≤ v) (hhigh : v ≤ 30) :
    s.putWindow v = (({ s with pow := { s.pow with window := v } } : State).storeValue 0x2001 2).done :=
  if_pos ⟨hlow, hhigh⟩

theorem State.putWindow_denied (s : State) {v : Nat} (h : v = 0 ∨ 30 < v) : s.putWindow v = s.deny stInvalid :=
  if_neg (by omega)

theorem State.putHold_taken (s : State) {v : Nat} (h : v ≤ 1) :
    s.putHold v = ((({ s with pow := { s.pow with hold := v } } : State).storeValue 0x2020 3).showCaps).done :=
  if_neg (by omega)

/-- A write of MODE is held while a job is loaded (R513). -/
theorem State.putMode_taken (s : State) {v : Nat} (h : v ≤ 1) : s.putMode v = (({ s with pow :=
    if s.jobLoaded then { s.pow with heldMode := some v } else { s.pow with mode := v } } : State).storeValue 0x2301 1).done :=
  if_neg (by omega)

/-- A clock of 800 to 2,000 MHz in steps of 25 MHz. -/
def FixedClock (v : Nat) : Prop := 800 ≤ v ∧ v ≤ 2000 ∧ v % 25 = 0

theorem State.putMhz_taken (s : State) {v : Nat} (h : FixedClock v) : s.putMhz v = (({ s with pow :=
    if s.jobLoaded then { s.pow with heldMhz := some v } else { s.pow with fixedMhz := v } } : State).storeValue 0x2301 2).done := by
  obtain ⟨hlow, hhigh, hstep⟩ := h
  simp [State.putMhz, Nat.not_lt.mpr hlow, Nat.not_lt.mpr hhigh, hstep]

theorem State.putMhz_denied (s : State) {v : Nat} (h : v < 800 ∨ 2000 < v ∨ v % 25 ≠ 0) :
    s.putMhz v = s.deny stInvalid :=
  if_pos (by simpa [or_assoc] using h)

/-! ## Orders -/

/-- The state with the Rack's order written, before the orders apply. -/
def State.rackOrdered (s : State) (v : Nat) : State :=
  ({ s with pow := { s.pow with rackOrder := v } } : State).storeValue 0x2020 1

/-- The same of the Host's order, which is not kept in flash. -/
def State.hostOrdered (s : State) (v : Nat) : State := { s with pow := { s.pow with hostOrder := v } }

@[simp] theorem State.rackOrdered_pow (s : State) (v : Nat) : (s.rackOrdered v).pow = { s.pow with rackOrder := v } :=
  State.storeValue_pow _ _ _

theorem State.rackOrdered_jobLoaded (s : State) (v : Nat) : (s.rackOrdered v).jobLoaded = s.jobLoaded := by
  rw [State.jobLoaded, State.rackOrdered, State.storeValue_job, State.jobLoaded]

theorem State.rackOrdered_quiet (s : State) (v : Nat) : Quiet s (s.rackOrdered v) :=
  ⟨State.cores_storeValue _ _ _, State.mem_storeValue _ _ _⟩

theorem State.putRackOrder_taken (s : State) {v : Nat} (h : v ≤ 2) :
    s.putRackOrder v = (s.rackOrdered v).applyOrders.done := if_neg (by omega)

theorem State.putHostOrder_taken (s : State) {v : Nat} (h : v ≤ 2) :
    s.putHostOrder v = (s.hostOrdered v).applyOrders.done := if_neg (by omega)

theorem State.putRackOrder_denied (s : State) {v : Nat} (h : 2 < v) : s.putRackOrder v = s.deny stInvalid := if_pos h

theorem State.putHostOrder_denied (s : State) {v : Nat} (h : 2 < v) : s.putHostOrder v = s.deny stInvalid := if_pos h

/-! ## The end of a job -/

/-- At a job's end the writes held apply (R513). -/
theorem gives_runtimeEnd (s : State) (h : s.jobLoaded = true) :
    Gives .runtimeEnd s (fun t => t.pow.mode = s.pow.heldMode.getD s.pow.mode ∧
      t.pow.fixedMhz = s.pow.heldMhz.getD s.pow.fixedMhz ∧ t.pow.heldMode = none ∧ t.pow.heldMhz = none ∧ Quiet s t) :=
  gives_of_exec (if_pos h) ⟨rfl, rfl, rfl, rfl, rfl, rfl⟩

/-! ## The statement -/

/-- Settles O26: each write is its sub-entry's put operation by the equations above; an order is what `applyOrders` comes to,
and the end of a job applies what was held. -/
theorem powerWrites : Obligations.PowerWrites := by
  intro s ha hrack hhost
  refine ⟨?caps, ?bytes, ?frequency, gives_runtimeEnd s⟩
  case caps =>
    intro v
    exact ⟨written_stored (execCapWrite_rack ha hrack v) rfl rfl, written_stored (execCapWrite_host ha hhost v) rfl rfl⟩
  case bytes =>
    intro v
    have hwindow := execCapWindowWrite_rack ha hrack v
    have hrackOrder := execRackOrderWrite_rack ha hrack v
    have hhostOrder := execHostOrderWrite_host ha hhost v
    refine ⟨fun hlow hhigh => written_stored hwindow (s.putWindow_taken hlow hhigh) rfl,
      fun hbad => denied_of_deny hwindow (s.putWindow_denied hbad), fun hv => ?hold,
      fun hv => ⟨denied_of_deny hrackOrder (s.putRackOrder_denied hv), denied_of_deny hhostOrder (s.putHostOrder_denied hv)⟩,
      fun hv heff => ⟨fun hother => ?rackOn, fun hother => ?hostOn⟩,
      fun hv heff hidle => ⟨fun hother => ?rackOff, fun hother => ?hostOff⟩⟩
    case hold =>
      refine written_of_done (execHoldWrite_rack ha hrack v) (s.putHold_taken hv) ⟨?_, ?_⟩
      · rw [State.answered_pow, State.showCaps_pow, State.storeValue_pow]
      · simp [Quiet]
    case rackOn =>
      have h := written_orderOn hrackOrder (s.putRackOrder_taken (by omega)) (s.rackOrdered_jobLoaded _)
        (s.rackOrdered_quiet _) (by simpa using heff) (by simpa using hv) (by simpa using hother)
      rw [State.rackOrdered_pow] at h
      exact written_imp h fun t ⟨hr, _, hrest⟩ => ⟨hr, hrest⟩
    case hostOn =>
      have h := written_orderOn hhostOrder (s.putHostOrder_taken (by omega)) rfl ⟨rfl, rfl⟩ heff hother hv
      exact written_imp h fun t ⟨_, hrest⟩ => hrest
    case rackOff =>
      refine written_orderOff hrackOrder (s.putRackOrder_taken (by omega)) ((s.rackOrdered_jobLoaded _).trans hidle)
        (by simpa using heff) ?_
      rw [State.rackOrdered_pow, PowSt.ordered, hv]
      exact Nat.max_eq_left (Nat.le_succ_of_le hother)
    case hostOff =>
      refine written_orderOff hhostOrder (s.putHostOrder_taken (by omega)) hidle heff ?_
      rw [PowSt.ordered, State.hostOrdered, hv]
      exact Nat.max_eq_right (Nat.le_succ_of_le hother)
  case frequency =>
    intro v
    have hmhz := execFrequencyModeWrite_mhz ha hhost v
    refine ⟨fun hv hidle => ?mode, fun hv hloaded => ?modeHeld, fun hlow hhigh hstep hidle => ?mhz,
      fun hlow hhigh hstep hloaded => ?mhzHeld, fun hbad => denied_of_deny hmhz (s.putMhz_denied hbad)⟩
    case mode =>
      exact written_stored (execFrequencyModeWrite_mode ha hhost v hv) (s.putMode_taken hv) (by rw [hidle]; rfl)
    case modeHeld =>
      exact written_stored (execFrequencyModeWrite_mode ha hhost v hv) (s.putMode_taken hv) (if_pos hloaded)
    case mhz => exact written_stored hmhz (s.putMhz_taken ⟨hlow, hhigh, hstep⟩) (by rw [hidle]; rfl)
    case mhzHeld => exact written_stored hmhz (s.putMhz_taken ⟨hlow, hhigh, hstep⟩) (if_pos hloaded)

end Sys2Proof.Machine
end

section
/-! START and its refusals (15 R672, R673): the cases of the rule, what the write of the job command comes to in each, then the
statement. -/
namespace Sys2Proof.Machine

open Sys2Proof.Claims

/-! ## The cases of R673 -/

/-- The package is not READY, or has not reached the Compute tier. -/
def State.NotReady (s : State) : Prop := s.start.step ≠ 0x0A ∨ s.faults.tier < 3

/-- A dump is collecting, or a step of the reset ladder is in progress. -/
def State.Recovering (s : State) : Prop := s.faults.dumpState = 1 ∨ s.faults.ladder.step ≠ 0

/-- A job is loaded, or JOB_ID is 0. -/
def State.JobBarred (s : State) : Prop := s.jobLoaded = true ∨ s.job.jobId = 0

/-- A START of the Host is refused with the code of a case that holds; where none holds, the job starts. -/
theorem State.wStart_host_cases (s : State) :
    (s.NotReady ∧ s.wStart .host = s.deny stNotReady) ∨
    (s.Recovering ∧ s.wStart .host = s.busy 100) ∨
    (s.pow.hold = 1 ∧ s.wStart .host = s.deny stHold) ∨
    (s.pow.effective = 2 ∧ s.wStart .host = s.refuse 1) ∨
    (s.JobBarred ∧ s.wStart .host = s.deny stInvalid) ∨
    (¬ (s.NotReady ∨ s.Recovering ∨ s.pow.hold = 1 ∨ s.pow.effective = 2 ∨ s.JobBarred) ∧
      s.wStart .host = s.jobStart.done) := by
  generalize ho : s.wStart .host = o
  rw [State.wStart] at ho
  split at ho
  next hready => exact .inl ⟨hready, ho.symm⟩
  split at ho
  next hrec => exact .inr (.inl ⟨hrec, ho.symm⟩)
  split at ho
  next hhold => exact .inr (.inr (.inl ⟨hhold.1, ho.symm⟩))
  split at ho
  next hoff => exact .inr (.inr (.inr (.inl ⟨hoff, ho.symm⟩)))
  split at ho
  next hjob => exact .inr (.inr (.inr (.inr (.inl ⟨by simpa [State.JobBarred] using hjob, ho.symm⟩))))
  next hready hrec hhold hoff hjob =>
    refine .inr (.inr (.inr (.inr (.inr ⟨?_, ho.symm⟩))))
    rintro (h | h | h | h | h)
    · exact hready h
    · exact hrec h
    · exact hhold ⟨h, rfl⟩
    · exact hoff h
    · exact hjob (by simpa [State.JobBarred] using h)

/-! ## The write -/

theorem execJobStart_host {s : State} (ha : s.rindActive = true) (hc : s.carries .host = true) :
    exec (.jobStart .host) s = .next (State.afterWrite (s.wStart .host)) :=
  congrArg Host.Outcome.next
    (State.rowWrite_num (n := 1) (v := 1) (e := woSub .u8 [.host]) hc ha rfl rfl (by decide))

/-- A write whose answer comes with the state as it was is refused with that answer. -/
theorem denied_of_answer {c : Instr} {s : State} {o : WriteOut} {status : Nat} {body : List Byte}
    (h : exec c s = .next (State.afterWrite o)) (ho : o = ({ status := status, body := body }, s)) :
    Denied c s status body := by
  subst ho
  exact h

/-! ## The statement -/

/-- Settles O43: START's write answers as the first case of R673 that holds has it. -/
theorem startIsRefused : Obligations.StartIsRefused := by
  intro s ha hc notReady busy loaded hbarred
  have hexec := execJobStart_host ha hc
  obtain ⟨h, ho⟩ | ⟨h, ho⟩ | ⟨h, ho⟩ | ⟨h, ho⟩ | ⟨h, ho⟩ | ⟨hfree, _⟩ := s.wStart_host_cases
  · exact ⟨_, _, denied_of_answer hexec ho, .inl ⟨h, rfl, rfl⟩⟩
  · exact ⟨_, _, denied_of_answer hexec ho, .inr (.inl ⟨h, rfl, rfl⟩)⟩
  · exact ⟨_, _, denied_of_answer hexec ho, .inr (.inr (.inl ⟨h, rfl, rfl⟩))⟩
  · exact ⟨_, _, denied_of_answer hexec ho, .inr (.inr (.inr (.inl ⟨h, rfl, rfl⟩)))⟩
  · exact ⟨_, _, denied_of_answer hexec ho, .inr (.inr (.inr (.inr ⟨h, rfl, rfl⟩)))⟩
  · exact absurd hbarred hfree

end Sys2Proof.Machine
end

section
/-! Sessions and what waits for the tick (15 R650 to R654, R660): a session after it is changed, handshakes, and requests. -/
namespace Sys2Proof.Machine

open Sys2Proof.Claims

/-! ## One session -/

/-- Where `f` keeps what `p` asks, the first element that `p` accepts is `f` of the one before. -/
theorem find?_mapIf {α : Type} (p : α → Bool) (f : α → α) (l : List α) (h : ∀ x, p (f x) = p x) :
    (mapIf p f l).find? p = (l.find? p).map f := by
  have hp : p ∘ (fun x => if p x then f x else x) = p := by
    funext x
    by_cases hx : p x <;> simp [hx, h]
  rw [mapIf, List.find?_map, hp]
  refine Option.map_congr fun x hx => ?_
  rw [if_pos (List.find?_some hx)]

/-- A change that keeps the session's number is read back from it. -/
theorem State.session_modSession {s : State} {sid : Nat} {x : Session} (f : Session → Session) (hf : ∀ y, (f y).id = y.id)
    (h : s.session sid = some x) : (s.modSession sid f).session sid = some (f x) := by
  have hfind := find?_mapIf (fun y => decide (y.id = sid)) f s.oap.sessions (fun y => by rw [hf])
  rw [show s.oap.sessions.find? _ = some x from h] at hfind
  exact hfind

/-! ## Handshakes (R650, R653, R654) -/

/-- The state in which a handshake has opened the next session. -/
def State.opened (s : State) (r : Role) (p : MgmtPort) (cid : BitVec 64) : State :=
  { s with oap := { s.oap with
      nextSession := s.oap.nextSession + 1
      sessions := s.oap.sessions ++ [freshSession (s.oap.nextSession + 1) r p cid s.now] } }

/-- A certificate that chains to the anchor of the role it names is granted that role. -/
theorem State.grantedRole_chained {s : State} {cert : ClientCert} {r : Role} (link : Bool) (hr : cert.role = some r)
    (hset : s.oap.anchor r ≠ []) (hchain : cert.chainsTo = s.oap.anchor r) : s.grantedRole cert link = some r := by
  simp [State.grantedRole, hr, hset, hchain]

/-- While no Owner anchor and no session is there, a certificate without a role is granted Owner from a link-local address
alone (R654). -/
theorem State.grantedRole_commissioning {s : State} {cert : ClientCert} (link : Bool) (hr : cert.role = none)
    (hset : s.oap.anchorOwner = []) (hnone : s.oap.sessions = []) :
    s.grantedRole cert link = if link then some .owner else none := by
  simp [State.grantedRole, hr, hset, hnone]

/-- A handshake that cannot succeed, whoever asks. -/
theorem execOapHandshake_fails {s : State} {cert : ClientCert} (p : MgmtPort) (cid : BitVec 64) (link : Bool)
    (h : cert.ed25519Ok = false ∨ cert.mldsaOk = false ∨ s.oap.sessions.length = 32) :
    exec (.oapHandshake p cid cert link) s = .next s := by
  refine if_pos ?_
  rcases h with h | h | h <;> simp [h]

/-- One whose signatures verify, with room for a session, is decided by the role that it is granted. -/
theorem execOapHandshake_verified {s : State} {p : MgmtPort} {cert : ClientCert} (cid : BitVec 64) (link : Bool)
    (ha : s.rindActive = true) (hup : (s.mgmtPort p).up = true) (hed : cert.ed25519Ok = true) (hml : cert.mldsaOk = true)
    (hroom : s.oap.sessions.length < 32) :
    exec (.oapHandshake p cid cert link) s =
      .next ((s.grantedRole cert link).elim s (fun r => s.opened r p cid)) := by
  rw [exec_oapHandshake, execOapHandshake, if_neg (by simp [ha, hup, hed, hml, hroom])]
  cases s.grantedRole cert link <;> rfl

/-! ## Requests (R652, R660) -/

/-- The session's request waits for the tick with its fields, and the session stands at the port with a fresh record. -/
def State.Waits (s : State) (x : Session) (p : MgmtPort) (req : BitVec 32) (op : OapOp) (t : State) : Prop :=
  t.oap.requests = s.oap.requests ++ [{ session := x.id, port := p, reqId := req, at' := s.now, op := op }] ∧
  t.session x.id = some { x with port := p, lastRecord := s.now } ∧ Quiet s t

theorem State.request_waits {s : State} {x : Session} {p : MgmtPort} (req : BitVec 32) (op : OapOp)
    (ha : s.rindActive = true) (hx : s.session x.id = some x) (hup : (s.mgmtPort p).up = true) :
    s.Waits x p req op (s.request x.id p req op) := by
  rw [State.request, if_neg (by simp [hx, hup, ha])]
  exact ⟨rfl, State.session_modSession (fun y => { y with port := p, lastRecord := s.now }) (fun _ => rfl) hx, rfl, rfl⟩

end Sys2Proof.Machine
end

section
/-! Writes of a session (15 R664; 17 R761): anchors and nonces, then the statement about sessions. -/
namespace Sys2Proof.Machine

open Sys2Proof.Claims

/-! ## The session that writes -/

theorem State.sessionWrite_open {s : State} {sid : Nat} {x : Session} (index sub : Nat) (v : List Byte)
    (h : s.session sid = some x) : s.sessionWrite sid index sub v = s.rowWrite sid x.role index sub v := by
  rw [State.sessionWrite, show s.oap.sessions.find? _ = some x from h]

/-- An open session reaches the object dictionary in its role while a port is up. -/
theorem State.carries_of_session {s : State} {sid : Nat} {x : Session} (h : s.session sid = some x)
    (hup : s.oap.portA.up = true ∨ s.oap.portB.up = true) : s.carries x.role = true := by
  have hrole : s.oap.sessions.any (fun y => decide (y.role = x.role)) = true :=
    List.any_eq_true.mpr ⟨x, List.mem_of_find?_eq_some h, decide_eq_true rfl⟩
  rw [State.carries, hrole]
  simpa using hup

/-- A BLOB whose length does not fit is answered LENGTH. -/
theorem State.rowWrite_misfit {s : State} {sid : Nat} {role : Role} {index sub : Nat} {v : List Byte} {e : SubEntry}
    (hc : s.carries role = true) (ha : s.rindActive = true) (he : s.writeRefusal sid role index sub = .ok e)
    (hl : lengthFits e index sub v = false) :
    s.rowWrite sid role index sub v = s.answered { status := stLength, body := [] } := by
  simp [State.rowWrite, State.performWrite, hc, ha, he, hl, State.deny]

/-! ## Anchors (R664) -/

@[simp] theorem anchorRole_anchorSub (r : Role) : anchorRole (anchorSub r) = r := by cases r <;> rfl

@[simp] theorem OapSt.anchor_setAnchor_same (o : OapSt) (r : Role) (v : List Byte) : (o.setAnchor r v).anchor r = v := by
  cases r <;> rfl

theorem OapSt.anchor_setAnchor_ne (o : OapSt) {r q : Role} (v : List Byte) (h : q ≠ r) :
    (o.setAnchor r v).anchor q = o.anchor q := by
  cases r <;> cases q <;> simp [OapSt.setAnchor, OapSt.anchor] at h ⊢

/-- The unit after session `sid` has written anchor `r`. -/
def OapSt.anchored (o : OapSt) (sid : Nat) (r : Role) (v : List Byte) : OapSt :=
  if o.anchor r = v then o
  else { o.setAnchor r v with sessions := o.sessions.filter (fun y => decide (y.role ≠ r) || decide (y.id = sid)) }

theorem OapSt.anchor_withSessions (o : OapSt) (l : List Session) (r : Role) :
    ({ o with sessions := l } : OapSt).anchor r = o.anchor r := by cases r <;> rfl

theorem OapSt.anchored_anchor (o : OapSt) (sid : Nat) (r : Role) (v : List Byte) : (o.anchored sid r v).anchor r = v := by
  by_cases h : o.anchor r = v
  · rw [OapSt.anchored, if_pos h, h]
  · rw [OapSt.anchored, if_neg h, OapSt.anchor_withSessions, OapSt.anchor_setAnchor_same]

theorem OapSt.anchored_anchor_ne (o : OapSt) (sid : Nat) {r q : Role} (v : List Byte) (h : q ≠ r) :
    (o.anchored sid r v).anchor q = o.anchor q := by
  by_cases hsame : o.anchor r = v
  · rw [OapSt.anchored, if_pos hsame]
  · rw [OapSt.anchored, if_neg hsame, OapSt.anchor_withSessions, OapSt.anchor_setAnchor_ne _ _ h]

theorem OapSt.anchored_sessions_changed (o : OapSt) (sid : Nat) {r : Role} {v : List Byte} (h : v ≠ o.anchor r) :
    (o.anchored sid r v).sessions = o.sessions.filter (fun y => decide (y.role ≠ r) || decide (y.id = sid)) := by
  rw [OapSt.anchored, if_neg h.symm]

theorem OapSt.anchored_sessions_same (o : OapSt) (sid : Nat) {r : Role} {v : List Byte} (h : v = o.anchor r) :
    (o.anchored sid r v).sessions = o.sessions := by
  rw [OapSt.anchored, if_pos h.symm]

@[simp] theorem State.storeValue_oap (s : State) (index sub : Nat) : (s.storeValue index sub).oap = s.oap := by
  rw [State.storeValue_eq]

@[simp] theorem State.answered_anchor (s : State) (a : Ans) (r : Role) : (s.answered a).oap.anchor r = s.oap.anchor r := by
  cases r <;> rfl

@[simp] theorem State.answered_sessions (s : State) (a : Ans) : (s.answered a).oap.sessions = s.oap.sessions := rfl

/-- An anchor that the owner writes is taken as `anchored` says, and queued for flash. -/
theorem execAnchorWrite_owner {s : State} {x : Session} (r : Role) {v : List Byte} (ha : s.rindActive = true)
    (hx : s.session x.id = some x) (hrole : x.role = .owner) (hv : v.length < 0x1000000)
    (hup : s.oap.portA.up = true ∨ s.oap.portB.up = true) :
    exec (.anchorWrite x.id r v) s = .next (State.afterWrite
      (({ s with oap := s.oap.anchored x.id r v } : State).storeValue 0x1103 (anchorSub r)).done) := by
  have hc : s.carries .owner = true := hrole ▸ State.carries_of_session hx hup
  have hmay : s.writeRefusal x.id .owner 0x1103 (anchorSub r) = .ok (wrBlob .rwp [.owner] (s.oap.anchor r)) := by
    cases r <;> rfl
  have hfits : lengthFits (wrBlob .rwp [.owner] (s.oap.anchor r)) 0x1103 (anchorSub r) v = true := by
    cases r <;> exact decide_eq_true hv
  rw [exec_anchorWrite, execAnchorWrite, State.sessionWrite_open _ _ _ hx, hrole, State.rowWrite_blob hc ha hmay rfl hfits]
  simp only [State.putBlob, State.putAnchor, anchorRole_anchorSub, State.afterWrite, OapSt.anchored]

/-! ## Nonces (17 R761) -/

/-- A nonce is one change of its session, and counts a report. -/
theorem State.wNonce_eq (s : State) (sid : Nat) (v : List Byte) : s.wNonce sid v =
    ({ s.modSession sid (fun y => { y with nonce := v, report := s.attestation v }) with
        fw := { s.fw with reports := s.fw.reports + 1 } } : State).done := by
  simp [State.wNonce, State.modSession, mapIf]

/-- Every role writes its session's nonce. -/
theorem State.nonce_allowed (s : State) (sid : Nat) (r : Role) : s.writeRefusal sid r 0x7301 2 =
    .ok (woSub .blob [.owner, .rack, .host, .observer]) := by
  cases r <;> rfl

section
variable {s : State} {x : Session} {v : List Byte} (ha : s.rindActive = true) (hx : s.session x.id = some x)
  (hup : s.oap.portA.up = true ∨ s.oap.portB.up = true)
include ha hx hup

theorem execAttestationNonce_taken (hv : v.length = 32) :
    exec (.attestationNonce x.id v) s = .next (State.afterWrite (s.wNonce x.id v)) := by
  rw [exec_attestationNonce, execAttestationNonce, State.sessionWrite_open _ _ _ hx,
    State.rowWrite_blob (State.carries_of_session hx hup) ha (s.nonce_allowed x.id x.role) rfl (decide_eq_true hv)]
  rfl

theorem execAttestationNonce_misfit (hv : v.length ≠ 32) : Denied (.attestationNonce x.id v) s stLength [] := by
  rw [Denied, exec_attestationNonce, execAttestationNonce, State.sessionWrite_open _ _ _ hx,
    State.rowWrite_misfit (State.carries_of_session hx hup) ha (s.nonce_allowed x.id x.role) (decide_eq_false hv)]
  rfl

end

/-! ## The statement -/

/-- Settles O52: a handshake is decided by the role that is granted, an open session's request waits for the tick, and a write
of an anchor or a nonce is the put operation of its sub-entry, answered. -/
theorem sessionsTakeRequests : Obligations.SessionsTakeRequests := by
  intro s ha
  refine ⟨fun p cid cert r link hup => ⟨fun hed hml hroom hr hset hchain => ?opens,
      fun hbad => gives_of_exec (execOapHandshake_fails p cid link hbad) rfl, fun hed hml hnone hset hr => ?commissioning⟩,
    fun sid => gives_of_exec (if_pos ha) ⟨rfl, rfl, rfl⟩,
    fun x p req index sub n body more items hx hup => ?requests,
    fun x r v hx hrole hv hup => ?anchors, fun x v hx hup hv => ?nonce,
    fun x v hx hup hv => execAttestationNonce_misfit ha hx hup hv⟩
  case opens =>
    refine gives_of_exec (execOapHandshake_verified cid link ha hup hed hml hroom) ?_
    rw [State.grantedRole_chained link hr hset hchain]
    exact ⟨_, rfl, rfl, rfl, rfl, rfl, rfl, rfl, rfl, rfl⟩
  case commissioning =>
    have hroom : s.oap.sessions.length < 32 := by rw [hnone]; decide
    have hexec (own : Bool) := execOapHandshake_verified cid own ha hup hed hml hroom
    simp only [State.grantedRole_commissioning _ hr hset hnone] at hexec
    exact ⟨gives_of_exec (hexec true) ⟨by simp [State.opened, hnone, freshSession], rfl, rfl⟩,
      gives_of_exec (hexec false) rfl⟩
  case requests =>
    have hwaits (op : OapOp) : s.Waits x p req op (s.request x.id p req op) := State.request_waits req op ha hx hup
    exact ⟨gives_of_exec rfl (hwaits _), gives_of_exec rfl (hwaits _), gives_of_exec rfl (hwaits _),
      gives_of_exec rfl (hwaits _), gives_of_exec rfl (hwaits _)⟩
  case anchors =>
    refine written_of_done (execAnchorWrite_owner r ha hx hrole hv hup) rfl
      ⟨?_, fun hnew => ?_, fun hold => ?_, fun q hq => ?_, by simp [Quiet]⟩
    · rw [State.answered_anchor, State.storeValue_oap, OapSt.anchored_anchor]
    · rw [State.answered_sessions, State.storeValue_oap, OapSt.anchored_sessions_changed _ _ hnew]
    · rw [State.answered_sessions, State.storeValue_oap, OapSt.anchored_sessions_same _ _ hold]
    · rw [State.answered_anchor, State.storeValue_oap, OapSt.anchored_anchor_ne _ _ _ hq]
  case nonce =>
    refine written_of_done (execAttestationNonce_taken ha hx hup hv) (s.wNonce_eq x.id v) ?_
    exact ⟨State.session_modSession (fun y => { y with nonce := v, report := s.attestation v }) (fun _ => rfl) hx,
      rfl, rfl, rfl⟩

end Sys2Proof.Machine
end
